-- ==== Sys2Proof/Word.lean ====
section
/-! DEFINITION. The plain types of the model: bytes and words, the sparse table in one canonical form that
every memory and register store uses, and the records that commands carry as operands. No meaning stands here. -/

namespace Sys2Proof

/-- A byte of memory or of a frame (R47). -/
abbrev Byte := BitVec 8
/-- A run of bytes in ascending address. -/
abbrev Bytes := List (BitVec 8)
/-- A 32-bit word: FP32 pattern, int32 lane, accumulator word (R124, R145). -/
abbrev W32 := BitVec 32
/-- A 64-bit word: an X register (Table 1.1). -/
abbrev W64 := BitVec 64

/-- A sparse table by number: keys strictly rising and no entry equal to what an unlisted key reads as, so
that equal tables are equal data. Its operations stand in Machine/Map.lean. -/
structure Map (α : Type) where
  entries : List (Nat × α)
deriving DecidableEq, Repr

/-- The table that lists nothing. -/
def Map.empty {α : Type} : Map α := ⟨[]⟩

/-- The three carriers of management frames (Table 3.6). -/
inductive Carrier where
  | tally | host | torus
deriving DecidableEq, Repr

/-- The Ethernet II framing of a frame on the Tally port (Table 3.6, R383): destination and source MAC address, the tag control
information of an IEEE 802.1Q tag, the EtherType. -/
structure Ether where
  dst  : Nat
  src  : Nat
  tag  : Option Nat
  type : Nat
deriving DecidableEq, Repr

/-- No Ethernet framing: a frame of another carrier. -/
def Ether.none : Ether := ⟨0, 0, Option.none, 0⟩

/-- A management frame as a carrier delivers it (Table 3.4). `carried` is the number of bytes the carrier
delivered, `slot` the host window slot it stands in (host carrier only), `payload` bytes 24 onward, `ether` its framing on the
Tally port. -/
structure Frame where
  carrier : Carrier
  slot    : Nat
  carried : Nat
  version : Nat
  kind    : Nat
  command : Nat
  status  : Nat
  seq     : Nat
  session : Nat
  source  : Nat
  dest    : Nat
  index   : Nat
  sub     : Nat
  flags   : Nat
  offset  : Nat
  length  : Nat
  payload : Bytes
  check   : W32
  ether   : Ether := Ether.none
deriving DecidableEq, Repr

/-- A tensor block whose first read fails its check (R409): which block, and whether the one re-read passes. -/
structure BlockRead where
  block        : Nat
  rereadPasses : Bool
deriving DecidableEq, Repr

/-- A commit message (Table 10.7). -/
structure CommitMsg where
  format    : Nat
  type      : Nat
  action    : Nat
  attempt   : Nat
  step      : Nat
  jobTag    : Nat
  sender    : Nat
  firstFail : Nat
  reporters : Nat
  reason    : Nat
  check     : W32
deriving DecidableEq, Repr

/-- An identity record (Table 14.7); `serial` is PACKAGE_SERIAL. -/
structure IdRecord where
  format     : Nat
  kind       : Nat
  packageId  : Nat
  port       : Nat
  generation : Nat
  compute    : Nat
  iod        : Nat
  dimX       : Nat
  dimY       : Nat
  dimZ       : Nat
  iflags     : Nat
  lanes      : Nat
  serial     : Bytes
  digest     : Nat
  revision   : Nat
  jobTag     : Nat
  lineDown   : Nat
  check      : W32
deriving DecidableEq, Repr

/-- A packet of the torus (Table 14.8) with its unit payload. -/
structure Packet where
  dest    : Nat
  source  : Nat
  cls     : Nat
  pflags  : Nat
  flowSeq : Nat
  hops    : Nat
  unit    : Nat
  unitTag : Nat
  payload : Bytes
deriving DecidableEq, Repr

/-- A flit as the FEC decoder hands it on (Table 14.2): `fecOk` false for a codeword that FEC cannot
correct, `corrected` the symbols it corrected. -/
structure Flit where
  fecOk     : Bool
  corrected : Nat
  kind      : Nat
  vc        : Nat
  linkSeq   : Nat
  ackSeq    : Nat
  credits   : List Nat
  payload   : Bytes
  check     : W32
deriving DecidableEq, Repr

/-- A page that has landed on a Lane: its bytes, and whether one of its block checks failed for good. -/
structure LandedPage where
  bytes : Map Byte
  bad   : Bool
deriving DecidableEq, Repr

/-- A block of a sequence ring as it lands (R313). -/
structure RingBlock where
  jobStage : Nat
  step     : Nat
  attempt  : Nat
  mb       : Nat
  kind     : Nat
  hop      : Nat
  block    : Nat
  bytes    : Map Byte
  checkOk  : Bool
deriving DecidableEq, Repr

/-- A packet of a reduction frame (R276): the frame's 64 header bytes, the segment's offset within the frame
payload, the segment, and the segment's check values. -/
structure RedPacket where
  header  : Bytes
  offset  : Nat
  segment : Bytes
  checks  : List W32
deriving DecidableEq, Repr

/-- What a version fetch brought (R260): version, both windows' bytes, powers, learning rates, last step. -/
structure FetchResult where
  passed        : Bool
  jobStage      : Nat
  seqSlice      : Nat
  weightPages   : Nat
  optPages      : Nat
  version       : Nat
  weights       : Map Byte
  optimizer     : Map Byte
  powers        : Map Byte
  lr            : Nat
  lrNext        : Nat
  lrStep        : Nat
  lastCommitted : Nat
deriving DecidableEq, Repr

/-- One plane of a picture: rows of code values. -/
structure Plane where
  width  : Nat
  height : Nat
  rows   : List (List Nat)
deriving DecidableEq, Repr

/-- A picture as frames are made of it (R329, R331): presentation time, field order, signalled format, display planes, and the cc_data
constructs that it carries. -/
structure Picture where
  pts        : Nat
  fieldTicks : Nat
  interlaced : Bool
  topFirst   : Bool
  depth      : Nat
  matrix     : Nat
  fullRange  : Bool
  luma       : Plane
  cb         : Plane
  cr         : Plane
  cc         : List (Bool × Nat × Nat × Nat)
deriving DecidableEq, Repr

/-- Decoded audio (R338): rate, PTS of the frame decoding starts at, and the channels the stream carries,
each a list of FP32 samples: [L, R, C, LFE, Ls, Rs]. -/
structure Pcm where
  rate : Nat
  pts0 : Nat
  l    : Option (List W32)
  r    : Option (List W32)
  c    : Option (List W32)
  lfe  : Option (List W32)
  ls   : Option (List W32)
  rs   : Option (List W32)
deriving DecidableEq, Repr

/-- A coded picture as a decode engine reads it from its elementary stream, in decoding order (R328, R329). `unit` and `last`: the first and
the last PES packet or ISO sample that hold its data; `ticks`: its presentation time after that of `unit`; `profile`, `level` and
`constraints` as its standard codes them (`constraints`: constraint_set i in bit i of H.264; general_tier_flag and the nine flags from
general_max_12bit_constraint_flag on of H.265, the last in bit 0); `layered`: of a scalable or multiview extension; `chroma` 0 monochrome, 1 4:2:0, 2 4:2:2, 3 4:4:4;
`width` and `height` its coded luma size; the flags of R331; `random`: a random access point; `leading`: a leading picture that a decoder
which starts at the random access point before it may discard; `refs`: the pictures that it refers to, by their place in decoding order (a
place that no picture has: one that is missing); `broken`: a syntax or semantic error or damaged picture data; the display planes, and the
payloads of its MPEG-2 user_data, or of its messages of type user_data_registered_itu_t_t35 or ITU-T T.35. -/
structure CodedPicture where
  unit             : Nat
  last             : Nat
  ticks            : Nat
  profile          : Nat
  level            : Nat
  constraints      : Nat
  layered          : Bool
  chroma           : Nat
  depth            : Nat
  width            : Nat
  height           : Nat
  progressiveFrame : Bool
  fieldPic         : Bool
  mbaff            : Bool
  fieldSeq         : Bool
  random           : Bool
  leading          : Bool
  refs             : List Nat
  broken           : Bool
  fieldTicks       : Nat
  topFirst         : Bool
  matrix           : Nat
  fullRange        : Bool
  luma             : Plane
  cb               : Plane
  cr               : Plane
  user             : List Bytes
deriving DecidableEq, Repr

/-- An audio frame as an audio decoder reads it from its elementary stream (R337, R338). `unit` and `last` as for a picture; `object`: the
layer of ISO/IEC 11172-3, the audio object type of ISO/IEC 14496-3, or bsid of A/52; `mode`: the mode of ISO/IEC 11172-3, the channel
configuration, or acmod; `extended`: it uses an extension or a tool outside Table 13.8; `count`: samples of a channel; `samples`: its
channels in the order of the stream, LFE last where the standard has it last. -/
structure AudioFrame where
  unit     : Nat
  last     : Nat
  object   : Nat
  mode     : Nat
  lfe      : Bool
  extended : Bool
  rate     : Nat
  broken   : Bool
  count    : Nat
  samples  : List (List W32)
deriving DecidableEq, Repr

/-- What the decode engine and the audio decoder read from the elementary streams of one sample (log entry 79, DESIGN CHOICE). -/
structure Decoded where
  pictures : List CodedPicture
  audio    : List AudioFrame
deriving DecidableEq, Repr

/-- A sample as a decoder sends it to the sinks (R349): kept frames, PCM at the target rate, captions,
catalogue fields. -/
structure SamplePayload where
  sampleId          : Nat
  sourceId          : Nat
  frames            : List Picture
  audio             : Option (List (List W32))
  captions          : Bytes
  truncated         : Bool
  picturesConcealed : Nat
  audioConcealed    : Nat
deriving DecidableEq, Repr

/-- What a sink receives for one slot (R349). -/
inductive SlotPayload where
  | drop (sampleId cause : Nat)
  | sample (p : SamplePayload)
  | transferFailed
deriving DecidableEq, Repr

/-- An IEEE 1588 message as timestamped at a port (R376). `kind`: 0 Sync, 1 Follow_Up, 2 Pdelay_Req,
3 Pdelay_Resp, 4 Pdelay_Resp_Follow_Up. `stamp` is the time the message carries, `arrival` the local time stamp, ns. -/
structure PtpMsg where
  kind    : Nat
  domain  : Nat
  seq     : Nat
  stamp   : Nat
  arrival : Nat
deriving DecidableEq, Repr

/-- An entry of the MSI-X table in BAR0 (Table 14.11): message address and data, whether its vector is masked. -/
structure MsixEntry where
  address : Nat
  data    : Nat
  masked  : Bool
deriving DecidableEq, Repr

/-- What the host has configured of the endpoint when the link is UP (Table 14.11; log entry 108, DESIGN CHOICE): MSI-X enable and function mask,
the MSI-X table, max payload and max read request size. -/
structure HostConfig where
  msix         : Bool
  functionMask : Bool
  table        : List MsixEntry
  maxPayload   : Nat
  maxRead      : Nat
deriving DecidableEq, Repr

/-- A host link that finishes training (R378): the lanes that pass at both ends, and what the host has configured of the endpoint. -/
structure HostTrained where
  lanes  : Nat
  config : HostConfig
deriving DecidableEq, Repr

/-- A reset of the host link (R381): whether the link goes down with it, and the data link layer replays that the link has had since it came up. -/
structure HostReset where
  down    : Bool
  replays : Nat
deriving DecidableEq, Repr

/-- What the hardware found in one step of the start sequence (Table 17.1): which units failed their test. -/
structure StepResult where
  iodOk        : Bool
  badDies      : List Nat
  badBents     : List Nat
  badStacks    : List Nat
  stackFrames  : List Nat
  lanesPassing : List Nat
deriving DecidableEq, Repr

/-- Symbol errors of one stored line (R411): frame, line, and the errors (symbol position, error value). -/
structure LineErrors where
  frame  : Nat
  line   : Nat
  errors : List (Nat × Nat)
deriving DecidableEq, Repr

/-- Readings of the governor's evaluation (R482): input voltage mV, current mA, power W, and the
seventeen sensors in m°C in the order of R495. -/
structure Readings where
  millivolts : Nat
  milliamps  : Nat
  watts      : Nat
  temps      : List Int
deriving DecidableEq, Repr

end Sys2Proof
end

