-- ==== Sys2Proof/Syntax.lean ====
section
/-! DEFINITION. The commands of the S93 block: one constructor per row of spec/opcode_table.json, in its order,
with the row's operands. A management row carries the frame as received; a descriptor row the core whose next
descriptor (at DPTR, R96) it issues; an arrival what arrived; an expiry or completion the unit it concerns. -/

namespace Sys2Proof

/-- A command. -/
inductive Instr where
  /-- READ (R51). Management command that returns the value of one object taken at one instant. -/
  | read (f : Frame)
  /-- WRITE (R51). Management command that writes one object; it also covers writes to every register that has no row of its own. -/
  | write (f : Frame)
  /-- READ_DOMAIN (R58). Management command that reads a byte range of a DOMAIN object, taken at one instant, and returns it as ordered segments. -/
  | readDomain (f : Frame)
  /-- WRITE_DOMAIN (R59). Management command whose data frames of one SEQUENCE are gathered and applied as one write once every byte has arrived. -/
  | writeDomain (f : Frame)
  /-- WRITE_DOMAIN_TIMEOUT (R59). Expiry of the 100 ms limit on an incomplete WRITE_DOMAIN transfer; the transfer is discarded and answered STATE. -/
  | writeDomainTimeout (session : Nat) (seq : Nat)
  /-- SUBSCRIBE (R62). Management command that makes the package send an event frame on each change of an object. -/
  | subscribe (f : Frame)
  /-- UNSUBSCRIBE (R62). Management command that removes a subscription of the session. -/
  | unsubscribe (f : Frame)
  /-- OPEN_SESSION (R57). Management command that grants a level and returns a new session id, or BUSY when 64 sessions are held. -/
  | openSession (f : Frame)
  /-- CLOSE_SESSION (R57). Management command that closes the session. -/
  | closeSession (f : Frame)
  /-- SESSION_IDLE_TIMEOUT (R57). A session that has carried no frame for SESSION_IDLE_LIMIT closes. -/
  | sessionIdleTimeout (session : Nat)
  /-- SERVICE_WRITE (R64). Signed write that is verified against the fused key, the serial and the nonce, and is then applied at level SERVICE. -/
  | serviceWrite (f : Frame)
  /-- SERVICE_LOCKOUT_END (R64). End of the 60 s period in which every SERVICE_WRITE returns BUSY after 16 failures. -/
  | serviceLockoutEnd
  /-- PROXY_RESPONSE (R55). A response to a proxied frame returns over the torus and is passed back on the entry carrier. -/
  | proxyResponse (f : Frame)
  /-- EVENT_SEND (R62). An event frame for a changed object is sent to a subscribing session, at most once per millisecond per object, or dropped when the queue is full. -/
  | eventSend (session : Nat) (index : Nat) (sub : Nat)
  /-- REQ_POST (R56). Host write that posts request slots of the management window for the package to take. -/
  | reqPost (frames : List Frame) (mask : Nat)
  /-- RSP_TAKE (R56). Host write that frees response slots so that held responses can be placed. -/
  | rspTake (mask : Nat)
  /-- EVT_TAKE (R56). Host write that frees event slots so that queued events can pass to them. -/
  | evtTake (mask : Nat)
  /-- RESTORE_STORED (R53). Write that marks, or unmarks, every RWS object for return to its default at the next start. -/
  | restoreStored (f : Frame)
  /-- COUNTER_CLEAR (R144). Write to a counter object that clears it when the value is 0 and returns RANGE otherwise. -/
  | counterClear (f : Frame)
  /-- NOP (R105). Control descriptor with no effect beyond its header. -/
  | nop (core : Nat)
  /-- HALT (R105). Control descriptor that issues once every earlier descriptor has retired and puts the core in HALTED with HALT_CODE. -/
  | halt (core : Nat)
  /-- WAIT (R105). Control descriptor that issues when all or any of its WAIT_MASK flags are set. -/
  | wait (core : Nat)
  /-- SIGNAL (R105). Control descriptor that sets flags of the own core or of a peer core and clears own flags. -/
  | signal (core : Nat)
  /-- FENCE (R105). Control descriptor that issues once earlier descriptors have retired and their Bent or tensor writes are visible, and discards read-ahead descriptors. -/
  | fence (core : Nat)
  /-- LOOP (R105). Control descriptor that decrements an X register and jumps while the result is not zero. -/
  | loop (core : Nat)
  /-- BRANCH_FLAG (R105). Control descriptor that tests flags and jumps, optionally consuming them. -/
  | branchFlag (core : Nat)
  /-- BRANCH_X (R105). Control descriptor that compares X registers and jumps when the condition holds. -/
  | branchX (core : Nat)
  /-- XOP (R105). Control descriptor that writes an X register with the result of an X operation. -/
  | xop (core : Nat)
  /-- DESCRIPTOR_RETIRE (R102). An issued descriptor whose effects are complete and whose predecessors have retired retires and sets its SIGNAL_MASK flags. -/
  | descriptorRetire (core : Nat)
  /-- CORE_WAITING (R112). A core whose next descriptor has been held only by its wait condition for more than 1,024 cycles enters WAITING. -/
  | coreWaiting (core : Nat)
  /-- WATCHDOG (R117). Expiry of WD_LIMIT for an issued descriptor faults the core with WATCHDOG. -/
  | watchdog (core : Nat) (pos : Nat)
  /-- MOVE_LOCAL (R107). Move descriptor that copies rows within core memory. -/
  | moveLocal (core : Nat)
  /-- MOVE_BENT (R107). Move descriptor that copies rows between core memory and the Bent window. -/
  | moveBent (core : Nat)
  /-- MOVE_PEER (R110). Move descriptor that pushes rows into the core memory of a peer core in 64-byte granules. -/
  | movePeer (core : Nat)
  /-- MOVE_TENSOR (R109). Move descriptor served by the page mover that reads or writes tensor pages, with block checks generated and verified. -/
  | moveTensor (core : Nat) (reads : List BlockRead)
  /-- CORE_START (R114). CORE_CONTROL START sets DPTR to CORE_ENTRY, initialises X registers and makes the core RUNNING. -/
  | coreStart (f : Frame)
  /-- CORE_STOP (R114). CORE_CONTROL STOP stops issue; the core becomes HALTED with code 0xFF once issued descriptors have retired. -/
  | coreStop (f : Frame)
  /-- CORE_RESET (R114). CORE_CONTROL RESET abandons issued descriptors, clears registers, flags and tiles, and makes the core IDLE. -/
  | coreReset (f : Frame)
  /-- CORE_MEMORY_WRITE (R113). WRITE_DOMAIN to CORE_MEMORY that loads a program, refused while the core runs. -/
  | coreMemoryWrite (f : Frame)
  /-- CORE_FP_STATUS_WRITE (R118). Write to CORE_FP_STATUS in which each bit written 1 clears a status flag. -/
  | coreFpStatusWrite (f : Frame)
  /-- MM (R126). Matrix descriptor that accumulates the exact slab products of two panels into a tile, with rescale-retry on range events. -/
  | mm (core : Nat)
  /-- CHAIN_LOAD (R135). An MM with CHAIN_IN that was waiting for its chain input buffer to fill loads the buffer into its tile. -/
  | chainLoad (core : Nat)
  /-- CHAIN_TRANSFER (R135). An MM with CHAIN_OUT that was waiting for the next core's buffer to empty transfers its tile there. -/
  | chainTransfer (core : Nat)
  /-- TILE_CLEAR (R141). Matrix descriptor that empties the tiles named by its mask. -/
  | tileClear (core : Nat)
  /-- TILE_STORE (R138). Matrix descriptor that writes a tile through scale, bias, activation and conversion into memory. -/
  | tileStore (core : Nat)
  /-- TILE_STAT (R141). Matrix descriptor that copies a tile's status word into an X register. -/
  | tileStat (core : Nat)
  /-- VADD (R151). Vector descriptor that adds per lane or element. -/
  | vadd (core : Nat)
  /-- VSUB (R151). Vector descriptor that subtracts per lane or element. -/
  | vsub (core : Nat)
  /-- VMUL (R151). Vector descriptor that multiplies per lane or element. -/
  | vmul (core : Nat)
  /-- VFMA (R151). Vector descriptor that computes a×b+c with one rounding. -/
  | vfma (core : Nat)
  /-- VMIN (R151). Vector descriptor that takes the IEEE minimum, or the signed minimum under INT32. -/
  | vmin (core : Nat)
  /-- VMAX (R151). Vector descriptor that takes the IEEE maximum, or the signed maximum under INT32. -/
  | vmax (core : Nat)
  /-- VMINNUM (R151). Vector descriptor that takes minimumNumber. -/
  | vminnum (core : Nat)
  /-- VMAXNUM (R151). Vector descriptor that takes maximumNumber. -/
  | vmaxnum (core : Nat)
  /-- VNEG (R151). Vector descriptor that negates. -/
  | vneg (core : Nat)
  /-- VABS (R151). Vector descriptor that takes the absolute value. -/
  | vabs (core : Nat)
  /-- VCOPYSIGN (R151). Vector descriptor that gives the magnitude of a with the sign of b. -/
  | vcopysign (core : Nat)
  /-- VCMP (R151). Vector descriptor that compares quietly and writes all ones or zero. -/
  | vcmp (core : Nat)
  /-- VSEL (R151). Vector descriptor that selects b or c by the bit pattern of a. -/
  | vsel (core : Nat)
  /-- VLOGIC (R150). Vector descriptor for the INT32 logic and shift operations. -/
  | vlogic (core : Nat)
  /-- VLANEID (R150). Vector descriptor that writes the lane number plus IMM. -/
  | vlaneid (core : Nat)
  /-- VCVTI (R150). Vector descriptor for the integer conversions. -/
  | vcvti (core : Nat)
  /-- VPACK (R152). Vector descriptor that packs two FP32 registers into BF16. -/
  | vpack (core : Nat)
  /-- VUNPACK (R150). Vector descriptor that widens one half of packed BF16 exactly to FP32. -/
  | vunpack (core : Nat)
  /-- VQUANT (R152). Vector descriptor that rounds to a target format and widens the result back exactly. -/
  | vquant (core : Nat)
  /-- VLOAD (R153). Vector descriptor that loads and decodes elements from memory. -/
  | vload (core : Nat)
  /-- VSTORE (R153). Vector descriptor that converts and stores elements to memory. -/
  | vstore (core : Nat)
  /-- VEXP2 (R154). Vector descriptor for the correctly rounded 2^a. -/
  | vexp2 (core : Nat)
  /-- VLOG2 (R154). Vector descriptor for the correctly rounded log2 a. -/
  | vlog2 (core : Nat)
  /-- VRCP (R154). Vector descriptor for the correctly rounded reciprocal. -/
  | vrcp (core : Nat)
  /-- VRSQRT (R154). Vector descriptor for the correctly rounded reciprocal square root. -/
  | vrsqrt (core : Nat)
  /-- VTANH (R154). Vector descriptor for the correctly rounded tanh. -/
  | vtanh (core : Nat)
  /-- VREDUCE (R155). Vector descriptor that reduces lane groups by a fixed tree. -/
  | vreduce (core : Nat)
  /-- VNORM_STATS (R156). Vector descriptor that forms layer or RMS normalisation statistics per group. -/
  | vnormStats (core : Nat)
  /-- VSOFTMAX (R161). Vector descriptor that computes a one-pass softmax per row, optionally with its log-sum-exp. -/
  | vsoftmax (core : Nat)
  /-- VLSE_UPDATE (R161). Vector descriptor that merges a chunk or a state into a running softmax state. -/
  | vlseUpdate (core : Nat)
  /-- VSOFTMAX_APPLY (R161). Vector descriptor that applies a softmax state to a chunk. -/
  | vsoftmaxApply (core : Nat)
  /-- VLSE_FINAL (R161). Vector descriptor that writes the log-sum-exp of a state. -/
  | vlseFinal (core : Nat)
  /-- RNG_CTX (R164). Descriptor that sets the core's random context from X registers at issue. -/
  | rngCtx (core : Nat)
  /-- VRAND (R165). Vector descriptor that writes raw or uniform Philox random words. -/
  | vrand (core : Nat)
  /-- VDROPOUT (R165). Vector descriptor that zeroes or scales lanes by their random word. -/
  | vdropout (core : Nat)
  /-- RNG_SEED_WRITE (R168). Write of a Bent's job seed, refused while a core of the Bent runs or the job is declared. -/
  | rngSeedWrite (f : Frame)
  /-- QUEUE_CREATE (R172). QUEUE_CONTROL CREATE checks the queue storage and opens an UNUSED queue with a new generation. -/
  | queueCreate (f : Frame)
  /-- QUEUE_CLOSE (R172). QUEUE_CONTROL CLOSE closes an open queue and keeps its contents. -/
  | queueClose (f : Frame)
  /-- QUEUE_REOPEN (R172). QUEUE_CONTROL REOPEN reopens a closed queue, discards its contents and moves the generation. -/
  | queueReopen (f : Frame)
  /-- QUEUE_DELETE (R172). QUEUE_CONTROL DELETE returns a closed queue to UNUSED and moves the generation. -/
  | queueDelete (f : Frame)
  /-- ENDPOINT_TABLE_WRITE (R175). Write of a core's endpoint table that checks all 16 entries and rebinds them as one write. -/
  | endpointTableWrite (f : Frame)
  /-- SEND (R182). Channel descriptor that sends a message on a SEND binding against credit or a reservation. -/
  | send (core : Nat)
  /-- RECV (R183). Channel descriptor that copies and removes the head message, waiting while the queue is open and empty. -/
  | recv (core : Nat)
  /-- CONTRIBUTE (R182). Channel descriptor that places a contribution in the binding's slot of the oldest round of a combining queue. -/
  | contribute (core : Nat)
  /-- PROBE (R183). Channel descriptor that reports the head message without removing it. -/
  | probe (core : Nat)
  /-- MESSAGE_ACCEPT (R177). A message whose last granule has been written is accepted at a queue whole, and waiting readers are woken. -/
  | messageAccept (flight : Nat) (damage : List (Nat × Byte))
  /-- GENERATION_NOTICE (R193). A notice arrives from a remote reader's package that its queue generation moved, making the sender's binding stale. -/
  | generationNotice (queue : Nat) (gen : Nat) (closed : Bool)
  /-- CH_WAIT_TIMEOUT (R194). Expiry of CH_WAIT_LIMIT for a channel flag wait faults the core and fills CH_WAIT_REPORT. -/
  | chWaitTimeout (core : Nat)
  /-- ARM (R201). STAGE_CONTROL ARM checks the plan and reserves the stash allotment. -/
  | arm (f : Frame)
  /-- RUN (R200). STAGE_CONTROL RUN makes an armed slot RUNNING. -/
  | run (f : Frame)
  /-- STAGE_STOP (R200). STAGE_CONTROL STOP ends dispatch; the slot becomes STOPPED when no work item runs. -/
  | stageStop (f : Frame)
  /-- DISARM (R200). STAGE_CONTROL DISARM releases the allotment and Lane bindings and makes the slot UNUSED. -/
  | disarm (f : Frame)
  /-- PACER_DECIDE (R219). When the slot is free and the step has work left, the lead Pacer runs its schedule program and dispatches, or starves. -/
  | pacerDecide (slot : Nat)
  /-- WORK_ITEM_COMPLETE (R203). Every core of a slot has halted with a work code, or a core faulted, ending the work item. -/
  | workItemComplete (slot : Nat)
  /-- STAGE_DEADLINE (R225). Expiry of a work item's deadline stops its cores and puts the slot in the stage fault DEADLINE. -/
  | stageDeadline (slot : Nat)
  /-- RELAY_OPEN (R204). RELAY_CONTROL OPEN sends an open request to the remote package and enters OPENING. -/
  | relayOpen (f : Frame)
  /-- RELAY_CLOSE (R204). RELAY_CONTROL CLOSE returns the Relay link to UNUSED. -/
  | relayClose (f : Frame)
  /-- RELAY_OPEN_REQUEST (R204). A Relay link open request arrives from a remote package, and the link enters UP when both ends match. -/
  | relayOpenRequest (source : Nat) (remoteLink : Nat) (link : Nat) (direction : Nat) (jobTag : Nat)
  /-- LANE_OPEN (R208). LANE_CONTROL OPEN checks a Lane end, takes its page ring, and completes deferred when a remote peer end opens. -/
  | laneOpen (f : Frame)
  /-- LANE_CLOSE (R208). LANE_CONTROL CLOSE closes a Lane as a queue CLOSE does. -/
  | laneClose (f : Frame)
  /-- LANE_REOPEN (R208). LANE_CONTROL REOPEN reopens a Lane as a queue REOPEN does. -/
  | laneReopen (f : Frame)
  /-- LANE_DELETE (R208). LANE_CONTROL DELETE deletes a Lane as a queue DELETE does. -/
  | laneDelete (f : Frame)
  /-- LANE_PEER_OPEN (R208). The remote end of a Lane reports that it has opened, completing the deferred OPEN with OK or RANGE. -/
  | lanePeerOpen (lane : Nat) (depth : Nat) (plane : Nat) (pages : Nat) (maxTokens : Nat) (tokenBytes : Nat)
  /-- LANE_SEND (R210). A sender Pacer holding a micro-batch credit and enough page credits sends a micro-batch's pages and Baton. -/
  | laneSend (slot : Nat) (ret : Bool)
  /-- BATON_RECEIVE (R212). A Baton arrives after its pages; it is checked and accepted, pinning its version, or discarded with a stage fault. -/
  | batonReceive (lane : Nat) (pages : List LandedPage) (baton : Bytes)
  /-- ALLOC_MAP (R231). ALLOC_REQUEST MAP maps a run of pages onto frames chosen by stack. -/
  | allocMap (f : Frame)
  /-- ALLOC_UNMAP (R231). ALLOC_REQUEST UNMAP unmaps a run of pages of one pool. -/
  | allocUnmap (f : Frame)
  /-- OPTIMIZER_LAYER_UPDATE (R247). Once a layer's reduced gradient is delivered, the Optimizer engine writes its new weights and moments into the pending version. -/
  | optimizerLayerUpdate (slot : Nat) (layer : Nat)
  /-- VS_FETCH (R260). VS_FETCH_CONTROL FETCH starts copying version v's windows and optimizer state from package Q. -/
  | vsFetch (f : Frame)
  /-- VS_FETCH_DONE (R260). The version fetch completes as DONE, or as FAILED on a check failure. -/
  | vsFetchDone (slot : Nat) (result : FetchResult)
  /-- READY_TOKEN (R255). A READY commit message arrives from a child; the package sends READY up once it is PENDING and every child is ready. -/
  | readyToken (m : CommitMsg)
  /-- FAIL (R254). A FAIL commit message arrives from a child and is forwarded, or decided on at the root. -/
  | fail (m : CommitMsg)
  /-- COMMIT (R257). A COMMIT decision arrives, is forwarded, and makes pending versions current and releases held inputs. -/
  | commit (m : CommitMsg)
  /-- ABORT (R257). An ABORT decision arrives, is forwarded, discards pending versions and replays, drops or holds the step. -/
  | abort (m : CommitMsg)
  /-- QUERY (R258). A QUERY commit message arrives and is answered with an applied decision or forwarded to the parent. -/
  | query (m : CommitMsg)
  /-- RESUME_MESSAGE (R252). A RESUME commit message for a held attempt arrives and starts the next attempt. -/
  | resumeMessage (m : CommitMsg)
  /-- RESUME (R260). COMMIT_CONTROL RESUME at a root whose last decision was HOLD sends RESUME down the commit tree. -/
  | resume (f : Frame)
  /-- RESOLVE_COMMIT (R258). COMMIT_CONTROL RESOLVE_COMMIT applies COMMIT to an in-doubt package. -/
  | resolveCommit (f : Frame)
  /-- RESOLVE_ABORT (R258). COMMIT_CONTROL RESOLVE_ABORT applies ABORT to an in-doubt package. -/
  | resolveAbort (f : Frame)
  /-- COMMIT_PARENT_WRITE (R258). Write of COMMIT_PARENT that aborts locally before READY, or sends QUERY while in doubt. -/
  | commitParentWrite (f : Frame)
  /-- COMMIT_WAIT_TIMEOUT (R255). Expiry of COMMIT_WAIT_LIMIT while PENDING without every child's READY sends FAIL with REASON TIMEOUT. -/
  | commitWaitTimeout
  /-- REDUCTION_PACKET (R276). A reduction-class packet lands its segment, and the frame is judged and acted on when its last segment has landed. -/
  | reductionPacket (channel : Nat) (p : RedPacket)
  /-- RESHARD (R291). RESHARD_CONTROL RESHARD reserves the next bank's frames and makes a switch to a new layout epoch pending. -/
  | reshard (f : Frame)
  /-- RESHARD_CANCEL (R291). RESHARD_CONTROL CANCEL releases the reservation of a pending re-shard. -/
  | reshardCancel (f : Frame)
  /-- EPOCH_REFUSAL (R294). A refusal notice with status EPOCH arrives and the sender counts it. -/
  | epochRefusal (channel : Nat)
  /-- ACTIVATE (R300). RG_CONTROL ACTIVATE maps a group's buckets and reserves its thinning state and receive areas. -/
  | activate (f : Frame)
  /-- DEACTIVATE (R300). RG_CONTROL DEACTIVATE unmaps a group's buckets and reservations. -/
  | deactivate (f : Frame)
  /-- RC_HOP_TIMEOUT (R296). Expiry of RC_HOP_LIMIT while a channel awaits a frame puts it in FAULTED and sends FAIL TIMEOUT. -/
  | rcHopTimeout (channel : Nat)
  /-- DECLARE (R303). JOB_CONTROL DECLARE checks the job record and writes JOB_SEED to every Bent. -/
  | declare (f : Frame)
  /-- RETRACT (R304). JOB_CONTROL RETRACT makes the job UNDECLARED while every slot is UNUSED. -/
  | retract (f : Frame)
  /-- RING_BLOCK (R313). A sequence-ring block lands, is checked and, in FORWARD mode, sent on to the next slice. -/
  | ringBlock (slot : Nat) (b : RingBlock)
  /-- RING_WAIT_TIMEOUT (R310). A MOVE_TENSOR waiting for an unlanded ring block exceeds CH_WAIT_LIMIT and faults with CH_WAIT_TIMEOUT. -/
  | ringWaitTimeout (core : Nat)
  /-- DATA_START (R348). DATA_CONTROL START checks the data engine settings, maps its rings and makes it RUNNING from START_U. -/
  | dataStart (f : Frame)
  /-- DATA_STOP (R348). DATA_CONTROL STOP finishes the slot under way and stops the decoders and sinks. -/
  | dataStop (f : Frame)
  /-- CLEAR_CLIPS (R348). DATA_CONTROL CLEAR_CLIPS empties the clip list while STOPPED. -/
  | clearClips (f : Frame)
  /-- DECODE_SLOT (R318). A decoder within its lookahead begins its next stream slot: shuffle, catalogue read, sample read, demux and decode. -/
  | decodeSlot
  /-- INGEST_FRAME (R320). A frame arrives on an ingest port and is taken as a RoCE v2 read response, NAK or congestion notification, or discarded. -/
  | ingestFrame (port : Nat) (fr : Bytes)
  /-- RDMA_TIMEOUT (R320). Expiry of a queue pair's read timeout retransmits from the oldest unacknowledged read. -/
  | rdmaTimeout (port : Nat) (qp : Nat)
  /-- SLOT_DECODED (R349). A decoder finishes a slot and sends its sample or drop notice to every sink of the replica. -/
  | slotDecoded (u : Nat) (d : Decoded)
  /-- SLOT_TRANSFER (R349). A sink receives a slot's bulk transfer or drop notice and forms candidates in stream order. -/
  | slotTransfer (u : Nat) (p : SlotPayload)
  /-- CLIP_NOTICE (R343). A clip notice from another decoder of the replica enters a SOURCE_ID in the clip list. -/
  | clipNotice (decoder : Nat) (sourceId : Nat) (epoch : Nat)
  /-- CURSOR_MESSAGE (R349). A sink's DATA_CURSOR arrives at a decoder and raises its lookahead limit. -/
  | cursorMessage (sink : Nat) (cursor : Nat)
  /-- LIGHT_DETECT (R357). Light is received on a dark torus port, which enters BEACON. -/
  | lightDetect (port : Nat)
  /-- HELLO (R359). A hello beacon arrives and is checked, leading to training or MISWIRED. -/
  | hello (port : Nat) (r : IdRecord)
  /-- BEACON_SEND (R358). Each BEACON_INTERVAL a port sends its hello beacon. -/
  | beaconSend (port : Nat)
  /-- TRAIN_STEP_TIMEOUT (R360). A torus port training step exceeds its bound, and the port returns to BEACON or DARK. -/
  | trainStepTimeout (port : Nat)
  /-- IDENTITY (R360). The identity record exchanged at the end of training arrives, and the port enters UP. -/
  | identity (port : Nat) (r : IdRecord)
  /-- IDENTITY_UPDATE (R364). An identity UPDATE arrives from an UP partner and refreshes the partner fields. -/
  | identityUpdate (port : Nat) (r : IdRecord)
  /-- LIGHT_LOSS (R361). Light absent for more than 1 ms on all or some logical lanes loses the partner or retrains the port. -/
  | lightLoss (port : Nat) (lanes : Nat)
  /-- HELLO_TIMEOUT (R361). No hello for 3 × BEACON_INTERVAL on an UP port loses the partner. -/
  | helloTimeout (port : Nat)
  /-- HOLD_EXPIRY (R362). The hold-down time ends; the port clears its flap count and enters DARK or BEACON. -/
  | holdExpiry (port : Nat)
  /-- PORT_ENABLE (R363). PORT_CONTROL ENABLE moves a disabled port to DARK. -/
  | portEnable (f : Frame)
  /-- PORT_DISABLE (R363). PORT_CONTROL DISABLE moves a port to DISABLED. -/
  | portDisable (f : Frame)
  /-- PORT_RETRAIN (R363). PORT_CONTROL RETRAIN moves an UP port to TRAINING. -/
  | portRetrain (f : Frame)
  /-- CLEAR_HOLD (R363). PORT_CONTROL CLEAR_HOLD ends a hold-down and resets the flap count. -/
  | clearHold (f : Frame)
  /-- FLIT (R355). A flit arrives on a torus port, is decoded and checked, delivered in order, or discarded with a NAK. -/
  | flit (port : Nat) (fl : Flit)
  /-- NAK (R355). A NAK arrives and the sender replays every flit after the one it names. -/
  | nak (port : Nat) (seq : Nat)
  /-- KEEPALIVE (R366). After one BEACON_INTERVAL without traffic to a remote partner, a KEEPALIVE notice is sent. -/
  | keepalive (partner : Nat)
  /-- REMOTE_PARTNER_TIMEOUT (R366). Nothing received from a remote partner for 3 × BEACON_INTERVAL loses it. -/
  | remotePartnerTimeout (partner : Nat)
  /-- PACKET (R370). A whole packet arrives at a switch and is routed onward, delivered, or discarded: `vc` is the virtual channel its
flits came on (R367). -/
  | packet (port vc : Nat) (p : Packet)
  /-- LINE_NOTICE (R369). A LINE notice arrives, updates RING_DOWN and is forwarded along the line. -/
  | lineNotice (port : Nat) (dim : Nat) (link : Nat) (down : Bool) (origin : Nat)
  /-- UNREACHABLE_NOTICE (R372). An UNREACHABLE notice arrives for a discarded packet. -/
  | unreachableNotice (p : Packet) (dest : Nat)
  /-- FLOW_RESET (R374). A FLOW_RESET notice arrives, and the source sets SYNC on its next packet of that flow. -/
  | flowReset (source : Nat) (cls : Nat)
  /-- ROUTE_REJOIN (R373). ROUTE_REJOIN_HOLD expires after a link rejoins, and ordered classes adopt the new direction. -/
  | routeRejoin (dim : Nat) (link : Nat)
  /-- PTP_MESSAGE (R376). An IEEE 1588 message arrives and drives the peer delay measurement and the time servo. -/
  | ptpMessage (port : Nat) (m : PtpMsg)
  /-- PTP_SEND (R376). Periodic Sync, Follow_Up and Pdelay_Req messages are sent on the UP torus ports. -/
  | ptpSend (port : Nat)
  /-- TIME_SET (R377). Write of TIME_SET that sets the package time at a time root. -/
  | timeSet (f : Frame)
  /-- HOST_LINK_RESET (R381). A hot reset, link down or FLR resets the host link bridge and closes host sessions. -/
  | hostLinkReset (r : HostReset)
  /-- SL_RETRAIN (R400). SL_CONTROL RETRAIN starts a training of an UP die link with width cap 8. -/
  | slRetrain (f : Frame)
  /-- CLAIM (R399). The other end's training claim arrives and is compared for agreement on epoch and width. -/
  | claim (link : Nat) (fromB : Bool) (epoch : Nat) (mask : Nat) (width : Nat)
  /-- DIE_TRAIN_TIMEOUT (R402). A die link training step exceeds its bound; the training fails and is charged to the dies. -/
  | dieTrainTimeout (link : Nat)
  /-- DIE_TRAIN_RETRY (R402). 1 ms after a failed training, the die link trains again. -/
  | dieTrainRetry (link : Nat)
  /-- SCARF_FLIT (R388). A die link flit arrives and is accepted or recovered by the adapter's retry. -/
  | scarfFlit (link : Nat) (crcOk : Bool)
  /-- DIE_READ (R392). A READ of a remote block arrives at its home die, which returns READ_DATA and records the holder. -/
  | dieRead (die : Nat) (block : Nat)
  /-- DIE_WRITE (R393). A WRITE arrives at the home die, which writes the block and invalidates other holders. -/
  | dieWrite (die : Nat) (block : Nat) (bytes : Map Byte)
  /-- READ_DATA (R392). READ_DATA arrives at the requesting die, fills a remote-line cache line and serves the unit. -/
  | readData (die : Nat) (block : Nat)
  /-- INVALIDATE (R393). An INVALIDATE arrives at a holder, which drops its line and answers INV_ACK. -/
  | invalidate (die : Nat) (block : Nat)
  /-- INV_ACK (R393). An INV_ACK arrives at the home, which sends WRITE_ACK once all have arrived. -/
  | invAck (die : Nat) (block : Nat)
  /-- WRITE_ACK (R393). A WRITE_ACK arrives and completes the write at the writer. -/
  | writeAck (die : Nat) (block : Nat)
  /-- INT_MESSAGE (R389). An INT message carrying an event, fault or watchdog report reaches the Prisum controller. -/
  | intMessage (die : Nat) (index : Nat) (sub : Nat)
  /-- RLC_ENABLE_WRITE (R392). Write of RLC_ENABLE; writing 0 invalidates every line before it completes. -/
  | rlcEnableWrite (f : Frame)
  /-- SCRUB_READ (R413). The stack controller scrubs the next frame within SCRUB_PERIOD and corrects its lines. -/
  | scrubRead (stack : Nat) (errors : List LineErrors)
  /-- RECOMPUTE_RUN (R417). The partner's idle matrix engine executes the selected MM, and the two results are compared bit for bit. -/
  | recomputeRun (core : Nat) (errors : List (Nat × W32))
  /-- RECOMPUTE_FORCE (R417). A recompute that has waited 16,384 cycles runs before the partner's next matrix descriptor. -/
  | recomputeForce (core : Nat) (errors : List (Nat × W32))
  /-- IMPLICATION_EXPIRY (R419). An implication entry whose last implication is older than IMPLICATE_WINDOW is removed. -/
  | implicationExpiry (suspect : Nat)
  /-- DRAIN (R423). DRAIN_CONTROL DRAIN starts a drain from SERVING. -/
  | drain (f : Frame)
  /-- UNDRAIN (R423). DRAIN_CONTROL UNDRAIN returns a DRAINED package with DRAIN_FLAG 0 to SERVING. -/
  | undrain (f : Frame)
  /-- BENT_TIMEOUT (R427). Expiry of BENT_TIMEOUT resets the engine, faults the Bent's cores and implicates the Bent. -/
  | bentTimeout (bent : Nat) (engine : Nat)
  /-- DIE_TIMEOUT (R427). Expiry of DIE_TIMEOUT abandons the die's requests toward a stack or link and retrains or resets it. -/
  | dieTimeout (die : Nat) (suspect : Nat)
  /-- PACKAGE_TIMEOUT (R427). Expiry of the package timeout resets unfinished slots and completes or starts a drain. -/
  | packageTimeout
  /-- FAULT_REPORT (R432). A fault report frame from a child arrives and is merged into the pending reports. -/
  | faultReport (f : Frame)
  /-- REPORT_SEND (R433). A pending report whose quiet or hold time has passed is sent to the parent, or delivered at the root. -/
  | reportSend (suspect : Nat) (cls : Nat) (step : Nat)
  /-- PWR_EN_HIGH (R456). PWR_EN is accepted high, and a power-on start begins. -/
  | pwrEnHigh
  /-- PWR_EN_LOW (R455). PWR_EN is accepted low, and the package powers down in descending domain order. -/
  | pwrEnLow
  /-- RST_N_LOW (R457). RST_N is accepted low, and the package is held in service reset. -/
  | rstNLow
  /-- RST_N_HIGH (R488). RST_N is accepted high, and the start continues at step 2. -/
  | rstNHigh
  /-- START_STEP_COMPLETE (R438). A step of the start sequence completes and the next step begins, up to READY. -/
  | startStepComplete (r : StepResult)
  /-- FALSE_START (R444). A start step reaches its bound or the image stops before READY; the start is counted and restarted, or Walk mode follows. -/
  | falseStart
  /-- RESTART (R461). START_CONTROL RESTART answers OK and then performs reset 0x04 and a start from step 2. -/
  | restart (f : Frame)
  /-- CLEAR_FALSE_STARTS (R461). START_CONTROL CLEAR_FALSE_STARTS clears FALSE_STARTS in Walk mode. -/
  | clearFalseStarts (f : Frame)
  /-- DOMAIN_ENABLE (R451). DOMAIN_CONTROL ENABLE powers up a domain, or leaves a pending ENABLE. -/
  | domainEnable (f : Frame)
  /-- DOMAIN_DISABLE (R451). DOMAIN_CONTROL DISABLE powers down a domain, or leaves a pending DISABLE. -/
  | domainDisable (f : Frame)
  /-- POWER_UP_COMPLETE (R453). A domain power-up completes; the domain is ON and any pending request takes effect. -/
  | powerUpComplete (domain : Nat)
  /-- POWER_DOWN_COMPLETE (R452). A domain power-down completes; the domain is OFF and any pending request takes effect. -/
  | powerDownComplete (domain : Nat)
  /-- POWER_UP_TIMEOUT (R453). A power-up reaches its bound; the domain is FAILED, or EXCLUDED during a start. -/
  | powerUpTimeout (domain : Nat)
  /-- DIE_RESET (R454). DIE_CONTROL RESET resets a compute die's fabric and Bents and retrains its links. -/
  | dieReset (f : Frame)
  /-- ERASE_A (R448). BOOT_SLOT_CONTROL ERASE_A erases image slot A. -/
  | eraseA (f : Frame)
  /-- ERASE_B (R448). BOOT_SLOT_CONTROL ERASE_B erases image slot B. -/
  | eraseB (f : Frame)
  /-- VERIFY_A (R448). BOOT_SLOT_CONTROL VERIFY_A checks slot A and sets its status. -/
  | verifyA (f : Frame)
  /-- VERIFY_B (R448). BOOT_SLOT_CONTROL VERIFY_B checks slot B and sets its status. -/
  | verifyB (f : Frame)
  /-- BOOT_IMAGE_WRITE (R448). WRITE_DOMAIN to BOOT_IMAGE_A or BOOT_IMAGE_B that writes image bytes once after an erase. -/
  | bootImageWrite (f : Frame)
  /-- INPUT_IN_RANGE (R479). The 48 V input has stayed in range for 10 ms, and the standby part comes up. -/
  | inputInRange
  /-- INPUT_OUT_OF_RANGE (R479). The input leaves range; every domain loses power at once and the standby part is lost. -/
  | inputOutOfRange
  /-- THERMAL_TRIP (R484). A die or stack reaches its trip temperature; THERM_TRIP_N is asserted and the package powers down. -/
  | thermalTrip (sensor : Nat) (reading : Int)
  /-- TRIP_RELEASE (R484). The trip hold is released once PWR_EN has been accepted low and every sensor has cooled by 20 °C. -/
  | tripRelease
  /-- GOVERNOR_STEP (R482). Every 100 µs the governor steps each compute die's clock down or up by power and temperature. -/
  | governorStep (r : Readings)
  /-- COUNTER_FREEZE (R465). Write that stops or restarts every counter of the package. -/
  | counterFreeze (f : Frame)
  /-- COUNTER_PRESET (R464). Write of a counter value that presets its 48 bits. -/
  | counterPreset (f : Frame)
  /-- OVERFLOW_CLEAR (R464). Write of an overflow object in which each bit written 1 clears a sticky overflow bit. -/
  | overflowClear (f : Frame)
  /-- COUNTER_SELECT (R463). Write of a counter's select word that picks its event and qualifier from the next cycle. -/
  | counterSelect (f : Frame)
  /-- COUNTER_WRAP (R464). A counter passes 2^48 − 1, wraps to 0 and sets its overflow bit. -/
  | counterWrap (level : Nat) (unit : Nat) (ctr : Nat)
  /-- TAG_SEED (R469). Write of TAG_SEED that resets every core's tag state. -/
  | tagSeed (f : Frame)
  /-- REQUEST_DEFERRED (R60). A request that the Prisum controller has not completed within 10 ms of taking it is answered DEFERRED. -/
  | requestDeferred (session : Nat) (seq : Nat)
  /-- RELAY_REMOTE_CLOSE (R204). A close from the remote end of a Relay link arrives, and the link enters DOWN. -/
  | relayRemoteClose (link : Nat)
  /-- RATE_RECOVERY (R320). Every 55 µs without congestion notifications, a queue pair's send rate recovers by 1/16 of the line rate. -/
  | rateRecovery (port : Nat) (qp : Nat)
  /-- TORUS_TRAINING_STEP_DONE (R360). Equalisation, the PRBS lane test with its pass-mask exchange, or codeword lock of a torus or host port completes, and training moves to its next step. -/
  | torusTrainingStepDone (port : Nat) (localMask : Nat) (remoteMask : Nat)
  /-- DIE_LINK_TEST_DONE (R400). The module test and lane repair of one end of a die link complete, and that end forms and sends its claim. -/
  | dieLinkTestDone (link : Nat) (endB : Bool) (mask : Nat) (repaired : Nat)
  /-- HOST_LINK_UP (R378). Port H finishes optical training and data link initialisation with the host, and the host link enters UP at the width of Table 14.10. -/
  | hostLinkUp (h : HostTrained)
  /-- HOLD_BASE_RESTORE (R362). A port that has stayed UP without interruption for HOLD_MAX returns HOLD_NEXT to HOLD_BASE. -/
  | holdBaseRestore (port : Nat)
  /-- GLITCH_FILTERED (R456). A service input pulse of 1 to 9 samples is removed by the glitch filter and counted in GLITCHES_FILTERED. -/
  | glitchFiltered (pin : Nat)
  /-- BOOT_SEL_ACCEPTED (R456). BOOT_SEL_A or BOOT_SEL_B takes a new accepted level after 10 µs of unbroken samples, shown in INPUT_LEVELS. -/
  | bootSelAccepted (pin : Nat) (level : Bool)
  /-- PWR_EN_REJECTED (R458). A filtered PWR_EN change within 1 ms of the last accepted level is not accepted and is counted in PWR_EN_REJECTED. -/
  | pwrEnRejected
  /-- RAILS_OUT_OF_REGULATION (R439). The intermediate rails leave regulation, and PG_OUT is pulled low. -/
  | railsOutOfRegulation
  /-- INGEST_LINK_CHANGE (R319). An ingest port's 800GBASE-DR4 link comes up or goes down, changing INGEST_LINK_STATE. -/
  | ingestLinkChange (port : Nat) (up : Bool)
  /-- TALLY_LINK_CHANGE (R383). The Tally port's 25GBASE-LR link comes up or goes down, changing TALLY_LINK_STATE. -/
  | tallyLinkChange (up : Bool)
deriving DecidableEq, Repr

end Sys2Proof
end

