-- ==== Sys2Proof/Decode.lean ====
section
/-! DEFINITION. The command a word spells by the bits of spec/opcode_table.json. No row of that table has bits (every
row's "fields" is empty and none has a fixed part): commands reach the block as frames, messages and events. -/

namespace Sys2Proof

/-- The command that `nbits` bits `w` spell: none, since no row gives bits. -/
def decodeTableWord (_nbits _w : Nat) : Option Instr := none

end Sys2Proof
end

