-- ==== Sys2Proof/Config.lean ====
section
/-! DEFINITION. What the manual leaves open: the free values. Each is a constant without a body, so no proof can
see what it is and a claim holds whatever it is. A meaning applies it to the counter `fresh` of State, which it
then advances, or to the operands the value depends on. -/

namespace Sys2Proof

/-- The n-th open number of a run (log entry 4, DESIGN CHOICE): the content of a vendor diagnostic (R46), and every number the
manual calls unspecified or gives no value for. -/
opaque Config.freeNat (n : Nat) : Nat

/-- Whether recompute selects an MM (R416 states the rate and a function of the hardware's own choosing for it):
of the run's n-th decision, for RECOMPUTE_N (log entry 4, DESIGN CHOICE). -/
opaque Config.freeSelect (n : Nat) (recomputeN : Nat) : Bool

/-- What a counter reads that has been counted past the largest value of its type (the manual states wrapping for
the counters of chapter 18 only, R464): of the object, the width and the exact count (log entry 9, DESIGN CHOICE). -/
opaque Config.freeCount (key : Nat) (bits : Nat) (count : Nat) : Nat

/-- What the host reads in its management window where Table 3.7 names no content: an empty slot, the rest of a slot beyond its frame, a
part that only the host writes (R56): of the offset (log entry 4, DESIGN CHOICE). -/
opaque Config.freeByte (offset : Nat) : BitVec 8

/-- The clock identity in the IEEE 1588 messages of a package, which the manual does not give (log entry 4, DESIGN CHOICE). -/
opaque Config.clockIdentity (package : Nat) : Nat

/-- The character that a code of G2 or G3 stands for to which CTA-708 assigns none: of the code (log entry 10, PRESUMED). -/
opaque Config.freeCaption (code : Nat) : Nat

end Sys2Proof
end

