-- ==== Sys2Proof/Machine/Map.lean ====
section
/-! DEFINITION. The operations of the sparse table `Map`: reading a key, writing a key and keeping the one canonical
form (keys strictly rising, no entry equal to what an unlisted key reads as). Every memory and register store of
the model is read and written through these. -/

namespace Sys2Proof

/-- What key `k` reads as in a list of entries: the listed value, else `d`. -/
def Map.find {α : Type} (d : α) (k : Nat) : List (Nat × α) → α
  | [] => d
  | (k', v) :: r => if k' = k then v else Map.find d k r

/-- A list of entries with key `k` given value `v`, where an unlisted `k` reads as `d`. -/
def Map.put {α : Type} [DecidableEq α] (d : α) (k : Nat) (v : α) : List (Nat × α) → List (Nat × α)
  | [] => if v = d then [] else [(k, v)]
  | (k', v') :: r =>
    if k < k' then (if v = d then (k', v') :: r else (k, v) :: (k', v') :: r)
    else if k = k' then (if v = d then r else (k, v) :: r)
    else (k', v') :: Map.put d k v r

/-- The value at key `k`; `d` is what an unlisted key reads as. -/
def Map.get {α : Type} (m : Map α) (d : α) (k : Nat) : α := Map.find d k m.entries

/-- The table with `v` at key `k`, in canonical form. -/
def Map.set {α : Type} [DecidableEq α] (m : Map α) (d : α) (k : Nat) (v : α) : Map α :=
  ⟨Map.put d k v m.entries⟩

/-- The table with only the keys that `p` keeps. -/
def Map.keep {α : Type} (m : Map α) (p : Nat → Bool) : Map α := ⟨m.entries.filter (fun e => p e.1)⟩

/-- The table with every listed value changed by `f`, which leaves what an unlisted key reads as. -/
def Map.change {α : Type} (m : Map α) (f : α → α) : Map α := ⟨m.entries.map (fun e => (e.1, f e.2))⟩

/-- Keys strictly rising, all above `b`. -/
def Map.rising {α : Type} : Nat → List (Nat × α) → Bool
  | _, [] => true
  | b, (k, _) :: r => decide (b ≤ k) && Map.rising (k + 1) r

/-- The canonical form: keys strictly rising and no listed value equal to what the key reads as unlisted. -/
def Map.wf {α : Type} [DecidableEq α] (m : Map α) (d : Nat → α) : Bool :=
  Map.rising 0 m.entries && m.entries.all (fun e => decide (e.2 ≠ d e.1))

/-- The `n` bytes at `a`, in ascending address. -/
def Map.bytes (m : Map Byte) (d : Byte) (a : Nat) : Nat → Bytes
  | 0 => []
  | n + 1 => m.get d a :: Map.bytes m d (a + 1) n

/-- The entries of `bs` at the addresses from `a` upward, without those that an unlisted address reads as. -/
def Map.listBytes (d : Byte) (a : Nat) : Bytes → List (Nat × Byte)
  | [] => []
  | b :: bs => if b = d then Map.listBytes d (a + 1) bs else (a, b) :: Map.listBytes d (a + 1) bs

/-- The memory with `bs` written from address `a` upward. -/
def Map.setBytes (m : Map Byte) (d : Byte) (a : Nat) (bs : Bytes) : Map Byte :=
  ⟨m.entries.filter (fun e => decide (e.1 < a)) ++ Map.listBytes d a bs
    ++ m.entries.filter (fun e => decide (a + bs.length ≤ e.1))⟩

/-- The memory with the first `n` bytes of another in place of those from address `a` upward; both read alike where unlisted. -/
def Map.setRange (m : Map Byte) (a n : Nat) (v : Map Byte) : Map Byte :=
  ⟨m.entries.filter (fun e => decide (e.1 < a)) ++ (v.entries.filter (fun e => decide (e.1 < n))).map (fun e => (a + e.1, e.2))
    ++ m.entries.filter (fun e => decide (a + n ≤ e.1))⟩

/-- The number whose little-endian bytes these are (R47). -/
def leNat : Bytes → Nat
  | [] => 0
  | b :: bs => b.toNat + 256 * leNat bs

/-- The `n` little-endian bytes of a number, modulo 2^(8n) (R47). -/
def natLe : Nat → Nat → Bytes
  | 0, _ => []
  | n + 1, v => BitVec.ofNat 8 v :: natLe n (v / 256)

/-- The field of a number that starts at bit `lo` and is `w` bits wide. -/
def field (v lo w : Nat) : Nat := v / 2 ^ lo % 2 ^ w

/-- The field of bytes `lo` to `lo + n - 1` of a record, little-endian (R47). -/
def byteField (bs : Bytes) (lo n : Nat) : Nat := leNat ((bs.drop lo).take n)

/-- A number as `n` bytes, the most significant first. -/
def natBe (n v : Nat) : Bytes := (natLe n v).reverse

/-- The field of bytes `lo` to `lo + n - 1` of a record, the most significant first. -/
def beField (bs : Bytes) (lo n : Nat) : Nat := leNat ((bs.drop lo).take n).reverse

/-- The `n` numbers from `a` upward. -/
def natsFrom (a : Nat) : Nat → List Nat
  | 0 => []
  | n + 1 => a :: natsFrom (a + 1) n

/-- Keep the first of equal elements. -/
def distinct : List Nat → List Nat
  | [] => []
  | a :: r => a :: (distinct r).filter (fun b => decide (b ≠ a))

/-- `v` rounded up to a multiple of `m`. -/
def roundUp (v m : Nat) : Nat := (v + m - 1) / m * m

/-- The list with its `n`-th element (if it has one) replaced by what `f` makes of it. -/
def modNth {α : Type} (f : α → α) : Nat → List α → List α
  | _, [] => []
  | 0, a :: r => f a :: r
  | n + 1, a :: r => a :: modNth f n r

/-- The last `n` elements of a list. -/
def takeLast {α : Type} (n : Nat) (l : List α) : List α := l.drop (l.length - n)

/-- How many of the lowest `n` bits of a mask are set. -/
def laneCount (mask n : Nat) : Nat := ((natsFrom 0 n).map (fun i => field mask i 1)).sum

end Sys2Proof
end

