-- ==== Sys2Proof/Machine/Crc.lean ====
section
/-! DEFINITION. CRC-32C with the parameters of R406: the check of frames, blocks, records, messages and images. -/

namespace Sys2Proof

/-- One bit of the reflected CRC-32C division (polynomial 0x1EDC_6F41, reflected 0x82F6_3B78). -/
def crcBit (c : BitVec 32) : BitVec 32 :=
  if c &&& 1#32 = 1#32 then (c >>> 1) ^^^ 0x82F63B78#32 else c >>> 1

/-- One byte of the CRC-32C division. -/
def crcByte (c : BitVec 32) (b : Byte) : BitVec 32 :=
  crcBit (crcBit (crcBit (crcBit (crcBit (crcBit (crcBit (crcBit (c ^^^ b.setWidth 32))))))))

/-- The CRC-32C of a run of bytes: register preset to ones, result inverted (R406). -/
def crc32c (bs : Bytes) : W32 := ~~~ bs.foldl crcByte 0xFFFFFFFF#32

end Sys2Proof
end

