-- ==== Sys2Proof/Machine/Objects.lean ====
section
/-! DEFINITION. The object dictionary's own shape (R45-R49): the address of every object of the manual's object
tables as a key (index × 256 + subindex), its type, access kind, range and default. Built row by row from those tables. -/

namespace Sys2Proof.Machine

/-- The types of Table 3.2 that values have. -/
inductive OType where
  | bool | u8 | u16 | u32 | u64 | i32 | i64 | f32 | vstr | dom
deriving DecidableEq, Repr

/-- The access kinds of Table 3.3. -/
inductive Acc where
  | const | ro | rw | wo | rws
deriving DecidableEq, Repr

/-- The range a written value must lie in, as the object's row states it. -/
inductive Rule where
  /-- Every value of the type. -/
  | any
  /-- From `lo` to `hi`. -/
  | range (lo hi : Nat)
  /-- Up to `hi`, or the one value `x`. -/
  | rangeOr (hi x : Nat)
  /-- 0, or from `lo` to `hi`. -/
  | zeroOr (lo hi : Nat)
  /-- One of the listed values. -/
  | oneOf (l : List Nat)
  /-- A multiple of `m`. -/
  | multiple (m : Nat)
  /-- 0, or a power of two from `lo` to `hi`. -/
  | powerOr0 (lo hi : Nat)
  /-- A counter: 0 clears it, nothing else is accepted. -/
  | clear
  /-- A finite F32. -/
  | finite
  /-- A finite F32 of at least 0. -/
  | finNonneg
  /-- A finite F32 above 0. -/
  | finPositive
  /-- A finite F32 other than 0. -/
  | finNonzero
  /-- An F32 in [0, 1). -/
  | unitInterval
deriving DecidableEq, Repr

/-- One row of an object table: `count` indexes from `base` in steps of `stride`, subindexes `lo` to `hi`. -/
structure ObjRow where
  base   : Nat
  count  : Nat
  stride : Nat
  lo     : Nat
  hi     : Nat
  type   : OType
  acc    : Acc
  rule   : Rule
deriving DecidableEq, Repr

namespace O

/-- 0x1000:01 VENDOR_NAME (R8). -/
def vendorName : Nat := 0x1000 * 256 + 0x01
/-- 0x1000:02 DEVICE_NAME (R8). -/
def deviceName : Nat := 0x1000 * 256 + 0x02
/-- 0x1000:03 PACKAGE_SERIAL (R8). -/
def packageSerial : Nat := 0x1000 * 256 + 0x03
/-- 0x1000:04 COMPUTE_STEPPING (R8). -/
def computeStepping : Nat := 0x1000 * 256 + 0x04
/-- 0x1000:05 IOD_STEPPING (R8). -/
def iodStepping : Nat := 0x1000 * 256 + 0x05
/-- 0x1000:06 GENERATION (R8). -/
def generation : Nat := 0x1000 * 256 + 0x06
/-- 0x1000:07 MANUAL_ISSUE (R8). -/
def manualIssue : Nat := 0x1000 * 256 + 0x07
/-- 0x1000:08 FIRMWARE_VERSION (R8). -/
def firmwareVersion : Nat := 0x1000 * 256 + 0x08
/-- 0x1100:01 CUT_LIST_FORMAT (R30). -/
def cutListFormat : Nat := 0x1100 * 256 + 0x01
/-- 0x1100:02 CUT_LIST_STATE (R30). -/
def cutListState : Nat := 0x1100 * 256 + 0x02
/-- 0x1100:03 CUT_LIST_DIGEST (R30). -/
def cutListDigest : Nat := 0x1100 * 256 + 0x03
/-- 0x1100:04 CUT_LIST_REVISION (R30). -/
def cutListRevision : Nat := 0x1100 * 256 + 0x04
/-- 0x1102:01–57 ENTRY (R30). -/
def entry (i : Nat) : Nat := 0x1102 * 256 + (0x01 + i)
/-- 0x1108+d:02 DIE_CODE (R32). -/
def dieCode (d : Nat) : Nat := (0x1108 + d) * 256 + 0x02
/-- 0x1108+d:03 DIE_STEPPING (R32). -/
def dieStepping (d : Nat) : Nat := (0x1108 + d) * 256 + 0x03
/-- 0x1108+d:04 CAPABILITY_MASK (R32). -/
def capabilityMask (d : Nat) : Nat := (0x1108 + d) * 256 + 0x04
/-- 0x1108+d:05 DIE_STATE (R32). -/
def dieState (d : Nat) : Nat := (0x1108 + d) * 256 + 0x05
/-- 0x1108+d:06 SPARE_PHYSICAL_BENT (R32). -/
def sparePhysicalBent (d : Nat) : Nat := (0x1108 + d) * 256 + 0x06
/-- 0x1110:02 EFFECTIVE_MASK (R32). -/
def effectiveMask : Nat := 0x1110 * 256 + 0x02
/-- 0x1120+b:02 LOGICAL_BENT (R32). -/
def logicalBent (b : Nat) : Nat := (0x1120 + b) * 256 + 0x02
/-- 0x1120+b:03 BENT_DIE (R32). -/
def bentDie (b : Nat) : Nat := (0x1120 + b) * 256 + 0x03
/-- 0x1120+b:04 PHYSICAL_BENT (R32). -/
def physicalBent (b : Nat) : Nat := (0x1120 + b) * 256 + 0x04
/-- 0x1120+b:05 FIRST_CORE (R32). -/
def firstCore (b : Nat) : Nat := (0x1120 + b) * 256 + 0x05
/-- 0x1120+b:06 BENT_STATE (R32). -/
def bentState (b : Nat) : Nat := (0x1120 + b) * 256 + 0x06
/-- 0x1150+k:02 STACK (R32). -/
def stack (k : Nat) : Nat := (0x1150 + k) * 256 + 0x02
/-- 0x1150+k:03 STACK_DIE (R32). -/
def stackDie (k : Nat) : Nat := (0x1150 + k) * 256 + 0x03
/-- 0x1150+k:04 STACK_CONTROLLER (R32). -/
def stackController (k : Nat) : Nat := (0x1150 + k) * 256 + 0x04
/-- 0x1150+k:05 RAW_CAPACITY (R32). -/
def rawCapacity (k : Nat) : Nat := (0x1150 + k) * 256 + 0x05
/-- 0x1150+k:06 PAGE_FRAMES (R32). -/
def pageFrames (k : Nat) : Nat := (0x1150 + k) * 256 + 0x06
/-- 0x1150+k:07 STACK_STATE (R32). -/
def stackState (k : Nat) : Nat := (0x1150 + k) * 256 + 0x07
/-- 0x1160+n:02 LINK (R36). -/
def link (n : Nat) : Nat := (0x1160 + n) * 256 + 0x02
/-- 0x1160+n:03 END_A (R36). -/
def endA (n : Nat) : Nat := (0x1160 + n) * 256 + 0x03
/-- 0x1160+n:04 END_B (R36). -/
def endB (n : Nat) : Nat := (0x1160 + n) * 256 + 0x04
/-- 0x1160+n:05 LINK_MEDIUM (R36). -/
def linkMedium (n : Nat) : Nat := (0x1160 + n) * 256 + 0x05
/-- 0x1160+n:06 LINK_WIDTH (R36). -/
def linkWidth (n : Nat) : Nat := (0x1160 + n) * 256 + 0x06
/-- 0x1160+n:07 LINK_STATE (R36). -/
def linkState (n : Nat) : Nat := (0x1160 + n) * 256 + 0x07
/-- 0x1170+n:02 PORT (R36). -/
def port (n : Nat) : Nat := (0x1170 + n) * 256 + 0x02
/-- 0x1170+n:03 PORT_LANES (R36). -/
def portLanes (n : Nat) : Nat := (0x1170 + n) * 256 + 0x03
/-- 0x1170+n:04 PORT_FIBRES (R36). -/
def portFibres (n : Nat) : Nat := (0x1170 + n) * 256 + 0x04
/-- 0x1170+n:05 LANES_PASSING (R36). -/
def lanesPassing (n : Nat) : Nat := (0x1170 + n) * 256 + 0x05
/-- 0x1170+n:06 PORT_STATE (R36). -/
def portState (n : Nat) : Nat := (0x1170 + n) * 256 + 0x06
/-- 0x1180:02 DECODE_CLUSTERS (R36). -/
def decodeClusters : Nat := 0x1180 * 256 + 0x02
/-- 0x1180:03 DECODE_ENGINES (R36). -/
def decodeEngines : Nat := 0x1180 * 256 + 0x03
/-- 0x1180:04 AUDIO_DECODERS (R36). -/
def audioDecoders : Nat := 0x1180 * 256 + 0x04
/-- 0x1180:05 CAPTION_EXTRACTORS (R36). -/
def captionExtractors : Nat := 0x1180 * 256 + 0x05
/-- 0x1180:06 SHUFFLE_ENGINES (R36). -/
def shuffleEngines : Nat := 0x1180 * 256 + 0x06
/-- 0x1200:01 TALLY_MAC (R65). -/
def tallyMac : Nat := 0x1200 * 256 + 0x01
/-- 0x1200:02 TALLY_ETHERTYPE (R65). -/
def tallyEthertype : Nat := 0x1200 * 256 + 0x02
/-- 0x1200:03 TALLY_VLAN (R65). -/
def tallyVlan : Nat := 0x1200 * 256 + 0x03
/-- 0x1200:04 TALLY_PRIORITY (R65). -/
def tallyPriority : Nat := 0x1200 * 256 + 0x04
/-- 0x1201:01 FRAMES_RECEIVED (R65). -/
def framesReceived : Nat := 0x1201 * 256 + 0x01
/-- 0x1201:02 FRAMES_SENT (R65). -/
def framesSent : Nat := 0x1201 * 256 + 0x02
/-- 0x1201:03 CHECK_ERRORS (R65). -/
def checkErrors : Nat := 0x1201 * 256 + 0x03
/-- 0x1201:04 VERSION_ERRORS (R65). -/
def versionErrors : Nat := 0x1201 * 256 + 0x04
/-- 0x1201:05 EVENTS_DROPPED (R65). -/
def eventsDropped : Nat := 0x1201 * 256 + 0x05
/-- 0x1202:01 SESSIONS_OPEN (R65). -/
def sessionsOpen : Nat := 0x1202 * 256 + 0x01
/-- 0x1202:02 SESSION_IDLE_LIMIT (R65). -/
def sessionIdleLimit : Nat := 0x1202 * 256 + 0x02
/-- 0x1203:01 FRAME_TRACE (R65). -/
def frameTrace : Nat := 0x1203 * 256 + 0x01
/-- 0x1300:01 MGMT_WINDOW_BAR (R65). -/
def mgmtWindowBar : Nat := 0x1300 * 256 + 0x01
/-- 0x1300:02 MGMT_WINDOW_OFFSET (R65). -/
def mgmtWindowOffset : Nat := 0x1300 * 256 + 0x02
/-- 0x1300:03 MGMT_WINDOW_SIZE (R65). -/
def mgmtWindowSize : Nat := 0x1300 * 256 + 0x03
/-- 0x1400:01 LEVEL_MAX_TALLY (R65). -/
def levelMaxTally : Nat := 0x1400 * 256 + 0x01
/-- 0x1400:02 LEVEL_MAX_HOST (R65). -/
def levelMaxHost : Nat := 0x1400 * 256 + 0x02
/-- 0x1400:03 LEVEL_MAX_TORUS (R65). -/
def levelMaxTorus : Nat := 0x1400 * 256 + 0x03
/-- 0x1401:01 SERVICE_KEY_ID (R65). -/
def serviceKeyId : Nat := 0x1401 * 256 + 0x01
/-- 0x1401:02 SERVICE_NONCE (R65). -/
def serviceNonce : Nat := 0x1401 * 256 + 0x02
/-- 0x1401:03 SERVICE_FAILURES (R65). -/
def serviceFailures : Nat := 0x1401 * 256 + 0x03
/-- 0x1401:04 SERVICE_PUBLIC_KEY (R65). -/
def servicePublicKey : Nat := 0x1401 * 256 + 0x04
/-- 0x1402:01 RESTORE_STORED (R65). -/
def restoreStored : Nat := 0x1402 * 256 + 0x01
/-- B+0x00:01–40 CORE_STATE (R118). -/
def coreState (b i : Nat) : Nat := (0x3000 + 0x40 * b) * 256 + (0x01 + i)
/-- B+0x01:01–40 CORE_CONTROL (R118). -/
def coreControl (b i : Nat) : Nat := (0x3001 + 0x40 * b) * 256 + (0x01 + i)
/-- B+0x02:01–40 CORE_ENTRY (R118). -/
def coreEntry (b i : Nat) : Nat := (0x3002 + 0x40 * b) * 256 + (0x01 + i)
/-- B+0x03:01–40 CORE_DPTR (R118). -/
def coreDptr (b i : Nat) : Nat := (0x3003 + 0x40 * b) * 256 + (0x01 + i)
/-- B+0x04:01–40 CORE_FAULT (R118). -/
def coreFault (b i : Nat) : Nat := (0x3004 + 0x40 * b) * 256 + (0x01 + i)
/-- B+0x05:01–40 CORE_HALT_CODE (R118). -/
def coreHaltCode (b i : Nat) : Nat := (0x3005 + 0x40 * b) * 256 + (0x01 + i)
/-- B+0x06:01–40 CORE_FLAGS (R118). -/
def coreFlags (b i : Nat) : Nat := (0x3006 + 0x40 * b) * 256 + (0x01 + i)
/-- B+0x07:01–40 CORE_FP_STATUS (R118). -/
def coreFpStatus (b i : Nat) : Nat := (0x3007 + 0x40 * b) * 256 + (0x01 + i)
/-- B+0x08:01–40 CORE_RETIRED (R118). -/
def coreRetired (b i : Nat) : Nat := (0x3008 + 0x40 * b) * 256 + (0x01 + i)
/-- B+0x09:01–40 CORE_SIGNALS_LOST (R118). -/
def coreSignalsLost (b i : Nat) : Nat := (0x3009 + 0x40 * b) * 256 + (0x01 + i)
/-- B+0x0A:01–40 CORE_MEMORY (R118). -/
def coreMemory (b i : Nat) : Nat := (0x300A + 0x40 * b) * 256 + (0x01 + i)
/-- B+0x0B:01 WD_LIMIT (R118). -/
def wdLimit (b : Nat) : Nat := (0x300B + 0x40 * b) * 256 + 0x01
/-- B+0x0B:02 WD_EXPIRIES (R118). -/
def wdExpiries (b : Nat) : Nat := (0x300B + 0x40 * b) * 256 + 0x02
/-- B+0x10:01–40 MX_TILE0_STATUS (R144). -/
def mxTile0Status (b i : Nat) : Nat := (0x3010 + 0x40 * b) * 256 + (0x01 + i)
/-- B+0x11:01–40 MX_TILE1_STATUS (R144). -/
def mxTile1Status (b i : Nat) : Nat := (0x3011 + 0x40 * b) * 256 + (0x01 + i)
/-- B+0x12:01–40 MX_TILE2_STATUS (R144). -/
def mxTile2Status (b i : Nat) : Nat := (0x3012 + 0x40 * b) * 256 + (0x01 + i)
/-- B+0x13:01–40 MX_TILE3_STATUS (R144). -/
def mxTile3Status (b i : Nat) : Nat := (0x3013 + 0x40 * b) * 256 + (0x01 + i)
/-- B+0x14:01–40 MX_RANGE_LOW (R144). -/
def mxRangeLow (b i : Nat) : Nat := (0x3014 + 0x40 * b) * 256 + (0x01 + i)
/-- B+0x15:01–40 MX_RETRIES (R144). -/
def mxRetries (b i : Nat) : Nat := (0x3015 + 0x40 * b) * 256 + (0x01 + i)
/-- B+0x16:01–40 MX_SATURATED (R144). -/
def mxSaturated (b i : Nat) : Nat := (0x3016 + 0x40 * b) * 256 + (0x01 + i)
/-- B+0x17:01–40 MX_CHAIN_FULL (R144). -/
def mxChainFull (b i : Nat) : Nat := (0x3017 + 0x40 * b) * 256 + (0x01 + i)
/-- B+0x18:01–40 VX_RNG_STREAM (R168). -/
def vxRngStream (b i : Nat) : Nat := (0x3018 + 0x40 * b) * 256 + (0x01 + i)
/-- B+0x19:01–40 VX_RNG_TENSOR (R168). -/
def vxRngTensor (b i : Nat) : Nat := (0x3019 + 0x40 * b) * 256 + (0x01 + i)
/-- B+0x1A:01–40 VX_RNG_STEP (R168). -/
def vxRngStep (b i : Nat) : Nat := (0x301A + 0x40 * b) * 256 + (0x01 + i)
/-- B+0x1B:01–40 VX_RNG_MICRO_BATCH (R168). -/
def vxRngMicroBatch (b i : Nat) : Nat := (0x301B + 0x40 * b) * 256 + (0x01 + i)
/-- B+0x1C:01–40 VX_RNG_ELEM_BASE (R168). -/
def vxRngElemBase (b i : Nat) : Nat := (0x301C + 0x40 * b) * 256 + (0x01 + i)
/-- B+0x1D:01 RNG_SEED (R168). -/
def rngSeed (b : Nat) : Nat := (0x301D + 0x40 * b) * 256 + 0x01
/-- B+0x1E:01–40 VX_ROWS_EMPTY (R168). -/
def vxRowsEmpty (b i : Nat) : Nat := (0x301E + 0x40 * b) * 256 + (0x01 + i)
/-- B+0x1F:01–40 VX_ROWS_NAN (R168). -/
def vxRowsNan (b i : Nat) : Nat := (0x301F + 0x40 * b) * 256 + (0x01 + i)
/-- B+0x20:01–40 QUEUE_CONFIG (R196). -/
def queueConfig (b i : Nat) : Nat := (0x3020 + 0x40 * b) * 256 + (0x01 + i)
/-- B+0x21:01–40 QUEUE_CONTROL (R196). -/
def queueControl (b i : Nat) : Nat := (0x3021 + 0x40 * b) * 256 + (0x01 + i)
/-- B+0x22:01–40 QUEUE_STATE (R196). -/
def queueState (b i : Nat) : Nat := (0x3022 + 0x40 * b) * 256 + (0x01 + i)
/-- B+0x23:01–40 QUEUE_GEN (R196). -/
def queueGen (b i : Nat) : Nat := (0x3023 + 0x40 * b) * 256 + (0x01 + i)
/-- B+0x24:01–40 QUEUE_OCCUPANCY (R196). -/
def queueOccupancy (b i : Nat) : Nat := (0x3024 + 0x40 * b) * 256 + (0x01 + i)
/-- B+0x25:01–40 QUEUE_HEAD (R196). -/
def queueHead (b i : Nat) : Nat := (0x3025 + 0x40 * b) * 256 + (0x01 + i)
/-- B+0x26:01–40 QUEUE_ROUND_SLOTS (R196). -/
def queueRoundSlots (b i : Nat) : Nat := (0x3026 + 0x40 * b) * 256 + (0x01 + i)
/-- B+0x27:01–40 QUEUE_DROPPED (R196). -/
def queueDropped (b i : Nat) : Nat := (0x3027 + 0x40 * b) * 256 + (0x01 + i)
/-- B+0x28:01–40 ENDPOINT_TABLE (R196). -/
def endpointTable (b i : Nat) : Nat := (0x3028 + 0x40 * b) * 256 + (0x01 + i)
/-- B+0x29:01 CH_WAIT_LIMIT (R196). -/
def chWaitLimit (b : Nat) : Nat := (0x3029 + 0x40 * b) * 256 + 0x01
/-- B+0x2A:01 WAIT_CORE (R196). -/
def waitCore (b : Nat) : Nat := (0x302A + 0x40 * b) * 256 + 0x01
/-- B+0x2A:02 WAIT_KIND (R196). -/
def waitKind (b : Nat) : Nat := (0x302A + 0x40 * b) * 256 + 0x02
/-- B+0x2A:03 WAIT_QUEUE (R196). -/
def waitQueue (b : Nat) : Nat := (0x302A + 0x40 * b) * 256 + 0x03
/-- B+0x2A:04 PEER_CORE (R196). -/
def peerCore (b : Nat) : Nat := (0x302A + 0x40 * b) * 256 + 0x04
/-- B+0x2A:05 PEER_STATE (R196). -/
def peerState (b : Nat) : Nat := (0x302A + 0x40 * b) * 256 + 0x05
/-- B+0x2A:06 PEER_WAIT_QUEUE (R196). -/
def peerWaitQueue (b : Nat) : Nat := (0x302A + 0x40 * b) * 256 + 0x06
/-- B+0x2B:01 CH_SENT (R196). -/
def chSent (b : Nat) : Nat := (0x302B + 0x40 * b) * 256 + 0x01
/-- B+0x2B:02 CH_RECEIVED (R196). -/
def chReceived (b : Nat) : Nat := (0x302B + 0x40 * b) * 256 + 0x02
/-- B+0x2B:03 CH_REFUSED_STALE (R196). -/
def chRefusedStale (b : Nat) : Nat := (0x302B + 0x40 * b) * 256 + 0x03
/-- B+0x2B:04 CH_REFUSED_CLOSED (R196). -/
def chRefusedClosed (b : Nat) : Nat := (0x302B + 0x40 * b) * 256 + 0x04
/-- B+0x2B:05 CH_WAIT_EXPIRIES (R196). -/
def chWaitExpiries (b : Nat) : Nat := (0x302B + 0x40 * b) * 256 + 0x05
/-- B+0x2B:06 CH_CYCLE_OVERRIDDEN (R196). -/
def chCycleOverridden (b : Nat) : Nat := (0x302B + 0x40 * b) * 256 + 0x06
/-- B+0x2C:01 CH_CYCLE_OVERRIDE (R196). -/
def chCycleOverride (b : Nat) : Nat := (0x302C + 0x40 * b) * 256 + 0x01
/-- 0x4040:01 PIPE_MAX_TOKENS (R229). -/
def pipeMaxTokens : Nat := 0x4040 * 256 + 0x01
/-- 0x4040:02 RET_LANE_DEPTH (R229). -/
def retLaneDepth : Nat := 0x4040 * 256 + 0x02
/-- 0x4040:03 RET_LANE_PAGES (R229). -/
def retLanePages : Nat := 0x4040 * 256 + 0x03
/-- 0x4040:04 RET_TOKEN_BYTES (R229). -/
def retTokenBytes : Nat := 0x4040 * 256 + 0x04
/-- 0x4000+s:01 STAGE_STATE (R229). -/
def stageState (s : Nat) : Nat := (0x4000 + s) * 256 + 0x01
/-- 0x4000+s:02 STAGE_CONTROL (R229). -/
def stageControl (s : Nat) : Nat := (0x4000 + s) * 256 + 0x02
/-- 0x4000+s:03 JOB_STAGE (R229). -/
def jobStage (s : Nat) : Nat := (0x4000 + s) * 256 + 0x03
/-- 0x4000+s:04 JOB_STAGES (R229). -/
def jobStages (s : Nat) : Nat := (0x4000 + s) * 256 + 0x04
/-- 0x4000+s:05 FIRST_BENT (R229). -/
def firstBent (s : Nat) : Nat := (0x4000 + s) * 256 + 0x05
/-- 0x4000+s:06 BENT_COUNT (R229). -/
def bentCount (s : Nat) : Nat := (0x4000 + s) * 256 + 0x06
/-- 0x4000+s:07 SEQ_SHARE (R229). -/
def seqShare (s : Nat) : Nat := (0x4000 + s) * 256 + 0x07
/-- 0x4000+s:08 SEQ_SLICE (R229). -/
def seqSlice (s : Nat) : Nat := (0x4000 + s) * 256 + 0x08
/-- 0x4000+s:09 REPLICA (R229). -/
def replica (s : Nat) : Nat := (0x4000 + s) * 256 + 0x09
/-- 0x4000+s:0A F_ENTRY (R229). -/
def fEntry (s : Nat) : Nat := (0x4000 + s) * 256 + 0x0A
/-- 0x4000+s:0B B_ENTRY (R229). -/
def bEntry (s : Nat) : Nat := (0x4000 + s) * 256 + 0x0B
/-- 0x4000+s:0C W_ENTRY (R229). -/
def wEntry (s : Nat) : Nat := (0x4000 + s) * 256 + 0x0C
/-- 0x4000+s:0D IN_FLIGHT_MAX (R229). -/
def inFlightMax (s : Nat) : Nat := (0x4000 + s) * 256 + 0x0D
/-- 0x4000+s:0E W_MODE (R229). -/
def wMode (s : Nat) : Nat := (0x4000 + s) * 256 + 0x0E
/-- 0x4000+s:0F W_PENDING_MAX (R229). -/
def wPendingMax (s : Nat) : Nat := (0x4000 + s) * 256 + 0x0F
/-- 0x4000+s:10 MICRO_BATCHES (R229). -/
def microBatches (s : Nat) : Nat := (0x4000 + s) * 256 + 0x10
/-- 0x4000+s:11 IN_LANE (R229). -/
def inLane (s : Nat) : Nat := (0x4000 + s) * 256 + 0x11
/-- 0x4000+s:12 OUT_LANE (R229). -/
def outLane (s : Nat) : Nat := (0x4000 + s) * 256 + 0x12
/-- 0x4000+s:13 RET_IN_LANE (R229). -/
def retInLane (s : Nat) : Nat := (0x4000 + s) * 256 + 0x13
/-- 0x4000+s:14 RET_OUT_LANE (R229). -/
def retOutLane (s : Nat) : Nat := (0x4000 + s) * 256 + 0x14
/-- 0x4000+s:15 STASH_BYTES_PER_TOKEN (R229). -/
def stashBytesPerToken (s : Nat) : Nat := (0x4000 + s) * 256 + 0x15
/-- 0x4000+s:16 STASH_ALLOT_PAGES (R229). -/
def stashAllotPages (s : Nat) : Nat := (0x4000 + s) * 256 + 0x16
/-- 0x4000+s:17 RESIDENT_PAGES (R229). -/
def residentPages (s : Nat) : Nat := (0x4000 + s) * 256 + 0x17
/-- 0x4000+s:18 STAGE_TIME_BASE (R229). -/
def stageTimeBase (s : Nat) : Nat := (0x4000 + s) * 256 + 0x18
/-- 0x4000+s:19 STAGE_TIME_PER_TOKEN (R229). -/
def stageTimePerToken (s : Nat) : Nat := (0x4000 + s) * 256 + 0x19
/-- 0x4000+s:1A STASH_WORST_PAGES (R229). -/
def stashWorstPages (s : Nat) : Nat := (0x4000 + s) * 256 + 0x1A
/-- 0x4000+s:1B STAGE_STEP (R229). -/
def stageStep (s : Nat) : Nat := (0x4000 + s) * 256 + 0x1B
/-- 0x4000+s:1C STAGE_FAULT (R229). -/
def stageFault (s : Nat) : Nat := (0x4000 + s) * 256 + 0x1C
/-- 0x4000+s:1D LEDGER_SLOTS (R229). -/
def ledgerSlots (s : Nat) : Nat := (0x4000 + s) * 256 + 0x1D
/-- 0x4000+s:1E LEDGER_PAGES (R229). -/
def ledgerPages (s : Nat) : Nat := (0x4000 + s) * 256 + 0x1E
/-- 0x4000+s:1F LAST_REFUSAL (R229). -/
def lastRefusal (s : Nat) : Nat := (0x4000 + s) * 256 + 0x1F
/-- 0x4000+s:20 STEP_FIRST_POSITION (R229). -/
def stepFirstPosition (s : Nat) : Nat := (0x4000 + s) * 256 + 0x20
/-- 0x4000+s:21 STEP_FIRST_EPOCH (R229). -/
def stepFirstEpoch (s : Nat) : Nat := (0x4000 + s) * 256 + 0x21
/-- 0x4010+s:01 F_DONE (R229). -/
def fDone (s : Nat) : Nat := (0x4010 + s) * 256 + 0x01
/-- 0x4010+s:02 B_DONE (R229). -/
def bDone (s : Nat) : Nat := (0x4010 + s) * 256 + 0x02
/-- 0x4010+s:03 W_DONE (R229). -/
def wDone (s : Nat) : Nat := (0x4010 + s) * 256 + 0x03
/-- 0x4010+s:04 W_IN_BUBBLE (R229). -/
def wInBubble (s : Nat) : Nat := (0x4010 + s) * 256 + 0x04
/-- 0x4010+s:05 W_FORCED (R229). -/
def wForced (s : Nat) : Nat := (0x4010 + s) * 256 + 0x05
/-- 0x4010+s:06 STARVE_US (R229). -/
def starveUs (s : Nat) : Nat := (0x4010 + s) * 256 + 0x06
/-- 0x4010+s:07 STAGE_EXPIRIES (R229). -/
def stageExpiries (s : Nat) : Nat := (0x4010 + s) * 256 + 0x07
/-- 0x4010+s:08 ADMITTED (R229). -/
def admitted (s : Nat) : Nat := (0x4010 + s) * 256 + 0x08
/-- 0x4010+s:09 ADMIT_REFUSED (R229). -/
def admitRefused (s : Nat) : Nat := (0x4010 + s) * 256 + 0x09
/-- 0x4020+s:01–40 SCHEDULE (R229). -/
def schedule (s i : Nat) : Nat := (0x4020 + s) * 256 + (0x01 + i)
/-- 0x4100+n:01 LANE_STATE (R229). -/
def laneState (n : Nat) : Nat := (0x4100 + n) * 256 + 0x01
/-- 0x4100+n:02 LANE_DEPTH (R229). -/
def laneDepth (n : Nat) : Nat := (0x4100 + n) * 256 + 0x02
/-- 0x4100+n:03 LANE_PLANE (R229). -/
def lanePlane (n : Nat) : Nat := (0x4100 + n) * 256 + 0x03
/-- 0x4100+n:04 LANE_PAGES (R229). -/
def lanePages (n : Nat) : Nat := (0x4100 + n) * 256 + 0x04
/-- 0x4100+n:05 LANE_MAX_TOKENS (R229). -/
def laneMaxTokens (n : Nat) : Nat := (0x4100 + n) * 256 + 0x05
/-- 0x4100+n:06 LANE_TOKEN_BYTES (R229). -/
def laneTokenBytes (n : Nat) : Nat := (0x4100 + n) * 256 + 0x06
/-- 0x4100+n:07 LANE_ROLE (R229). -/
def laneRole (n : Nat) : Nat := (0x4100 + n) * 256 + 0x07
/-- 0x4100+n:08 LANE_STAGE (R229). -/
def laneStage (n : Nat) : Nat := (0x4100 + n) * 256 + 0x08
/-- 0x4100+n:09 LANE_PEER_STAGE (R229). -/
def lanePeerStage (n : Nat) : Nat := (0x4100 + n) * 256 + 0x09
/-- 0x4100+n:0A LANE_RELAY (R229). -/
def laneRelay (n : Nat) : Nat := (0x4100 + n) * 256 + 0x0A
/-- 0x4100+n:0B LANE_PEER_LANE (R229). -/
def lanePeerLane (n : Nat) : Nat := (0x4100 + n) * 256 + 0x0B
/-- 0x4100+n:0C LANE_CONTROL (R229). -/
def laneControl (n : Nat) : Nat := (0x4100 + n) * 256 + 0x0C
/-- 0x4100+n:0D LANE_GEN (R229). -/
def laneGen (n : Nat) : Nat := (0x4100 + n) * 256 + 0x0D
/-- 0x4100+n:0E LANE_HELD (R229). -/
def laneHeld (n : Nat) : Nat := (0x4100 + n) * 256 + 0x0E
/-- 0x4100+n:0F LANE_CREDIT (R229). -/
def laneCredit (n : Nat) : Nat := (0x4100 + n) * 256 + 0x0F
/-- 0x4100+n:10 LANE_DROPPED (R229). -/
def laneDropped (n : Nat) : Nat := (0x4100 + n) * 256 + 0x10
/-- 0x4200+r:01 RELAY_STATE (R229). -/
def relayState (r : Nat) : Nat := (0x4200 + r) * 256 + 0x01
/-- 0x4200+r:02 RELAY_CONTROL (R229). -/
def relayControl (r : Nat) : Nat := (0x4200 + r) * 256 + 0x02
/-- 0x4200+r:03 RELAY_REMOTE (R229). -/
def relayRemote (r : Nat) : Nat := (0x4200 + r) * 256 + 0x03
/-- 0x4200+r:04 RELAY_REMOTE_LINK (R229). -/
def relayRemoteLink (r : Nat) : Nat := (0x4200 + r) * 256 + 0x04
/-- 0x4200+r:05 RELAY_DIRECTION (R229). -/
def relayDirection (r : Nat) : Nat := (0x4200 + r) * 256 + 0x05
/-- 0x4200+r:06 RELAY_GEN (R229). -/
def relayGen (r : Nat) : Nat := (0x4200 + r) * 256 + 0x06
/-- 0x4200+r:07 RELAY_BYTES_SENT (R229). -/
def relayBytesSent (r : Nat) : Nat := (0x4200 + r) * 256 + 0x07
/-- 0x4200+r:08 RELAY_BYTES_RECEIVED (R229). -/
def relayBytesReceived (r : Nat) : Nat := (0x4200 + r) * 256 + 0x08
/-- 0x4200+r:09 RELAY_DOWN_COUNT (R229). -/
def relayDownCount (r : Nat) : Nat := (0x4200 + r) * 256 + 0x09
/-- B+0x30:01 PACER_STAGE (R229). -/
def pacerStage (b : Nat) : Nat := (0x3030 + 0x40 * b) * 256 + 0x01
/-- B+0x30:02 PACER_ROLE (R229). -/
def pacerRole (b : Nat) : Nat := (0x3030 + 0x40 * b) * 256 + 0x02
/-- 0x6000:01 ALLOC_FRAMES_FREE (R261). -/
def allocFramesFree : Nat := 0x6000 * 256 + 0x01
/-- 0x6000:02 ALLOC_FRAMES_RESERVED (R261). -/
def allocFramesReserved : Nat := 0x6000 * 256 + 0x02
/-- 0x6000:03 ALLOC_REFUSALS (R261). -/
def allocRefusals : Nat := 0x6000 * 256 + 0x03
/-- 0x6001:01 ALLOC_REQUEST (R261). -/
def allocRequest : Nat := 0x6001 * 256 + 0x01
/-- 0x6010+k:01 STACK_FRAMES_FREE (R261). -/
def stackFramesFree (k : Nat) : Nat := (0x6010 + k) * 256 + 0x01
/-- 0x6010+k:02 STACK_FRAMES_RETIRED (R261). -/
def stackFramesRetired (k : Nat) : Nat := (0x6010 + k) * 256 + 0x02
/-- 0x6020+p:01 POOL_MAPPED (R261). -/
def poolMapped (p : Nat) : Nat := (0x6020 + p) * 256 + 0x01
/-- 0x6030+s:01 PM_PREFETCH (R261). -/
def pmPrefetch (s : Nat) : Nat := (0x6030 + s) * 256 + 0x01
/-- B+0x32:01 PM_RESIDENT (R261). -/
def pmResident (b : Nat) : Nat := (0x3032 + 0x40 * b) * 256 + 0x01
/-- B+0x32:02 PM_HITS (R261). -/
def pmHits (b : Nat) : Nat := (0x3032 + 0x40 * b) * 256 + 0x02
/-- B+0x32:03 PM_MISSES (R261). -/
def pmMisses (b : Nat) : Nat := (0x3032 + 0x40 * b) * 256 + 0x03
/-- B+0x32:04 PM_PREFETCHED (R261). -/
def pmPrefetched (b : Nat) : Nat := (0x3032 + 0x40 * b) * 256 + 0x04
/-- B+0x32:05 PM_EVICTED (R261). -/
def pmEvicted (b : Nat) : Nat := (0x3032 + 0x40 * b) * 256 + 0x05
/-- B+0x33:01 OPT_UPDATED (R261). -/
def optUpdated (b : Nat) : Nat := (0x3033 + 0x40 * b) * 256 + 0x01
/-- 0x6100+s:01 VS_CURRENT (R261). -/
def vsCurrent (s : Nat) : Nat := (0x6100 + s) * 256 + 0x01
/-- 0x6100+s:02 VS_PENDING (R261). -/
def vsPending (s : Nat) : Nat := (0x6100 + s) * 256 + 0x02
/-- 0x6100+s:03 VS_LIVE (R261). -/
def vsLive (s : Nat) : Nat := (0x6100 + s) * 256 + 0x03
/-- 0x6100+s:04 VS_RESERVED_VERSIONS (R261). -/
def vsReservedVersions (s : Nat) : Nat := (0x6100 + s) * 256 + 0x04
/-- 0x6100+s:05 VS_INITIAL_VERSION (R261). -/
def vsInitialVersion (s : Nat) : Nat := (0x6100 + s) * 256 + 0x05
/-- 0x6100+s:06 WEIGHT_BASE (R261). -/
def weightBase (s : Nat) : Nat := (0x6100 + s) * 256 + 0x06
/-- 0x6100+s:07 WEIGHT_PAGES (R261). -/
def weightPages (s : Nat) : Nat := (0x6100 + s) * 256 + 0x07
/-- 0x6100+s:08 OPT_BASE (R261). -/
def optBase (s : Nat) : Nat := (0x6100 + s) * 256 + 0x08
/-- 0x6100+s:09 OPT_PAGES (R261). -/
def optPages (s : Nat) : Nat := (0x6100 + s) * 256 + 0x09
/-- 0x6100+s:0A VS_WAITS (R261). -/
def vsWaits (s : Nat) : Nat := (0x6100 + s) * 256 + 0x0A
/-- 0x6100+s:0B VS_FETCH_SOURCE (R261). -/
def vsFetchSource (s : Nat) : Nat := (0x6100 + s) * 256 + 0x0B
/-- 0x6100+s:0C VS_FETCH_CONTROL (R261). -/
def vsFetchControl (s : Nat) : Nat := (0x6100 + s) * 256 + 0x0C
/-- 0x6100+s:0D VS_FETCH_STATE (R261). -/
def vsFetchState (s : Nat) : Nat := (0x6100 + s) * 256 + 0x0D
/-- 0x6110+s:01–10 VS_ENTRY (R261). -/
def vsEntry (s i : Nat) : Nat := (0x6110 + s) * 256 + (0x01 + i)
/-- 0x6200:01 OPT_LR (R261). -/
def optLr : Nat := 0x6200 * 256 + 0x01
/-- 0x6200:02 OPT_LR_NEXT (R261). -/
def optLrNext : Nat := 0x6200 * 256 + 0x02
/-- 0x6200:03 OPT_LR_STEP (R261). -/
def optLrStep : Nat := 0x6200 * 256 + 0x03
/-- 0x6200:04 OPT_BETA1 (R261). -/
def optBeta1 : Nat := 0x6200 * 256 + 0x04
/-- 0x6200:05 OPT_BETA2 (R261). -/
def optBeta2 : Nat := 0x6200 * 256 + 0x05
/-- 0x6200:06 OPT_EPS (R261). -/
def optEps : Nat := 0x6200 * 256 + 0x06
/-- 0x6200:07 OPT_WD (R261). -/
def optWd : Nat := 0x6200 * 256 + 0x07
/-- 0x6200:08 OPT_MOMENT_RND (R261). -/
def optMomentRnd : Nat := 0x6200 * 256 + 0x08
/-- 0x6200:09 OPT_STREAM (R261). -/
def optStream : Nat := 0x6200 * 256 + 0x09
/-- 0x6210+s:01 OPT_LAYERS (R261). -/
def optLayers (s : Nat) : Nat := (0x6210 + s) * 256 + 0x01
/-- 0x6230+s:01 OPT_POWERS (R261). -/
def optPowers (s : Nat) : Nat := (0x6230 + s) * 256 + 0x01
/-- 0x6220+s:01 OPT_WATCH (R261). -/
def optWatch (s : Nat) : Nat := (0x6220 + s) * 256 + 0x01
/-- 0x6400:01 COMMIT_PARENT (R261). -/
def commitParent : Nat := 0x6400 * 256 + 0x01
/-- 0x6400:02 COMMIT_CHILD_COUNT (R261). -/
def commitChildCount : Nat := 0x6400 * 256 + 0x02
/-- 0x6400:03 COMMIT_JOB_TAG (R261). -/
def commitJobTag : Nat := 0x6400 * 256 + 0x03
/-- 0x6400:04 COMMIT_WAIT_LIMIT (R261). -/
def commitWaitLimit : Nat := 0x6400 * 256 + 0x04
/-- 0x6400:05 COMMIT_REPLAY_LIMIT (R261). -/
def commitReplayLimit : Nat := 0x6400 * 256 + 0x05
/-- 0x6400:06 COMMIT_CONTROL (R261). -/
def commitControl : Nat := 0x6400 * 256 + 0x06
/-- 0x6401:01–10 COMMIT_CHILD (R261). -/
def commitChild (i : Nat) : Nat := 0x6401 * 256 + (0x01 + i)
/-- 0x6402:01 STEP_NUMBER (R261). -/
def stepNumber : Nat := 0x6402 * 256 + 0x01
/-- 0x6402:02 STEP_STATE (R261). -/
def stepState : Nat := 0x6402 * 256 + 0x02
/-- 0x6402:03 STEP_ATTEMPT (R261). -/
def stepAttempt : Nat := 0x6402 * 256 + 0x03
/-- 0x6402:04 LAST_COMMITTED (R261). -/
def lastCommitted : Nat := 0x6402 * 256 + 0x04
/-- 0x6402:05 LAST_DECISION (R261). -/
def lastDecision : Nat := 0x6402 * 256 + 0x05
/-- 0x6402:06 IN_DOUBT (R261). -/
def inDoubt : Nat := 0x6402 * 256 + 0x06
/-- 0x6402:07 HELD_PAGES (R261). -/
def heldPages : Nat := 0x6402 * 256 + 0x07
/-- 0x6402:08 COMMITS (R261). -/
def commits : Nat := 0x6402 * 256 + 0x08
/-- 0x6402:09 ABORTS (R261). -/
def aborts : Nat := 0x6402 * 256 + 0x09
/-- 0x6402:0A DROPS (R261). -/
def drops : Nat := 0x6402 * 256 + 0x0A
/-- 0x5000:01 NONFINITE_POLICY (R300). -/
def nonfinitePolicy : Nat := 0x5000 * 256 + 0x01
/-- 0x5000:02 LAYOUT_EPOCH (R300). -/
def layoutEpoch : Nat := 0x5000 * 256 + 0x02
/-- 0x5000:03 RESHARD_EPOCH (R300). -/
def reshardEpoch : Nat := 0x5000 * 256 + 0x03
/-- 0x5000:04 RESHARD_STEP (R300). -/
def reshardStep : Nat := 0x5000 * 256 + 0x04
/-- 0x5000:05 RESHARD_CONTROL (R300). -/
def reshardControl : Nat := 0x5000 * 256 + 0x05
/-- 0x5000:06 RESHARD_STATE (R300). -/
def reshardState : Nat := 0x5000 * 256 + 0x06
/-- 0x5000:07 ONE_BIT_CHANNELS (R300). -/
def oneBitChannels : Nat := 0x5000 * 256 + 0x07
/-- 0x5000:08 RC_HOP_LIMIT (R300). -/
def rcHopLimit : Nat := 0x5000 * 256 + 0x08
/-- 0x5000:09 EPOCH_REFUSED (R300). -/
def epochRefused : Nat := 0x5000 * 256 + 0x09
/-- 0x5000:0A LAST_EPOCH_REFUSAL (R300). -/
def lastEpochRefusal : Nat := 0x5000 * 256 + 0x0A
/-- 0x5010+s:01 RG_STATE (R300). -/
def rgState (s : Nat) : Nat := (0x5010 + s) * 256 + 0x01
/-- 0x5010+s:02 RG_CONTROL (R300). -/
def rgControl (s : Nat) : Nat := (0x5010 + s) * 256 + 0x02
/-- 0x5010+s:03 RG_MEMBERS (R300). -/
def rgMembers (s : Nat) : Nat := (0x5010 + s) * 256 + 0x03
/-- 0x5010+s:04 RG_INDEX (R300). -/
def rgIndex (s : Nat) : Nat := (0x5010 + s) * 256 + 0x04
/-- 0x5010+s:05 RG_SCALE (R300). -/
def rgScale (s : Nat) : Nat := (0x5010 + s) * 256 + 0x05
/-- 0x5010+s:06 RG_CARRY_E (R300). -/
def rgCarryE (s : Nat) : Nat := (0x5010 + s) * 256 + 0x06
/-- 0x5010+s:07 RG_GATHER_FMT (R300). -/
def rgGatherFmt (s : Nat) : Nat := (0x5010 + s) * 256 + 0x07
/-- 0x5010+s:08 RG_LR_STREAM (R300). -/
def rgLrStream (s : Nat) : Nat := (0x5010 + s) * 256 + 0x08
/-- 0x5020+s:01 BUCKET_TABLE (R300). -/
def bucketTable (s : Nat) : Nat := (0x5020 + s) * 256 + 0x01
/-- 0x5030+s:01–40 BUCKET_STATUS (R300). -/
def bucketStatus (s i : Nat) : Nat := (0x5030 + s) * 256 + (0x01 + i)
/-- 0x5040+s:01–40 BUCKET_CENSUS (R300). -/
def bucketCensus (s i : Nat) : Nat := (0x5040 + s) * 256 + (0x01 + i)
/-- 0x5050+s:01 STEP_NONFINITE (R300). -/
def stepNonfinite (s : Nat) : Nat := (0x5050 + s) * 256 + 0x01
/-- 0x5050+s:02 ZEROED (R300). -/
def zeroed (s : Nat) : Nat := (0x5050 + s) * 256 + 0x02
/-- 0x5100+c:01 RC_STATE (R300). -/
def rcState (c : Nat) : Nat := (0x5100 + c) * 256 + 0x01
/-- 0x5100+c:02 RC_SLOT (R300). -/
def rcSlot (c : Nat) : Nat := (0x5100 + c) * 256 + 0x02
/-- 0x5100+c:03 RC_NEXT (R300). -/
def rcNext (c : Nat) : Nat := (0x5100 + c) * 256 + 0x03
/-- 0x5100+c:04 RC_PREV (R300). -/
def rcPrev (c : Nat) : Nat := (0x5100 + c) * 256 + 0x04
/-- 0x5100+c:05 RC_MODE (R300). -/
def rcMode (c : Nat) : Nat := (0x5100 + c) * 256 + 0x05
/-- 0x5100+c:06 RC_RANK (R300). -/
def rcRank (c : Nat) : Nat := (0x5100 + c) * 256 + 0x06
/-- 0x5100+c:07 RC_BYTES_SENT (R300). -/
def rcBytesSent (c : Nat) : Nat := (0x5100 + c) * 256 + 0x07
/-- 0x5100+c:08 RC_BYTES_RECEIVED (R300). -/
def rcBytesReceived (c : Nat) : Nat := (0x5100 + c) * 256 + 0x08
/-- 0x5100+c:09 RC_FALLBACKS (R300). -/
def rcFallbacks (c : Nat) : Nat := (0x5100 + c) * 256 + 0x09
/-- 0x5100+c:0A RC_STALE_DROPPED (R300). -/
def rcStaleDropped (c : Nat) : Nat := (0x5100 + c) * 256 + 0x0A
/-- 0x5100+c:0B RC_SEQUENCE_FAULTS (R300). -/
def rcSequenceFaults (c : Nat) : Nat := (0x5100 + c) * 256 + 0x0B
/-- 0x5100+c:0C RC_EPOCH_REFUSED (R300). -/
def rcEpochRefused (c : Nat) : Nat := (0x5100 + c) * 256 + 0x0C
/-- 0x5100+c:0D RC_LAST_FRAME (R300). -/
def rcLastFrame (c : Nat) : Nat := (0x5100 + c) * 256 + 0x0D
/-- 0x4300:01 JOB_STATE (R302). -/
def jobState : Nat := 0x4300 * 256 + 0x01
/-- 0x4300:02 JOB_CONTROL (R302). -/
def jobControl : Nat := 0x4300 * 256 + 0x02
/-- 0x4300:03 JOB_SEED (R302). -/
def jobSeed : Nat := 0x4300 * 256 + 0x03
/-- 0x4300:04 JOB_PACKAGES (R302). -/
def jobPackages : Nat := 0x4300 * 256 + 0x04
/-- 0x4300:05 PIPE_PACKAGES (R302). -/
def pipePackages : Nat := 0x4300 * 256 + 0x05
/-- 0x4300:06 PIPE_INDEX (R302). -/
def pipeIndex : Nat := 0x4300 * 256 + 0x06
/-- 0x4300:07 STAGES_PER_PACKAGE (R302). -/
def stagesPerPackage : Nat := 0x4300 * 256 + 0x07
/-- 0x4300:08 JOB_SEQ_SHARE (R302). -/
def jobSeqShare : Nat := 0x4300 * 256 + 0x08
/-- 0x4300:09 REPLICAS (R302). -/
def replicas : Nat := 0x4300 * 256 + 0x09
/-- 0x4300:0A PIPE_AXIS (R302). -/
def pipeAxis : Nat := 0x4300 * 256 + 0x0A
/-- 0x4300:0B SEQ_AXIS (R302). -/
def seqAxis : Nat := 0x4300 * 256 + 0x0B
/-- 0x4310+s:01 RING_STATE (R315). -/
def ringState (s : Nat) : Nat := (0x4310 + s) * 256 + 0x01
/-- 0x4310+s:02 RING_PREV (R315). -/
def ringPrev (s : Nat) : Nat := (0x4310 + s) * 256 + 0x02
/-- 0x4310+s:03 RING_NEXT (R315). -/
def ringNext (s : Nat) : Nat := (0x4310 + s) * 256 + 0x03
/-- 0x4310+s:04 RING_IN_RELAY (R315). -/
def ringInRelay (s : Nat) : Nat := (0x4310 + s) * 256 + 0x04
/-- 0x4310+s:05 RING_OUT_RELAY (R315). -/
def ringOutRelay (s : Nat) : Nat := (0x4310 + s) * 256 + 0x05
/-- 0x4310+s:06 RING_F_TOKEN_BYTES (R315). -/
def ringFTokenBytes (s : Nat) : Nat := (0x4310 + s) * 256 + 0x06
/-- 0x4310+s:07 RING_B_TOKEN_BYTES (R315). -/
def ringBTokenBytes (s : Nat) : Nat := (0x4310 + s) * 256 + 0x07
/-- 0x4310+s:08 RING_F_MODE (R315). -/
def ringFMode (s : Nat) : Nat := (0x4310 + s) * 256 + 0x08
/-- 0x4310+s:09 RING_B_MODE (R315). -/
def ringBMode (s : Nat) : Nat := (0x4310 + s) * 256 + 0x09
/-- 0x4310+s:0A RING_PAGES (R315). -/
def ringPages (s : Nat) : Nat := (0x4310 + s) * 256 + 0x0A
/-- 0x4310+s:0B RING_BYTES_SENT (R315). -/
def ringBytesSent (s : Nat) : Nat := (0x4310 + s) * 256 + 0x0B
/-- 0x4310+s:0C RING_BYTES_RECEIVED (R315). -/
def ringBytesReceived (s : Nat) : Nat := (0x4310 + s) * 256 + 0x0C
/-- 0x4310+s:0D RING_DISCARDED (R315). -/
def ringDiscarded (s : Nat) : Nat := (0x4310 + s) * 256 + 0x0D
/-- 0x8000:01 DATA_STATE (R350). -/
def dataState : Nat := 0x8000 * 256 + 0x01
/-- 0x8000:02 DATA_CONTROL (R350). -/
def dataControl : Nat := 0x8000 * 256 + 0x02
/-- 0x8000:03 DATA_ROLE (R350). -/
def dataRole : Nat := 0x8000 * 256 + 0x03
/-- 0x8000:04 DATA_REPLICA (R350). -/
def dataReplica : Nat := 0x8000 * 256 + 0x04
/-- 0x8000:05 DECODERS (R350). -/
def decoders : Nat := 0x8000 * 256 + 0x05
/-- 0x8000:06 LOOKAHEAD (R350). -/
def lookahead : Nat := 0x8000 * 256 + 0x06
/-- 0x8000:07 SAMPLES_TOTAL (R350). -/
def samplesTotal : Nat := 0x8000 * 256 + 0x07
/-- 0x8000:08 SHUFFLE_STREAM (R350). -/
def shuffleStream : Nat := 0x8000 * 256 + 0x08
/-- 0x8000:09 START_U (R350). -/
def startU : Nat := 0x8000 * 256 + 0x09
/-- 0x8000:0A DATA_CURSOR (R350). -/
def dataCursor : Nat := 0x8000 * 256 + 0x0A
/-- 0x8000:0B BATCH_SAMPLES (R350). -/
def batchSamples : Nat := 0x8000 * 256 + 0x0B
/-- 0x8000:0C DAMAGE_POLICY (R350). -/
def damagePolicy : Nat := 0x8000 * 256 + 0x0C
/-- 0x8000:0D CAND_RING_PAGES (R350). -/
def candRingPages : Nat := 0x8000 * 256 + 0x0D
/-- 0x8000:0E HELD_FIRST_U (R350). -/
def heldFirstU : Nat := 0x8000 * 256 + 0x0E
/-- 0x8000:0F DATA_FAULT (R350). -/
def dataFault : Nat := 0x8000 * 256 + 0x0F
/-- 0x8000:10 TOKEN_BYTES (R350). -/
def tokenBytes : Nat := 0x8000 * 256 + 0x10
/-- 0x8001:01–FF DECODER_TABLE (R350). -/
def decoderTable (i : Nat) : Nat := 0x8001 * 256 + (0x01 + i)
/-- 0x8002:01–80 SINK_TABLE (R350). -/
def sinkTable (i : Nat) : Nat := 0x8002 * 256 + (0x01 + i)
/-- 0x8003:01 CLIP_LIST (R350). -/
def clipList : Nat := 0x8003 * 256 + 0x01
/-- 0x8003:02 CLIP_LIST_ENTRIES (R350). -/
def clipListEntries : Nat := 0x8003 * 256 + 0x02
/-- 0x8010:01 INGEST_VLAN (R350). -/
def ingestVlan : Nat := 0x8010 * 256 + 0x01
/-- 0x8010:02 INGEST_PFC_PRIORITY (R350). -/
def ingestPfcPriority : Nat := 0x8010 * 256 + 0x02
/-- 0x8010:03 CHUNK_BYTES (R350). -/
def chunkBytes : Nat := 0x8010 * 256 + 0x03
/-- 0x8010:04 INGEST_RING_PAGES (R350). -/
def ingestRingPages : Nat := 0x8010 * 256 + 0x04
/-- 0x8010:05 CAT_REGION (R350). -/
def catRegion : Nat := 0x8010 * 256 + 0x05
/-- 0x8010:06 CAT_OFFSET (R350). -/
def catOffset : Nat := 0x8010 * 256 + 0x06
/-- 0x8010:07 READ_RETRIES (R350). -/
def readRetries : Nat := 0x8010 * 256 + 0x07
/-- 0x8011+port:01 INGEST_MAC (R350). -/
def ingestMac (p : Nat) : Nat := (0x8011 + p) * 256 + 0x01
/-- 0x8011+port:02 INGEST_LOCAL_ADDR (R350). -/
def ingestLocalAddr (p : Nat) : Nat := (0x8011 + p) * 256 + 0x02
/-- 0x8011+port:03 INGEST_LINK_STATE (R350). -/
def ingestLinkState (p : Nat) : Nat := (0x8011 + p) * 256 + 0x03
/-- 0x8011+port:04 INGEST_DISCARDED (R350). -/
def ingestDiscarded (p : Nat) : Nat := (0x8011 + p) * 256 + 0x04
/-- 0x8011+port:05 INGEST_RETRANSMITS (R350). -/
def ingestRetransmits (p : Nat) : Nat := (0x8011 + p) * 256 + 0x05
/-- 0x8011+port:06 INGEST_BYTES_READ (R350). -/
def ingestBytesRead (p : Nat) : Nat := (0x8011 + p) * 256 + 0x06
/-- 0x8013+port:01 QP_TABLE (R350). -/
def qpTable (p : Nat) : Nat := (0x8013 + p) * 256 + 0x01
/-- 0x8015:01 REGION_TABLE (R350). -/
def regionTable : Nat := 0x8015 * 256 + 0x01
/-- 0x8020:01 DEINTERLACE (R350). -/
def deinterlace : Nat := 0x8020 * 256 + 0x01
/-- 0x8020:02 FRAME_STRIDE (R350). -/
def frameStride : Nat := 0x8020 * 256 + 0x02
/-- 0x8020:03 CROP (R350). -/
def crop : Nat := 0x8020 * 256 + 0x03
/-- 0x8020:04 OUT_WIDTH (R350). -/
def outWidth : Nat := 0x8020 * 256 + 0x04
/-- 0x8020:05 OUT_HEIGHT (R350). -/
def outHeight : Nat := 0x8020 * 256 + 0x05
/-- 0x8020:06 COLOUR_OUT (R350). -/
def colourOut : Nat := 0x8020 * 256 + 0x06
/-- 0x8020:07 ACT_GAIN (R350). -/
def actGain : Nat := 0x8020 * 256 + 0x07
/-- 0x8020:08 ACT_BIAS (R350). -/
def actBias : Nat := 0x8020 * 256 + 0x08
/-- 0x8020:09 ACT_CONV (R350). -/
def actConv : Nat := 0x8020 * 256 + 0x09
/-- 0x8020:0A PATCH_T (R350). -/
def patchT : Nat := 0x8020 * 256 + 0x0A
/-- 0x8020:0B PATCH_H (R350). -/
def patchH : Nat := 0x8020 * 256 + 0x0B
/-- 0x8020:0C PATCH_W (R350). -/
def patchW : Nat := 0x8020 * 256 + 0x0C
/-- 0x8030:01 AUDIO_RATE (R350). -/
def audioRate : Nat := 0x8030 * 256 + 0x01
/-- 0x8030:02 AUDIO_CHANNELS (R350). -/
def audioChannels : Nat := 0x8030 * 256 + 0x02
/-- 0x8030:03 AUDIO_TOKEN_SAMPLES (R350). -/
def audioTokenSamples : Nat := 0x8030 * 256 + 0x03
/-- 0x8030:04 AUDIO_CONV (R350). -/
def audioConv : Nat := 0x8030 * 256 + 0x04
/-- 0x8030:05 CAPTION_BYTES_MAX (R350). -/
def captionBytesMax : Nat := 0x8030 * 256 + 0x05
/-- 0x8040:01 SAMPLES_DELIVERED (R350). -/
def samplesDelivered : Nat := 0x8040 * 256 + 0x01
/-- 0x8040:02 DROPS_READ (R350). -/
def dropsRead : Nat := 0x8040 * 256 + 0x02
/-- 0x8040:03 DROPS_CATALOGUE (R350). -/
def dropsCatalogue : Nat := 0x8040 * 256 + 0x03
/-- 0x8040:04 DROPS_UNSUPPORTED (R350). -/
def dropsUnsupported : Nat := 0x8040 * 256 + 0x04
/-- 0x8040:05 DROPS_EMPTY (R350). -/
def dropsEmpty : Nat := 0x8040 * 256 + 0x05
/-- 0x8040:06 DROPS_DAMAGE (R350). -/
def dropsDamage : Nat := 0x8040 * 256 + 0x06
/-- 0x8040:07 DROPS_CLIP (R350). -/
def dropsClip : Nat := 0x8040 * 256 + 0x07
/-- 0x8040:08 DROPS_OVERSIZE (R350). -/
def dropsOversize : Nat := 0x8040 * 256 + 0x08
/-- 0x8040:09 REFUSED_SAMPLES (R350). -/
def refusedSamples : Nat := 0x8040 * 256 + 0x09
/-- 0x8040:0A DAMAGE_EVENTS (R350). -/
def damageEvents : Nat := 0x8040 * 256 + 0x0A
/-- 0x8040:0B SAMPLES_CONCEALED (R350). -/
def samplesConcealed : Nat := 0x8040 * 256 + 0x0B
/-- 0x8040:0C PICTURES_CONCEALED (R350). -/
def picturesConcealed : Nat := 0x8040 * 256 + 0x0C
/-- 0x8040:0D AUDIO_FRAMES_CONCEALED (R350). -/
def audioFramesConcealed : Nat := 0x8040 * 256 + 0x0D
/-- 0x8040:0E FRAMES_OMITTED (R350). -/
def framesOmitted : Nat := 0x8040 * 256 + 0x0E
/-- 0x8040:0F CAPTION_BYTES_DROPPED (R350). -/
def captionBytesDropped : Nat := 0x8040 * 256 + 0x0F
/-- 0x8040:10 CLIP_LIST_FULL (R350). -/
def clipListFull : Nat := 0x8040 * 256 + 0x10
/-- 0x8041:01 DROP_LOG (R350). -/
def dropLog : Nat := 0x8041 * 256 + 0x01
/-- 0x7000:01 PACKAGE_ID (R384). -/
def packageId : Nat := 0x7000 * 256 + 0x01
/-- 0x7000:02 TORUS_DIM_X (R384). -/
def torusDimX : Nat := 0x7000 * 256 + 0x02
/-- 0x7000:03 TORUS_DIM_Y (R384). -/
def torusDimY : Nat := 0x7000 * 256 + 0x03
/-- 0x7000:04 TORUS_DIM_Z (R384). -/
def torusDimZ : Nat := 0x7000 * 256 + 0x04
/-- 0x7000:05 COORD_X (R384). -/
def coordX : Nat := 0x7000 * 256 + 0x05
/-- 0x7000:06 COORD_Y (R384). -/
def coordY : Nat := 0x7000 * 256 + 0x06
/-- 0x7000:07 COORD_Z (R384). -/
def coordZ : Nat := 0x7000 * 256 + 0x07
/-- 0x7001:01 BEACON_INTERVAL (R384). -/
def beaconInterval : Nat := 0x7001 * 256 + 0x01
/-- 0x7001:02 FLAP_LIMIT (R384). -/
def flapLimit : Nat := 0x7001 * 256 + 0x02
/-- 0x7001:03 FLAP_WINDOW (R384). -/
def flapWindow : Nat := 0x7001 * 256 + 0x03
/-- 0x7001:04 HOLD_BASE (R384). -/
def holdBase : Nat := 0x7001 * 256 + 0x04
/-- 0x7001:05 HOLD_MAX (R384). -/
def holdMax : Nat := 0x7001 * 256 + 0x05
/-- 0x7001:06 ROUTE_REJOIN_HOLD (R384). -/
def routeRejoinHold : Nat := 0x7001 * 256 + 0x06
/-- 0x7002:01 PARTNER_EVENTS (R384). -/
def partnerEvents : Nat := 0x7002 * 256 + 0x01
/-- 0x7002:02 LAST_PARTNER_EVENT (R384). -/
def lastPartnerEvent : Nat := 0x7002 * 256 + 0x02
/-- 0x7010+n:01 PORT_LINK_STATE (R384). -/
def portLinkState (n : Nat) : Nat := (0x7010 + n) * 256 + 0x01
/-- 0x7010+n:02 PORT_CONTROL (R384). -/
def portControl (n : Nat) : Nat := (0x7010 + n) * 256 + 0x02
/-- 0x7010+n:03 LANES_USED (R384). -/
def lanesUsed (n : Nat) : Nat := (0x7010 + n) * 256 + 0x03
/-- 0x7010+n:04 PARTNER_ID (R384). -/
def partnerId (n : Nat) : Nat := (0x7010 + n) * 256 + 0x04
/-- 0x7010+n:05 PARTNER_PORT (R384). -/
def partnerPort (n : Nat) : Nat := (0x7010 + n) * 256 + 0x05
/-- 0x7010+n:06 PARTNER_DIGEST (R384). -/
def partnerDigest (n : Nat) : Nat := (0x7010 + n) * 256 + 0x06
/-- 0x7010+n:07 PARTNER_JOB_TAG (R384). -/
def partnerJobTag (n : Nat) : Nat := (0x7010 + n) * 256 + 0x07
/-- 0x7010+n:08 PARTNER_FLAGS (R384). -/
def partnerFlags (n : Nat) : Nat := (0x7010 + n) * 256 + 0x08
/-- 0x7010+n:09 FLAPS_IN_WINDOW (R384). -/
def flapsInWindow (n : Nat) : Nat := (0x7010 + n) * 256 + 0x09
/-- 0x7010+n:0A HOLD_REMAINING (R384). -/
def holdRemaining (n : Nat) : Nat := (0x7010 + n) * 256 + 0x0A
/-- 0x7010+n:0B HOLD_NEXT (R384). -/
def holdNext (n : Nat) : Nat := (0x7010 + n) * 256 + 0x0B
/-- 0x7010+n:0C UP_COUNT (R384). -/
def upCount (n : Nat) : Nat := (0x7010 + n) * 256 + 0x0C
/-- 0x7010+n:0D LOSS_COUNT (R384). -/
def lossCount (n : Nat) : Nat := (0x7010 + n) * 256 + 0x0D
/-- 0x7010+n:0E TRAIN_FAILS (R384). -/
def trainFails (n : Nat) : Nat := (0x7010 + n) * 256 + 0x0E
/-- 0x7010+n:0F MISWIRES (R384). -/
def miswires (n : Nat) : Nat := (0x7010 + n) * 256 + 0x0F
/-- 0x7010+n:10 FEC_CORRECTED (R384). -/
def fecCorrected (n : Nat) : Nat := (0x7010 + n) * 256 + 0x10
/-- 0x7010+n:11 FEC_UNCORRECTED (R384). -/
def fecUncorrected (n : Nat) : Nat := (0x7010 + n) * 256 + 0x11
/-- 0x7010+n:12 LINK_REPLAYS (R384). -/
def linkReplays (n : Nat) : Nat := (0x7010 + n) * 256 + 0x12
/-- 0x7010+n:13 TIME_ASYMMETRY (R384). -/
def timeAsymmetry (n : Nat) : Nat := (0x7010 + n) * 256 + 0x13
/-- 0x7010+n:14 PDELAY (R384). -/
def pdelay (n : Nat) : Nat := (0x7010 + n) * 256 + 0x14
/-- 0x7010+n:15 FLITS_SENT (R384). -/
def flitsSent (n : Nat) : Nat := (0x7010 + n) * 256 + 0x15
/-- 0x7010+n:16 FLITS_RECEIVED (R384). -/
def flitsReceived (n : Nat) : Nat := (0x7010 + n) * 256 + 0x16
/-- 0x7020:01 RING_DOWN_X (R384). -/
def ringDownX : Nat := 0x7020 * 256 + 0x01
/-- 0x7020:02 RING_DOWN_Y (R384). -/
def ringDownY : Nat := 0x7020 * 256 + 0x02
/-- 0x7020:03 RING_DOWN_Z (R384). -/
def ringDownZ : Nat := 0x7020 * 256 + 0x03
/-- 0x7020:04 UNREACHABLE (R384). -/
def unreachable : Nat := 0x7020 * 256 + 0x04
/-- 0x7020:05 HOP_DISCARDS (R384). -/
def hopDiscards : Nat := 0x7020 * 256 + 0x05
/-- 0x7020:06 FLOW_BREAKS (R384). -/
def flowBreaks : Nat := 0x7020 * 256 + 0x06
/-- 0x7020:07 LAST_FLOW_BREAK (R384). -/
def lastFlowBreak : Nat := 0x7020 * 256 + 0x07
/-- 0x7020:08 FORWARDED_BYTES (R384). -/
def forwardedBytes : Nat := 0x7020 * 256 + 0x08
/-- 0x7020:09 ESCAPE_HOPS (R384). -/
def escapeHops : Nat := 0x7020 * 256 + 0x09
/-- 0x7020:0A REMOTE_LOSSES (R384). -/
def remoteLosses : Nat := 0x7020 * 256 + 0x0A
/-- 0x7030:01 TIME_PARENT (R384). -/
def timeParent : Nat := 0x7030 * 256 + 0x01
/-- 0x7030:02 TIME_STATE (R384). -/
def timeState : Nat := 0x7030 * 256 + 0x02
/-- 0x7030:03 TIME_NOW (R384). -/
def timeNow : Nat := 0x7030 * 256 + 0x03
/-- 0x7030:04 TIME_OFFSET (R384). -/
def timeOffset : Nat := 0x7030 * 256 + 0x04
/-- 0x7030:05 TIME_DOMAIN (R384). -/
def timeDomain : Nat := 0x7030 * 256 + 0x05
/-- 0x7030:06 TIME_FREQ_ADJ (R384). -/
def timeFreqAdj : Nat := 0x7030 * 256 + 0x06
/-- 0x7030:07 TIME_STEPS (R384). -/
def timeSteps : Nat := 0x7030 * 256 + 0x07
/-- 0x7030:08 TIME_SET (R384). -/
def timeSet : Nat := 0x7030 * 256 + 0x08
/-- 0x1204:01 TALLY_LINK_STATE (R384). -/
def tallyLinkState : Nat := 0x1204 * 256 + 0x01
/-- 0x1204:02 TALLY_FEC (R384). -/
def tallyFec : Nat := 0x1204 * 256 + 0x02
/-- 0x1204:03 TALLY_DISCARDED (R384). -/
def tallyDiscarded : Nat := 0x1204 * 256 + 0x03
/-- 0x1301:01 HOST_LINK_STATE (R384). -/
def hostLinkState : Nat := 0x1301 * 256 + 0x01
/-- 0x1301:02 HOST_LANES_USED (R384). -/
def hostLanesUsed : Nat := 0x1301 * 256 + 0x02
/-- 0x1301:03 HOST_WIDTH (R384). -/
def hostWidth : Nat := 0x1301 * 256 + 0x03
/-- 0x1301:04 HOST_L0P (R384). -/
def hostL0p : Nat := 0x1301 * 256 + 0x04
/-- 0x1301:05 HOST_LINK_DOWNS (R384). -/
def hostLinkDowns : Nat := 0x1301 * 256 + 0x05
/-- 0x1301:06 HOST_REPLAYS (R384). -/
def hostReplays : Nat := 0x1301 * 256 + 0x06
/-- 0x1302:01 LOSS_RING_BASE (R384). -/
def lossRingBase : Nat := 0x1302 * 256 + 0x01
/-- 0x1302:02 LOSS_RING_ENTRIES (R384). -/
def lossRingEntries : Nat := 0x1302 * 256 + 0x02
/-- 0x1302:03 LOSS_RING_HEAD (R384). -/
def lossRingHead : Nat := 0x1302 * 256 + 0x03
/-- 0x1302:04 LOSS_RING_TAIL (R384). -/
def lossRingTail : Nat := 0x1302 * 256 + 0x04
/-- 0x1302:05 LOSS_DROPPED (R384). -/
def lossDropped : Nat := 0x1302 * 256 + 0x05
/-- 0x1302:06 LOSS_BASE (R384). -/
def lossBase : Nat := 0x1302 * 256 + 0x06
/-- 0xB000+n:01 SL_STATE (R405). -/
def slState (n : Nat) : Nat := (0xB000 + n) * 256 + 0x01
/-- 0xB000+n:02 SL_CONTROL (R405). -/
def slControl (n : Nat) : Nat := (0xB000 + n) * 256 + 0x02
/-- 0xB000+n:03 SL_EPOCH (R405). -/
def slEpoch (n : Nat) : Nat := (0xB000 + n) * 256 + 0x03
/-- 0xB000+n:04 SL_LOCAL_CLAIM (R405). -/
def slLocalClaim (n : Nat) : Nat := (0xB000 + n) * 256 + 0x04
/-- 0xB000+n:05 SL_REMOTE_CLAIM (R405). -/
def slRemoteClaim (n : Nat) : Nat := (0xB000 + n) * 256 + 0x05
/-- 0xB000+n:06 SL_MODULES (R405). -/
def slModules (n : Nat) : Nat := (0xB000 + n) * 256 + 0x06
/-- 0xB000+n:07 SL_RATE (R405). -/
def slRate (n : Nat) : Nat := (0xB000 + n) * 256 + 0x07
/-- 0xB000+n:08 SL_RETRAINS (R405). -/
def slRetrains (n : Nat) : Nat := (0xB000 + n) * 256 + 0x08
/-- 0xB000+n:09 SL_DISAGREEMENTS (R405). -/
def slDisagreements (n : Nat) : Nat := (0xB000 + n) * 256 + 0x09
/-- 0xB000+n:0A SL_CRC_ERRORS (R405). -/
def slCrcErrors (n : Nat) : Nat := (0xB000 + n) * 256 + 0x0A
/-- 0xB000+n:0B SL_REPLAYS (R405). -/
def slReplays (n : Nat) : Nat := (0xB000 + n) * 256 + 0x0B
/-- 0xB000+n:0C SL_LANES_REPAIRED (R405). -/
def slLanesRepaired (n : Nat) : Nat := (0xB000 + n) * 256 + 0x0C
/-- 0xB010+d:01 DIE_RETRAIN_FAILS (R405). -/
def dieRetrainFails (d : Nat) : Nat := (0xB010 + d) * 256 + 0x01
/-- 0xB030:01 SL_RETRY_LIMIT (R405). -/
def slRetryLimit : Nat := 0xB030 * 256 + 0x01
/-- 0xB030:02 SL_RETRAIN_BOUND (R405). -/
def slRetrainBound : Nat := 0xB030 * 256 + 0x02
/-- 0xB020+d:01 RLC_ENABLE (R405). -/
def rlcEnable (d : Nat) : Nat := (0xB020 + d) * 256 + 0x01
/-- 0xB020+d:02 RLC_LINES (R405). -/
def rlcLines (d : Nat) : Nat := (0xB020 + d) * 256 + 0x02
/-- 0xB020+d:03 RLC_HITS (R405). -/
def rlcHits (d : Nat) : Nat := (0xB020 + d) * 256 + 0x03
/-- 0xB020+d:04 RLC_MISSES (R405). -/
def rlcMisses (d : Nat) : Nat := (0xB020 + d) * 256 + 0x04
/-- 0xB020+d:05 RLC_INVALIDATIONS (R405). -/
def rlcInvalidations (d : Nat) : Nat := (0xB020 + d) * 256 + 0x05
/-- 0xB020+d:06 RLC_PREFETCHES (R405). -/
def rlcPrefetches (d : Nat) : Nat := (0xB020 + d) * 256 + 0x06
/-- 0xB020+d:07 SF_BACK_INVALIDATIONS (R405). -/
def sfBackInvalidations (d : Nat) : Nat := (0xB020 + d) * 256 + 0x07
/-- 0x9000:01 RECOMPUTE_N (R436). -/
def recomputeN : Nat := 0x9000 * 256 + 0x01
/-- 0x9000:02 RECOMPUTE_SAMPLED (R436). -/
def recomputeSampled : Nat := 0x9000 * 256 + 0x02
/-- 0x9000:03 RECOMPUTE_MISMATCHES (R436). -/
def recomputeMismatches : Nat := 0x9000 * 256 + 0x03
/-- 0x9000:04 RECOMPUTE_ABANDONED (R436). -/
def recomputeAbandoned : Nat := 0x9000 * 256 + 0x04
/-- 0x9000:05 BLOCK_CHECK_FAILS (R436). -/
def blockCheckFails : Nat := 0x9000 * 256 + 0x05
/-- 0x9000:06 BLOCK_REREADS_PASSED (R436). -/
def blockRereadsPassed : Nat := 0x9000 * 256 + 0x06
/-- 0x9000:07 IMPLICATE_WINDOW (R436). -/
def implicateWindow : Nat := 0x9000 * 256 + 0x07
/-- 0x9000:08 SCRUB_PERIOD (R436). -/
def scrubPeriod : Nat := 0x9000 * 256 + 0x08
/-- 0x9000:09 RETIRE_CORRECTED (R436). -/
def retireCorrected : Nat := 0x9000 * 256 + 0x09
/-- 0x9010+k:01 MEM_CORRECTED (R436). -/
def memCorrected (k : Nat) : Nat := (0x9010 + k) * 256 + 0x01
/-- 0x9010+k:02 MEM_UNCORRECTABLE (R436). -/
def memUncorrectable (k : Nat) : Nat := (0x9010 + k) * 256 + 0x02
/-- 0x9010+k:03 SCRUB_PASSES (R436). -/
def scrubPasses (k : Nat) : Nat := (0x9010 + k) * 256 + 0x03
/-- B+0x34:01 BENT_TIMEOUT (R436). -/
def bentTimeout (b : Nat) : Nat := (0x3034 + 0x40 * b) * 256 + 0x01
/-- B+0x34:02 BENT_EXPIRIES (R436). -/
def bentExpiries (b : Nat) : Nat := (0x3034 + 0x40 * b) * 256 + 0x02
/-- 0x9020:01 DIE_TIMEOUT (R436). -/
def dieTimeout : Nat := 0x9020 * 256 + 0x01
/-- 0x9020:02 PACKAGE_TIMEOUT (R436). -/
def packageTimeout : Nat := 0x9020 * 256 + 0x02
/-- 0x9021:01–08 TIMEOUT_EFFECTIVE (R436). -/
def timeoutEffective (i : Nat) : Nat := 0x9021 * 256 + (0x01 + i)
/-- 0x9022:01–07 TIMEOUT_EXPIRIES (R436). -/
def timeoutExpiries (i : Nat) : Nat := 0x9022 * 256 + (0x01 + i)
/-- 0x9030:01 DRAIN_STATE (R436). -/
def drainState : Nat := 0x9030 * 256 + 0x01
/-- 0x9030:02 DRAIN_CONTROL (R436). -/
def drainControl : Nat := 0x9030 * 256 + 0x02
/-- 0x9030:03 DRAIN_FLAG (R436). -/
def drainFlag : Nat := 0x9030 * 256 + 0x03
/-- 0x9030:04 DRAIN_CAUSE (R436). -/
def drainCause : Nat := 0x9030 * 256 + 0x04
/-- 0x9030:05 DRAINS (R436). -/
def drains : Nat := 0x9030 * 256 + 0x05
/-- 0x9031:01 IMPLICATIONS (R436). -/
def implications : Nat := 0x9031 * 256 + 0x01
/-- 0x9040:01 FAULT_LOG (R436). -/
def faultLog : Nat := 0x9040 * 256 + 0x01
/-- 0x9040:02 FAULT_LOG_COUNT (R436). -/
def faultLogCount : Nat := 0x9040 * 256 + 0x02
/-- 0x9040:03 FAULT_LOG_STORED (R436). -/
def faultLogStored : Nat := 0x9040 * 256 + 0x03
/-- 0x9040:04 REPORT_LOG (R436). -/
def reportLog : Nat := 0x9040 * 256 + 0x04
/-- 0x9040:05 LAST_REPORT (R436). -/
def lastReport : Nat := 0x9040 * 256 + 0x05
/-- 0x9050:01 FAULT_PARENT (R436). -/
def faultParent : Nat := 0x9050 * 256 + 0x01
/-- 0x9050:02 REPORT_QUIET (R436). -/
def reportQuiet : Nat := 0x9050 * 256 + 0x02
/-- 0x9050:03 REPORT_HOLD_MAX (R436). -/
def reportHoldMax : Nat := 0x9050 * 256 + 0x03
/-- 0x9050:04 REPORTS_PENDING (R436). -/
def reportsPending : Nat := 0x9050 * 256 + 0x04
/-- 0x9050:05 REPORTS_DROPPED (R436). -/
def reportsDropped : Nat := 0x9050 * 256 + 0x05
/-- 0x9050:06 REPORTS_SENT (R436). -/
def reportsSent : Nat := 0x9050 * 256 + 0x06
/-- 0x9050:07 REPORTS_MERGED (R436). -/
def reportsMerged : Nat := 0x9050 * 256 + 0x07
/-- 0x9051:01 FAULT_REPORT (R436). -/
def faultReport : Nat := 0x9051 * 256 + 0x01
/-- 0x2000:01 START_STATE (R461). -/
def startState : Nat := 0x2000 * 256 + 0x01
/-- 0x2000:02 START_STEP (R461). -/
def startStep : Nat := 0x2000 * 256 + 0x02
/-- 0x2000:03 START_CONTROL (R461). -/
def startControl : Nat := 0x2000 * 256 + 0x03
/-- 0x2000:04 FALSE_STARTS (R461). -/
def falseStarts : Nat := 0x2000 * 256 + 0x04
/-- 0x2000:05 READY_TIME (R461). -/
def readyTime : Nat := 0x2000 * 256 + 0x05
/-- 0x2001:01 WALK_REASON (R461). -/
def walkReason : Nat := 0x2001 * 256 + 0x01
/-- 0x2001:02 WALK_REASON_TEXT (R461). -/
def walkReasonText : Nat := 0x2001 * 256 + 0x02
/-- 0x2001:03 BOOT_SLOT_USED (R461). -/
def bootSlotUsed : Nat := 0x2001 * 256 + 0x03
/-- 0x2001:04 LAST_FALSE_START_STEP (R461). -/
def lastFalseStartStep : Nat := 0x2001 * 256 + 0x04
/-- 0x2001:05 LAST_RESET_CAUSE (R461). -/
def lastResetCause : Nat := 0x2001 * 256 + 0x05
/-- 0x2001:06 STARTS (R461). -/
def starts : Nat := 0x2001 * 256 + 0x06
/-- 0x2002:01 BOOT_PREFERENCE (R461). -/
def bootPreference : Nat := 0x2002 * 256 + 0x01
/-- 0x2002:02 BOOT_SLOT_STATUS (R461). -/
def bootSlotStatus : Nat := 0x2002 * 256 + 0x02
/-- 0x2002:03 SLOT_A_VERSION (R461). -/
def slotAVersion : Nat := 0x2002 * 256 + 0x03
/-- 0x2002:04 SLOT_B_VERSION (R461). -/
def slotBVersion : Nat := 0x2002 * 256 + 0x04
/-- 0x2002:05 BOOT_IMAGE_A (R461). -/
def bootImageA : Nat := 0x2002 * 256 + 0x05
/-- 0x2002:06 BOOT_IMAGE_B (R461). -/
def bootImageB : Nat := 0x2002 * 256 + 0x06
/-- 0x2002:07 BOOT_SLOT_CONTROL (R461). -/
def bootSlotControl : Nat := 0x2002 * 256 + 0x07
/-- 0x2002:08 MIN_SECURITY_VERSION (R461). -/
def minSecurityVersion : Nat := 0x2002 * 256 + 0x08
/-- 0x2002:09 FIRMWARE_PUBLIC_KEY (R461). -/
def firmwarePublicKey : Nat := 0x2002 * 256 + 0x09
/-- 0x2010:01–50 DOMAIN_STATE (R461). -/
def domainState (i : Nat) : Nat := 0x2010 * 256 + (0x01 + i)
/-- 0x2011:01–50 DOMAIN_CONTROL (R461). -/
def domainControl (i : Nat) : Nat := 0x2011 * 256 + (0x01 + i)
/-- 0x2012:01–50 DOMAIN_PENDING (R461). -/
def domainPending (i : Nat) : Nat := 0x2012 * 256 + (0x01 + i)
/-- 0x2013:01–50 DOMAIN_TRANSITIONS (R461). -/
def domainTransitions (i : Nat) : Nat := 0x2013 * 256 + (0x01 + i)
/-- 0x2014:01–04 DIE_CONTROL (R461). -/
def dieControl (i : Nat) : Nat := 0x2014 * 256 + (0x01 + i)
/-- 0x2020:01 INPUT_LEVELS (R461). -/
def inputLevels : Nat := 0x2020 * 256 + 0x01
/-- 0x2020:02 PWR_EN_REJECTED (R461). -/
def pwrEnRejected : Nat := 0x2020 * 256 + 0x02
/-- 0x2020:03 RST_N_ASSERTIONS (R461). -/
def rstNAssertions : Nat := 0x2020 * 256 + 0x03
/-- 0x2020:04 GLITCHES_FILTERED (R461). -/
def glitchesFiltered : Nat := 0x2020 * 256 + 0x04
/-- 0xA000:01 COUNTER_USER_READ (R476). -/
def counterUserRead : Nat := 0xA000 * 256 + 0x01
/-- 0xA000:02 COUNTER_FREEZE (R476). -/
def counterFreeze : Nat := 0xA000 * 256 + 0x02
/-- 0xA000:03 TAG_SHIFT (R476). -/
def tagShift : Nat := 0xA000 * 256 + 0x03
/-- 0xA000:04 TAG_SEED (R476). -/
def tagSeed : Nat := 0xA000 * 256 + 0x04
/-- 0xA010:01–20 KPC_SELECT (R476). -/
def kpcSelect (i : Nat) : Nat := 0xA010 * 256 + (0x01 + i)
/-- 0xA011:01–20 KPC_VALUE (R476). -/
def kpcValue (i : Nat) : Nat := 0xA011 * 256 + (0x01 + i)
/-- 0xA012:01 KPC_OVERFLOW (R476). -/
def kpcOverflow : Nat := 0xA012 * 256 + 0x01
/-- 0xA100+b:01–08 BPC_SELECT (R476). -/
def bpcSelect (b i : Nat) : Nat := (0xA100 + b) * 256 + (0x01 + i)
/-- 0xA100+b:09–10 BPC_VALUE (R476). -/
def bpcValue (b i : Nat) : Nat := (0xA100 + b) * 256 + (0x09 + i)
/-- 0xA100+b:11 BPC_OVERFLOW (R476). -/
def bpcOverflow (b : Nat) : Nat := (0xA100 + b) * 256 + 0x11
/-- 0xA100+b:12 TAG_RECORDS (R476). -/
def tagRecords (b : Nat) : Nat := (0xA100 + b) * 256 + 0x12
/-- 0xA100+b:13 TAGS_MISSED (R476). -/
def tagsMissed (b : Nat) : Nat := (0xA100 + b) * 256 + 0x13
/-- 0xA100+b:14 TAG_RING (R476). -/
def tagRing (b : Nat) : Nat := (0xA100 + b) * 256 + 0x14
/-- 0xA200+4b+k:01–40 PC_VALUE (R476). -/
def pcValue (b k i : Nat) : Nat := (0xA200 + 4 * b + k) * 256 + (0x01 + i)
/-- 0xA300+4b+k:01–40 PC_SELECT (R476). -/
def pcSelect (b k i : Nat) : Nat := (0xA300 + 4 * b + k) * 256 + (0x01 + i)
/-- 0xA400+b:01–40 PC_OVERFLOW (R476). -/
def pcOverflow (b i : Nat) : Nat := (0xA400 + b) * 256 + (0x01 + i)
/-- 0xA440+d:01 DIE_CYCLES (R476). -/
def dieCycles (d : Nat) : Nat := (0xA440 + d) * 256 + 0x01
/-- 0x2030:01 INPUT_VOLTAGE (R495). -/
def inputVoltage : Nat := 0x2030 * 256 + 0x01
/-- 0x2030:02 INPUT_CURRENT (R495). -/
def inputCurrent : Nat := 0x2030 * 256 + 0x02
/-- 0x2030:03 INPUT_POWER (R495). -/
def inputPower : Nat := 0x2030 * 256 + 0x03
/-- 0x2030:04 PKG_POWER_LIMIT (R495). -/
def pkgPowerLimit : Nat := 0x2030 * 256 + 0x04
/-- 0x2030:05 THROTTLE_US (R495). -/
def throttleUs : Nat := 0x2030 * 256 + 0x05
/-- 0x2031:01–11 SENSOR_TEMP (R495). -/
def sensorTemp (i : Nat) : Nat := 0x2031 * 256 + (0x01 + i)
/-- 0x2032:01 THROTTLE_THRESHOLD (R495). -/
def throttleThreshold : Nat := 0x2032 * 256 + 0x01
/-- 0x2032:02 THERMAL_TRIPS (R495). -/
def thermalTrips : Nat := 0x2032 * 256 + 0x02
/-- 0x2033:01–04 DIE_CLOCK (R495). -/
def dieClock (i : Nat) : Nat := 0x2033 * 256 + (0x01 + i)
/-- 0x5410+s:03 RG_MEMBERS (R300). -/
def nextRgMembers (s : Nat) : Nat := (0x5410 + s) * 256 + 0x03
/-- 0x5410+s:04 RG_INDEX (R300). -/
def nextRgIndex (s : Nat) : Nat := (0x5410 + s) * 256 + 0x04
/-- 0x5410+s:05 RG_SCALE (R300). -/
def nextRgScale (s : Nat) : Nat := (0x5410 + s) * 256 + 0x05
/-- 0x5410+s:06 RG_CARRY_E (R300). -/
def nextRgCarryE (s : Nat) : Nat := (0x5410 + s) * 256 + 0x06
/-- 0x5410+s:07 RG_GATHER_FMT (R300). -/
def nextRgGatherFmt (s : Nat) : Nat := (0x5410 + s) * 256 + 0x07
/-- 0x5410+s:08 RG_LR_STREAM (R300). -/
def nextRgLrStream (s : Nat) : Nat := (0x5410 + s) * 256 + 0x08
/-- 0x5420+s:01 BUCKET_TABLE (R300). -/
def nextBucketTable (s : Nat) : Nat := (0x5420 + s) * 256 + 0x01
/-- 0x5500+c:02 RC_SLOT (R300). -/
def nextRcSlot (c : Nat) : Nat := (0x5500 + c) * 256 + 0x02
/-- 0x5500+c:03 RC_NEXT (R300). -/
def nextRcNext (c : Nat) : Nat := (0x5500 + c) * 256 + 0x03
/-- 0x5500+c:04 RC_PREV (R300). -/
def nextRcPrev (c : Nat) : Nat := (0x5500 + c) * 256 + 0x04
/-- 0x5500+c:05 RC_MODE (R300). -/
def nextRcMode (c : Nat) : Nat := (0x5500 + c) * 256 + 0x05
/-- 0x5500+c:06 RC_RANK (R300). -/
def nextRcRank (c : Nat) : Nat := (0x5500 + c) * 256 + 0x06

end O

/-- The index of a key. -/
def keyIndex (k : Nat) : Nat := k / 256

/-- The subindex of a key. -/
def keySub (k : Nat) : Nat := k % 256

/-- Object table rows of the indexes 0x0000 to 0x0FFF, part 1. -/
def objRows0a : List ObjRow := [
  -- 0x0001:01 TYPE_SIZE
  ⟨0x0001, 12, 0x1, 0x01, 0x01, .u16, .const, .any⟩]

/-- Object table rows of the indexes 0x1000 to 0x1FFF, part 1. -/
def objRows1a : List ObjRow := [
  -- 0x1000:01 VENDOR_NAME
  ⟨0x1000, 1, 0x1, 0x01, 0x01, .vstr, .const, .any⟩,
  -- 0x1000:02 DEVICE_NAME
  ⟨0x1000, 1, 0x1, 0x02, 0x02, .vstr, .const, .any⟩,
  -- 0x1000:03 PACKAGE_SERIAL
  ⟨0x1000, 1, 0x1, 0x03, 0x03, .vstr, .const, .any⟩,
  -- 0x1000:04 COMPUTE_STEPPING
  ⟨0x1000, 1, 0x1, 0x04, 0x04, .u8, .const, .any⟩,
  -- 0x1000:05 IOD_STEPPING
  ⟨0x1000, 1, 0x1, 0x05, 0x05, .u8, .const, .any⟩,
  -- 0x1000:06 GENERATION
  ⟨0x1000, 1, 0x1, 0x06, 0x06, .u8, .const, .any⟩,
  -- 0x1000:07 MANUAL_ISSUE
  ⟨0x1000, 1, 0x1, 0x07, 0x07, .u16, .const, .any⟩,
  -- 0x1000:08 FIRMWARE_VERSION
  ⟨0x1000, 1, 0x1, 0x08, 0x08, .u32, .ro, .any⟩,
  -- 0x1100:01 CUT_LIST_FORMAT
  ⟨0x1100, 1, 0x1, 0x01, 0x01, .u8, .const, .any⟩,
  -- 0x1100:02 CUT_LIST_STATE
  ⟨0x1100, 1, 0x1, 0x02, 0x02, .u8, .ro, .any⟩,
  -- 0x1100:03 CUT_LIST_DIGEST
  ⟨0x1100, 1, 0x1, 0x03, 0x03, .u32, .ro, .any⟩,
  -- 0x1100:04 CUT_LIST_REVISION
  ⟨0x1100, 1, 0x1, 0x04, 0x04, .u32, .ro, .any⟩,
  -- 0x1102:01–57 ENTRY
  ⟨0x1102, 1, 0x1, 0x01, 0x57, .u32, .const, .any⟩,
  -- 0x1108:01 entry kind code
  ⟨0x1108, 5, 0x1, 0x01, 0x01, .u8, .const, .any⟩,
  -- 0x1108+d:02 DIE_CODE
  ⟨0x1108, 5, 0x1, 0x02, 0x02, .u8, .const, .any⟩,
  -- 0x1108+d:03 DIE_STEPPING
  ⟨0x1108, 5, 0x1, 0x03, 0x03, .u8, .const, .any⟩,
  -- 0x1108+d:04 CAPABILITY_MASK
  ⟨0x1108, 5, 0x1, 0x04, 0x04, .u64, .const, .any⟩,
  -- 0x1108+d:05 DIE_STATE
  ⟨0x1108, 5, 0x1, 0x05, 0x05, .u8, .ro, .any⟩,
  -- 0x1108+d:06 SPARE_PHYSICAL_BENT
  ⟨0x1108, 5, 0x1, 0x06, 0x06, .u8, .const, .any⟩,
  -- 0x1110:01 entry kind code
  ⟨0x1110, 1, 0x1, 0x01, 0x01, .u8, .const, .any⟩,
  -- 0x1110:02 EFFECTIVE_MASK
  ⟨0x1110, 1, 0x1, 0x02, 0x02, .u64, .ro, .any⟩,
  -- 0x1120:01 entry kind code
  ⟨0x1120, 48, 0x1, 0x01, 0x01, .u8, .const, .any⟩,
  -- 0x1120+b:02 LOGICAL_BENT
  ⟨0x1120, 48, 0x1, 0x02, 0x02, .u8, .const, .any⟩,
  -- 0x1120+b:03 BENT_DIE
  ⟨0x1120, 48, 0x1, 0x03, 0x03, .u8, .const, .any⟩,
  -- 0x1120+b:04 PHYSICAL_BENT
  ⟨0x1120, 48, 0x1, 0x04, 0x04, .u8, .const, .any⟩,
  -- 0x1120+b:05 FIRST_CORE
  ⟨0x1120, 48, 0x1, 0x05, 0x05, .u16, .const, .any⟩,
  -- 0x1120+b:06 BENT_STATE
  ⟨0x1120, 48, 0x1, 0x06, 0x06, .u8, .ro, .any⟩,
  -- 0x1150:01 entry kind code
  ⟨0x1150, 12, 0x1, 0x01, 0x01, .u8, .const, .any⟩,
  -- 0x1150+k:02 STACK
  ⟨0x1150, 12, 0x1, 0x02, 0x02, .u8, .const, .any⟩,
  -- 0x1150+k:03 STACK_DIE
  ⟨0x1150, 12, 0x1, 0x03, 0x03, .u8, .const, .any⟩]

/-- Object table rows of the indexes 0x1000 to 0x1FFF, part 2. -/
def objRows1b : List ObjRow := [
  -- 0x1150+k:04 STACK_CONTROLLER
  ⟨0x1150, 12, 0x1, 0x04, 0x04, .u8, .const, .any⟩,
  -- 0x1150+k:05 RAW_CAPACITY
  ⟨0x1150, 12, 0x1, 0x05, 0x05, .u16, .const, .any⟩,
  -- 0x1150+k:06 PAGE_FRAMES
  ⟨0x1150, 12, 0x1, 0x06, 0x06, .u32, .ro, .any⟩,
  -- 0x1150+k:07 STACK_STATE
  ⟨0x1150, 12, 0x1, 0x07, 0x07, .u8, .ro, .any⟩,
  -- 0x1160:01 entry kind code
  ⟨0x1160, 10, 0x1, 0x01, 0x01, .u8, .const, .any⟩,
  -- 0x1160+n:02 LINK
  ⟨0x1160, 10, 0x1, 0x02, 0x02, .u8, .const, .any⟩,
  -- 0x1160+n:03 END_A
  ⟨0x1160, 10, 0x1, 0x03, 0x03, .u8, .const, .any⟩,
  -- 0x1160+n:04 END_B
  ⟨0x1160, 10, 0x1, 0x04, 0x04, .u8, .const, .any⟩,
  -- 0x1160+n:05 LINK_MEDIUM
  ⟨0x1160, 10, 0x1, 0x05, 0x05, .u8, .const, .any⟩,
  -- 0x1160+n:06 LINK_WIDTH
  ⟨0x1160, 10, 0x1, 0x06, 0x06, .u8, .ro, .any⟩,
  -- 0x1160+n:07 LINK_STATE
  ⟨0x1160, 10, 0x1, 0x07, 0x07, .u8, .ro, .any⟩,
  -- 0x1170:01 entry kind code
  ⟨0x1170, 10, 0x1, 0x01, 0x01, .u8, .const, .any⟩,
  -- 0x1170+n:02 PORT
  ⟨0x1170, 10, 0x1, 0x02, 0x02, .u8, .const, .any⟩,
  -- 0x1170+n:03 PORT_LANES
  ⟨0x1170, 10, 0x1, 0x03, 0x03, .u8, .const, .any⟩,
  -- 0x1170+n:04 PORT_FIBRES
  ⟨0x1170, 10, 0x1, 0x04, 0x04, .u8, .const, .any⟩,
  -- 0x1170+n:05 LANES_PASSING
  ⟨0x1170, 10, 0x1, 0x05, 0x05, .u8, .ro, .any⟩,
  -- 0x1170+n:06 PORT_STATE
  ⟨0x1170, 10, 0x1, 0x06, 0x06, .u8, .ro, .any⟩,
  -- 0x1180:01 entry kind code
  ⟨0x1180, 1, 0x1, 0x01, 0x01, .u8, .const, .any⟩,
  -- 0x1180:02 DECODE_CLUSTERS
  ⟨0x1180, 1, 0x1, 0x02, 0x02, .u8, .const, .any⟩,
  -- 0x1180:03 DECODE_ENGINES
  ⟨0x1180, 1, 0x1, 0x03, 0x03, .u8, .const, .any⟩,
  -- 0x1180:04 AUDIO_DECODERS
  ⟨0x1180, 1, 0x1, 0x04, 0x04, .u8, .const, .any⟩,
  -- 0x1180:05 CAPTION_EXTRACTORS
  ⟨0x1180, 1, 0x1, 0x05, 0x05, .u8, .const, .any⟩,
  -- 0x1180:06 SHUFFLE_ENGINES
  ⟨0x1180, 1, 0x1, 0x06, 0x06, .u8, .const, .any⟩,
  -- 0x1200:01 TALLY_MAC
  ⟨0x1200, 1, 0x1, 0x01, 0x01, .u64, .const, .any⟩,
  -- 0x1200:02 TALLY_ETHERTYPE
  ⟨0x1200, 1, 0x1, 0x02, 0x02, .u16, .const, .any⟩,
  -- 0x1200:03 TALLY_VLAN
  ⟨0x1200, 1, 0x1, 0x03, 0x03, .u16, .rws, .range 0 4094⟩,
  -- 0x1200:04 TALLY_PRIORITY
  ⟨0x1200, 1, 0x1, 0x04, 0x04, .u8, .rws, .range 0 7⟩,
  -- 0x1201:01 FRAMES_RECEIVED
  ⟨0x1201, 1, 0x1, 0x01, 0x01, .u64, .ro, .any⟩,
  -- 0x1201:02 FRAMES_SENT
  ⟨0x1201, 1, 0x1, 0x02, 0x02, .u64, .ro, .any⟩,
  -- 0x1201:03 CHECK_ERRORS
  ⟨0x1201, 1, 0x1, 0x03, 0x03, .u64, .ro, .any⟩]

/-- Object table rows of the indexes 0x1000 to 0x1FFF, part 3. -/
def objRows1c : List ObjRow := [
  -- 0x1201:04 VERSION_ERRORS
  ⟨0x1201, 1, 0x1, 0x04, 0x04, .u64, .ro, .any⟩,
  -- 0x1201:05 EVENTS_DROPPED
  ⟨0x1201, 1, 0x1, 0x05, 0x05, .u64, .ro, .any⟩,
  -- 0x1202:01 SESSIONS_OPEN
  ⟨0x1202, 1, 0x1, 0x01, 0x01, .u8, .ro, .any⟩,
  -- 0x1202:02 SESSION_IDLE_LIMIT
  ⟨0x1202, 1, 0x1, 0x02, 0x02, .u16, .rws, .range 5 3600⟩,
  -- 0x1203:01 FRAME_TRACE
  ⟨0x1203, 1, 0x1, 0x01, 0x01, .dom, .ro, .any⟩,
  -- 0x1204:01 TALLY_LINK_STATE
  ⟨0x1204, 1, 0x1, 0x01, 0x01, .u8, .ro, .any⟩,
  -- 0x1204:02 TALLY_FEC
  ⟨0x1204, 1, 0x1, 0x02, 0x02, .u8, .rws, .range 0 1⟩,
  -- 0x1204:03 TALLY_DISCARDED
  ⟨0x1204, 1, 0x1, 0x03, 0x03, .u32, .rw, .clear⟩,
  -- 0x1300:01 MGMT_WINDOW_BAR
  ⟨0x1300, 1, 0x1, 0x01, 0x01, .u8, .const, .any⟩,
  -- 0x1300:02 MGMT_WINDOW_OFFSET
  ⟨0x1300, 1, 0x1, 0x02, 0x02, .u64, .const, .any⟩,
  -- 0x1300:03 MGMT_WINDOW_SIZE
  ⟨0x1300, 1, 0x1, 0x03, 0x03, .u32, .const, .any⟩,
  -- 0x1301:01 HOST_LINK_STATE
  ⟨0x1301, 1, 0x1, 0x01, 0x01, .u8, .ro, .any⟩,
  -- 0x1301:02 HOST_LANES_USED
  ⟨0x1301, 1, 0x1, 0x02, 0x02, .u8, .ro, .any⟩,
  -- 0x1301:03 HOST_WIDTH
  ⟨0x1301, 1, 0x1, 0x03, 0x03, .u8, .ro, .any⟩,
  -- 0x1301:04 HOST_L0P
  ⟨0x1301, 1, 0x1, 0x04, 0x04, .u8, .rw, .range 0 1⟩,
  -- 0x1301:05 HOST_LINK_DOWNS
  ⟨0x1301, 1, 0x1, 0x05, 0x05, .u32, .rw, .clear⟩,
  -- 0x1301:06 HOST_REPLAYS
  ⟨0x1301, 1, 0x1, 0x06, 0x06, .u64, .rw, .clear⟩,
  -- 0x1302:01 LOSS_RING_BASE
  ⟨0x1302, 1, 0x1, 0x01, 0x01, .u64, .rw, .multiple 4096⟩,
  -- 0x1302:02 LOSS_RING_ENTRIES
  ⟨0x1302, 1, 0x1, 0x02, 0x02, .u32, .rw, .powerOr0 64 65536⟩,
  -- 0x1302:03 LOSS_RING_HEAD
  ⟨0x1302, 1, 0x1, 0x03, 0x03, .u32, .ro, .any⟩,
  -- 0x1302:04 LOSS_RING_TAIL
  ⟨0x1302, 1, 0x1, 0x04, 0x04, .u32, .rw, .any⟩,
  -- 0x1302:05 LOSS_DROPPED
  ⟨0x1302, 1, 0x1, 0x05, 0x05, .u32, .rw, .clear⟩,
  -- 0x1302:06 LOSS_BASE
  ⟨0x1302, 1, 0x1, 0x06, 0x06, .u64, .rw, .any⟩,
  -- 0x1400:01 LEVEL_MAX_TALLY
  ⟨0x1400, 1, 0x1, 0x01, 0x01, .u8, .rws, .range 0 1⟩,
  -- 0x1400:02 LEVEL_MAX_HOST
  ⟨0x1400, 1, 0x1, 0x02, 0x02, .u8, .rws, .range 0 1⟩,
  -- 0x1400:03 LEVEL_MAX_TORUS
  ⟨0x1400, 1, 0x1, 0x03, 0x03, .u8, .rws, .range 0 1⟩,
  -- 0x1401:01 SERVICE_KEY_ID
  ⟨0x1401, 1, 0x1, 0x01, 0x01, .u32, .const, .any⟩,
  -- 0x1401:02 SERVICE_NONCE
  ⟨0x1401, 1, 0x1, 0x02, 0x02, .u64, .ro, .any⟩,
  -- 0x1401:03 SERVICE_FAILURES
  ⟨0x1401, 1, 0x1, 0x03, 0x03, .u32, .ro, .any⟩,
  -- 0x1401:04 SERVICE_PUBLIC_KEY
  ⟨0x1401, 1, 0x1, 0x04, 0x04, .dom, .const, .any⟩]

/-- Object table rows of the indexes 0x1000 to 0x1FFF, part 4. -/
def objRows1d : List ObjRow := [
  -- 0x1402:01 RESTORE_STORED
  ⟨0x1402, 1, 0x1, 0x01, 0x01, .u8, .wo, .range 0 1⟩]

/-- Object table rows of the indexes 0x2000 to 0x2FFF, part 1. -/
def objRows2a : List ObjRow := [
  -- 0x2000:01 START_STATE
  ⟨0x2000, 1, 0x1, 0x01, 0x01, .u8, .ro, .any⟩,
  -- 0x2000:02 START_STEP
  ⟨0x2000, 1, 0x1, 0x02, 0x02, .u8, .ro, .any⟩,
  -- 0x2000:03 START_CONTROL
  ⟨0x2000, 1, 0x1, 0x03, 0x03, .u8, .wo, .range 1 2⟩,
  -- 0x2000:04 FALSE_STARTS
  ⟨0x2000, 1, 0x1, 0x04, 0x04, .u8, .ro, .any⟩,
  -- 0x2000:05 READY_TIME
  ⟨0x2000, 1, 0x1, 0x05, 0x05, .u32, .ro, .any⟩,
  -- 0x2001:01 WALK_REASON
  ⟨0x2001, 1, 0x1, 0x01, 0x01, .u8, .ro, .any⟩,
  -- 0x2001:02 WALK_REASON_TEXT
  ⟨0x2001, 1, 0x1, 0x02, 0x02, .vstr, .ro, .any⟩,
  -- 0x2001:03 BOOT_SLOT_USED
  ⟨0x2001, 1, 0x1, 0x03, 0x03, .u8, .ro, .any⟩,
  -- 0x2001:04 LAST_FALSE_START_STEP
  ⟨0x2001, 1, 0x1, 0x04, 0x04, .u8, .ro, .any⟩,
  -- 0x2001:05 LAST_RESET_CAUSE
  ⟨0x2001, 1, 0x1, 0x05, 0x05, .u8, .ro, .any⟩,
  -- 0x2001:06 STARTS
  ⟨0x2001, 1, 0x1, 0x06, 0x06, .u32, .ro, .any⟩,
  -- 0x2002:01 BOOT_PREFERENCE
  ⟨0x2002, 1, 0x1, 0x01, 0x01, .u8, .rws, .range 0 1⟩,
  -- 0x2002:02 BOOT_SLOT_STATUS
  ⟨0x2002, 1, 0x1, 0x02, 0x02, .u8, .ro, .any⟩,
  -- 0x2002:03 SLOT_A_VERSION
  ⟨0x2002, 1, 0x1, 0x03, 0x03, .u32, .ro, .any⟩,
  -- 0x2002:04 SLOT_B_VERSION
  ⟨0x2002, 1, 0x1, 0x04, 0x04, .u32, .ro, .any⟩,
  -- 0x2002:05 BOOT_IMAGE_A
  ⟨0x2002, 1, 0x1, 0x05, 0x05, .dom, .wo, .any⟩,
  -- 0x2002:06 BOOT_IMAGE_B
  ⟨0x2002, 1, 0x1, 0x06, 0x06, .dom, .wo, .any⟩,
  -- 0x2002:07 BOOT_SLOT_CONTROL
  ⟨0x2002, 1, 0x1, 0x07, 0x07, .u8, .wo, .range 1 4⟩,
  -- 0x2002:08 MIN_SECURITY_VERSION
  ⟨0x2002, 1, 0x1, 0x08, 0x08, .u16, .ro, .any⟩,
  -- 0x2002:09 FIRMWARE_PUBLIC_KEY
  ⟨0x2002, 1, 0x1, 0x09, 0x09, .dom, .const, .any⟩,
  -- 0x2010:01–50 DOMAIN_STATE
  ⟨0x2010, 1, 0x1, 0x01, 0x50, .u8, .ro, .any⟩,
  -- 0x2011:01–50 DOMAIN_CONTROL
  ⟨0x2011, 1, 0x1, 0x01, 0x50, .u8, .wo, .range 1 2⟩,
  -- 0x2012:01–50 DOMAIN_PENDING
  ⟨0x2012, 1, 0x1, 0x01, 0x50, .u8, .ro, .any⟩,
  -- 0x2013:01–50 DOMAIN_TRANSITIONS
  ⟨0x2013, 1, 0x1, 0x01, 0x50, .u32, .rw, .clear⟩,
  -- 0x2014:01–04 DIE_CONTROL
  ⟨0x2014, 1, 0x1, 0x01, 0x04, .u8, .wo, .range 1 1⟩,
  -- 0x2020:01 INPUT_LEVELS
  ⟨0x2020, 1, 0x1, 0x01, 0x01, .u8, .ro, .any⟩,
  -- 0x2020:02 PWR_EN_REJECTED
  ⟨0x2020, 1, 0x1, 0x02, 0x02, .u32, .rw, .clear⟩,
  -- 0x2020:03 RST_N_ASSERTIONS
  ⟨0x2020, 1, 0x1, 0x03, 0x03, .u32, .rw, .clear⟩,
  -- 0x2020:04 GLITCHES_FILTERED
  ⟨0x2020, 1, 0x1, 0x04, 0x04, .u32, .rw, .clear⟩,
  -- 0x2030:01 INPUT_VOLTAGE
  ⟨0x2030, 1, 0x1, 0x01, 0x01, .u32, .ro, .any⟩]

/-- Object table rows of the indexes 0x2000 to 0x2FFF, part 2. -/
def objRows2b : List ObjRow := [
  -- 0x2030:02 INPUT_CURRENT
  ⟨0x2030, 1, 0x1, 0x02, 0x02, .u32, .ro, .any⟩,
  -- 0x2030:03 INPUT_POWER
  ⟨0x2030, 1, 0x1, 0x03, 0x03, .u32, .ro, .any⟩,
  -- 0x2030:04 PKG_POWER_LIMIT
  ⟨0x2030, 1, 0x1, 0x04, 0x04, .u16, .rws, .range 600 2400⟩,
  -- 0x2030:05 THROTTLE_US
  ⟨0x2030, 1, 0x1, 0x05, 0x05, .u64, .rw, .clear⟩,
  -- 0x2031:01–11 SENSOR_TEMP
  ⟨0x2031, 1, 0x1, 0x01, 0x11, .i32, .ro, .any⟩,
  -- 0x2032:01 THROTTLE_THRESHOLD
  ⟨0x2032, 1, 0x1, 0x01, 0x01, .u8, .rws, .range 85 105⟩,
  -- 0x2032:02 THERMAL_TRIPS
  ⟨0x2032, 1, 0x1, 0x02, 0x02, .u32, .ro, .any⟩,
  -- 0x2033:01–04 DIE_CLOCK
  ⟨0x2033, 1, 0x1, 0x01, 0x04, .u16, .ro, .any⟩]

/-- Object table rows of the indexes 0x3000 to 0x3FFF, part 1. -/
def objRows3a : List ObjRow := [
  -- B+0x00:01–40 CORE_STATE
  ⟨0x3000, 48, 0x40, 0x01, 0x40, .u8, .ro, .any⟩,
  -- B+0x01:01–40 CORE_CONTROL
  ⟨0x3001, 48, 0x40, 0x01, 0x40, .u8, .wo, .range 1 3⟩,
  -- B+0x02:01–40 CORE_ENTRY
  ⟨0x3002, 48, 0x40, 0x01, 0x40, .u32, .rw, .any⟩,
  -- B+0x03:01–40 CORE_DPTR
  ⟨0x3003, 48, 0x40, 0x01, 0x40, .u32, .ro, .any⟩,
  -- B+0x04:01–40 CORE_FAULT
  ⟨0x3004, 48, 0x40, 0x01, 0x40, .u32, .ro, .any⟩,
  -- B+0x05:01–40 CORE_HALT_CODE
  ⟨0x3005, 48, 0x40, 0x01, 0x40, .u8, .ro, .any⟩,
  -- B+0x06:01–40 CORE_FLAGS
  ⟨0x3006, 48, 0x40, 0x01, 0x40, .u16, .ro, .any⟩,
  -- B+0x07:01–40 CORE_FP_STATUS
  ⟨0x3007, 48, 0x40, 0x01, 0x40, .u8, .rw, .any⟩,
  -- B+0x08:01–40 CORE_RETIRED
  ⟨0x3008, 48, 0x40, 0x01, 0x40, .u64, .ro, .any⟩,
  -- B+0x09:01–40 CORE_SIGNALS_LOST
  ⟨0x3009, 48, 0x40, 0x01, 0x40, .u32, .ro, .any⟩,
  -- B+0x0A:01–40 CORE_MEMORY
  ⟨0x300A, 48, 0x40, 0x01, 0x40, .dom, .rw, .any⟩,
  -- B+0x0B:01 WD_LIMIT
  ⟨0x300B, 48, 0x40, 0x01, 0x01, .u32, .rws, .range 100 100000⟩,
  -- B+0x0B:02 WD_EXPIRIES
  ⟨0x300B, 48, 0x40, 0x02, 0x02, .u32, .ro, .any⟩,
  -- B+0x10:01–40 MX_TILE0_STATUS
  ⟨0x3010, 48, 0x40, 0x01, 0x40, .u32, .ro, .any⟩,
  -- B+0x11:01–40 MX_TILE1_STATUS
  ⟨0x3011, 48, 0x40, 0x01, 0x40, .u32, .ro, .any⟩,
  -- B+0x12:01–40 MX_TILE2_STATUS
  ⟨0x3012, 48, 0x40, 0x01, 0x40, .u32, .ro, .any⟩,
  -- B+0x13:01–40 MX_TILE3_STATUS
  ⟨0x3013, 48, 0x40, 0x01, 0x40, .u32, .ro, .any⟩,
  -- B+0x14:01–40 MX_RANGE_LOW
  ⟨0x3014, 48, 0x40, 0x01, 0x40, .u32, .rw, .clear⟩,
  -- B+0x15:01–40 MX_RETRIES
  ⟨0x3015, 48, 0x40, 0x01, 0x40, .u32, .rw, .clear⟩,
  -- B+0x16:01–40 MX_SATURATED
  ⟨0x3016, 48, 0x40, 0x01, 0x40, .u32, .rw, .clear⟩,
  -- B+0x17:01–40 MX_CHAIN_FULL
  ⟨0x3017, 48, 0x40, 0x01, 0x40, .bool, .ro, .any⟩,
  -- B+0x18:01–40 VX_RNG_STREAM
  ⟨0x3018, 48, 0x40, 0x01, 0x40, .u32, .ro, .any⟩,
  -- B+0x19:01–40 VX_RNG_TENSOR
  ⟨0x3019, 48, 0x40, 0x01, 0x40, .u16, .ro, .any⟩,
  -- B+0x1A:01–40 VX_RNG_STEP
  ⟨0x301A, 48, 0x40, 0x01, 0x40, .u32, .ro, .any⟩,
  -- B+0x1B:01–40 VX_RNG_MICRO_BATCH
  ⟨0x301B, 48, 0x40, 0x01, 0x40, .u16, .ro, .any⟩,
  -- B+0x1C:01–40 VX_RNG_ELEM_BASE
  ⟨0x301C, 48, 0x40, 0x01, 0x40, .u64, .ro, .any⟩,
  -- B+0x1D:01 RNG_SEED
  ⟨0x301D, 48, 0x40, 0x01, 0x01, .u64, .rw, .any⟩,
  -- B+0x1E:01–40 VX_ROWS_EMPTY
  ⟨0x301E, 48, 0x40, 0x01, 0x40, .u32, .rw, .clear⟩,
  -- B+0x1F:01–40 VX_ROWS_NAN
  ⟨0x301F, 48, 0x40, 0x01, 0x40, .u32, .rw, .clear⟩,
  -- B+0x20:01–40 QUEUE_CONFIG
  ⟨0x3020, 48, 0x40, 0x01, 0x40, .u64, .rw, .any⟩]

/-- Object table rows of the indexes 0x3000 to 0x3FFF, part 2. -/
def objRows3b : List ObjRow := [
  -- B+0x21:01–40 QUEUE_CONTROL
  ⟨0x3021, 48, 0x40, 0x01, 0x40, .u8, .wo, .any⟩,
  -- B+0x22:01–40 QUEUE_STATE
  ⟨0x3022, 48, 0x40, 0x01, 0x40, .u8, .ro, .any⟩,
  -- B+0x23:01–40 QUEUE_GEN
  ⟨0x3023, 48, 0x40, 0x01, 0x40, .u16, .ro, .any⟩,
  -- B+0x24:01–40 QUEUE_OCCUPANCY
  ⟨0x3024, 48, 0x40, 0x01, 0x40, .u32, .ro, .any⟩,
  -- B+0x25:01–40 QUEUE_HEAD
  ⟨0x3025, 48, 0x40, 0x01, 0x40, .dom, .ro, .any⟩,
  -- B+0x26:01–40 QUEUE_ROUND_SLOTS
  ⟨0x3026, 48, 0x40, 0x01, 0x40, .u64, .ro, .any⟩,
  -- B+0x27:01–40 QUEUE_DROPPED
  ⟨0x3027, 48, 0x40, 0x01, 0x40, .u32, .rw, .clear⟩,
  -- B+0x28:01–40 ENDPOINT_TABLE
  ⟨0x3028, 48, 0x40, 0x01, 0x40, .dom, .rw, .any⟩,
  -- B+0x29:01 CH_WAIT_LIMIT
  ⟨0x3029, 48, 0x40, 0x01, 0x01, .u32, .rws, .range 1000 1000000⟩,
  -- B+0x2A:01 WAIT_CORE
  ⟨0x302A, 48, 0x40, 0x01, 0x01, .u8, .ro, .any⟩,
  -- B+0x2A:02 WAIT_KIND
  ⟨0x302A, 48, 0x40, 0x02, 0x02, .u8, .ro, .any⟩,
  -- B+0x2A:03 WAIT_QUEUE
  ⟨0x302A, 48, 0x40, 0x03, 0x03, .u32, .ro, .any⟩,
  -- B+0x2A:04 PEER_CORE
  ⟨0x302A, 48, 0x40, 0x04, 0x04, .u16, .ro, .any⟩,
  -- B+0x2A:05 PEER_STATE
  ⟨0x302A, 48, 0x40, 0x05, 0x05, .u8, .ro, .any⟩,
  -- B+0x2A:06 PEER_WAIT_QUEUE
  ⟨0x302A, 48, 0x40, 0x06, 0x06, .u32, .ro, .any⟩,
  -- B+0x2B:01 CH_SENT
  ⟨0x302B, 48, 0x40, 0x01, 0x01, .u64, .ro, .any⟩,
  -- B+0x2B:02 CH_RECEIVED
  ⟨0x302B, 48, 0x40, 0x02, 0x02, .u64, .ro, .any⟩,
  -- B+0x2B:03 CH_REFUSED_STALE
  ⟨0x302B, 48, 0x40, 0x03, 0x03, .u32, .rw, .clear⟩,
  -- B+0x2B:04 CH_REFUSED_CLOSED
  ⟨0x302B, 48, 0x40, 0x04, 0x04, .u32, .rw, .clear⟩,
  -- B+0x2B:05 CH_WAIT_EXPIRIES
  ⟨0x302B, 48, 0x40, 0x05, 0x05, .u32, .rw, .clear⟩,
  -- B+0x2B:06 CH_CYCLE_OVERRIDDEN
  ⟨0x302B, 48, 0x40, 0x06, 0x06, .u32, .rw, .clear⟩,
  -- B+0x2C:01 CH_CYCLE_OVERRIDE
  ⟨0x302C, 48, 0x40, 0x01, 0x01, .bool, .rw, .any⟩,
  -- B+0x30:01 PACER_STAGE
  ⟨0x3030, 48, 0x40, 0x01, 0x01, .u8, .ro, .any⟩,
  -- B+0x30:02 PACER_ROLE
  ⟨0x3030, 48, 0x40, 0x02, 0x02, .u8, .ro, .any⟩,
  -- B+0x32:01 PM_RESIDENT
  ⟨0x3032, 48, 0x40, 0x01, 0x01, .u16, .ro, .any⟩,
  -- B+0x32:02 PM_HITS
  ⟨0x3032, 48, 0x40, 0x02, 0x02, .u64, .ro, .any⟩,
  -- B+0x32:03 PM_MISSES
  ⟨0x3032, 48, 0x40, 0x03, 0x03, .u64, .ro, .any⟩,
  -- B+0x32:04 PM_PREFETCHED
  ⟨0x3032, 48, 0x40, 0x04, 0x04, .u64, .ro, .any⟩,
  -- B+0x32:05 PM_EVICTED
  ⟨0x3032, 48, 0x40, 0x05, 0x05, .u64, .ro, .any⟩,
  -- B+0x33:01 OPT_UPDATED
  ⟨0x3033, 48, 0x40, 0x01, 0x01, .u64, .ro, .any⟩]

/-- Object table rows of the indexes 0x3000 to 0x3FFF, part 3. -/
def objRows3c : List ObjRow := [
  -- B+0x34:01 BENT_TIMEOUT
  ⟨0x3034, 48, 0x40, 0x01, 0x01, .u32, .rws, .range 2000 10000000⟩,
  -- B+0x34:02 BENT_EXPIRIES
  ⟨0x3034, 48, 0x40, 0x02, 0x02, .u32, .rw, .clear⟩]

/-- Object table rows of the indexes 0x4000 to 0x4FFF, part 1. -/
def objRows4a : List ObjRow := [
  -- 0x4000+s:01 STAGE_STATE
  ⟨0x4000, 16, 0x1, 0x01, 0x01, .u8, .ro, .any⟩,
  -- 0x4000+s:02 STAGE_CONTROL
  ⟨0x4000, 16, 0x1, 0x02, 0x02, .u8, .wo, .any⟩,
  -- 0x4000+s:03 JOB_STAGE
  ⟨0x4000, 16, 0x1, 0x03, 0x03, .u16, .rw, .range 0 4095⟩,
  -- 0x4000+s:04 JOB_STAGES
  ⟨0x4000, 16, 0x1, 0x04, 0x04, .u16, .rw, .range 1 4096⟩,
  -- 0x4000+s:05 FIRST_BENT
  ⟨0x4000, 16, 0x1, 0x05, 0x05, .u8, .rw, .range 0 47⟩,
  -- 0x4000+s:06 BENT_COUNT
  ⟨0x4000, 16, 0x1, 0x06, 0x06, .u8, .rw, .range 1 48⟩,
  -- 0x4000+s:07 SEQ_SHARE
  ⟨0x4000, 16, 0x1, 0x07, 0x07, .u8, .rw, .range 1 128⟩,
  -- 0x4000+s:08 SEQ_SLICE
  ⟨0x4000, 16, 0x1, 0x08, 0x08, .u8, .rw, .any⟩,
  -- 0x4000+s:09 REPLICA
  ⟨0x4000, 16, 0x1, 0x09, 0x09, .u16, .rw, .any⟩,
  -- 0x4000+s:0A F_ENTRY
  ⟨0x4000, 16, 0x1, 0x0A, 0x0A, .u32, .rw, .any⟩,
  -- 0x4000+s:0B B_ENTRY
  ⟨0x4000, 16, 0x1, 0x0B, 0x0B, .u32, .rw, .any⟩,
  -- 0x4000+s:0C W_ENTRY
  ⟨0x4000, 16, 0x1, 0x0C, 0x0C, .u32, .rw, .any⟩,
  -- 0x4000+s:0D IN_FLIGHT_MAX
  ⟨0x4000, 16, 0x1, 0x0D, 0x0D, .u8, .rw, .range 1 64⟩,
  -- 0x4000+s:0E W_MODE
  ⟨0x4000, 16, 0x1, 0x0E, 0x0E, .u8, .rw, .range 0 1⟩,
  -- 0x4000+s:0F W_PENDING_MAX
  ⟨0x4000, 16, 0x1, 0x0F, 0x0F, .u8, .rw, .range 0 63⟩,
  -- 0x4000+s:10 MICRO_BATCHES
  ⟨0x4000, 16, 0x1, 0x10, 0x10, .u16, .rw, .range 1 4096⟩,
  -- 0x4000+s:11 IN_LANE
  ⟨0x4000, 16, 0x1, 0x11, 0x11, .u8, .rw, .rangeOr 63 255⟩,
  -- 0x4000+s:12 OUT_LANE
  ⟨0x4000, 16, 0x1, 0x12, 0x12, .u8, .rw, .rangeOr 63 255⟩,
  -- 0x4000+s:13 RET_IN_LANE
  ⟨0x4000, 16, 0x1, 0x13, 0x13, .u8, .rw, .rangeOr 63 255⟩,
  -- 0x4000+s:14 RET_OUT_LANE
  ⟨0x4000, 16, 0x1, 0x14, 0x14, .u8, .rw, .rangeOr 63 255⟩,
  -- 0x4000+s:15 STASH_BYTES_PER_TOKEN
  ⟨0x4000, 16, 0x1, 0x15, 0x15, .u32, .rw, .any⟩,
  -- 0x4000+s:16 STASH_ALLOT_PAGES
  ⟨0x4000, 16, 0x1, 0x16, 0x16, .u32, .rw, .any⟩,
  -- 0x4000+s:17 RESIDENT_PAGES
  ⟨0x4000, 16, 0x1, 0x17, 0x17, .u16, .rw, .range 0 512⟩,
  -- 0x4000+s:18 STAGE_TIME_BASE
  ⟨0x4000, 16, 0x1, 0x18, 0x18, .u32, .rws, .range 10000 60000000⟩,
  -- 0x4000+s:19 STAGE_TIME_PER_TOKEN
  ⟨0x4000, 16, 0x1, 0x19, 0x19, .u32, .rws, .range 0 1000000⟩,
  -- 0x4000+s:1A STASH_WORST_PAGES
  ⟨0x4000, 16, 0x1, 0x1A, 0x1A, .u32, .ro, .any⟩,
  -- 0x4000+s:1B STAGE_STEP
  ⟨0x4000, 16, 0x1, 0x1B, 0x1B, .u32, .ro, .any⟩,
  -- 0x4000+s:1C STAGE_FAULT
  ⟨0x4000, 16, 0x1, 0x1C, 0x1C, .u32, .ro, .any⟩,
  -- 0x4000+s:1D LEDGER_SLOTS
  ⟨0x4000, 16, 0x1, 0x1D, 0x1D, .u8, .ro, .any⟩,
  -- 0x4000+s:1E LEDGER_PAGES
  ⟨0x4000, 16, 0x1, 0x1E, 0x1E, .u32, .ro, .any⟩]

/-- Object table rows of the indexes 0x4000 to 0x4FFF, part 2. -/
def objRows4b : List ObjRow := [
  -- 0x4000+s:1F LAST_REFUSAL
  ⟨0x4000, 16, 0x1, 0x1F, 0x1F, .u64, .ro, .any⟩,
  -- 0x4000+s:20 STEP_FIRST_POSITION
  ⟨0x4000, 16, 0x1, 0x20, 0x20, .u64, .ro, .any⟩,
  -- 0x4000+s:21 STEP_FIRST_EPOCH
  ⟨0x4000, 16, 0x1, 0x21, 0x21, .u32, .ro, .any⟩,
  -- 0x4010+s:01 F_DONE
  ⟨0x4010, 16, 0x1, 0x01, 0x01, .u64, .rw, .clear⟩,
  -- 0x4010+s:02 B_DONE
  ⟨0x4010, 16, 0x1, 0x02, 0x02, .u64, .rw, .clear⟩,
  -- 0x4010+s:03 W_DONE
  ⟨0x4010, 16, 0x1, 0x03, 0x03, .u64, .rw, .clear⟩,
  -- 0x4010+s:04 W_IN_BUBBLE
  ⟨0x4010, 16, 0x1, 0x04, 0x04, .u64, .rw, .clear⟩,
  -- 0x4010+s:05 W_FORCED
  ⟨0x4010, 16, 0x1, 0x05, 0x05, .u64, .rw, .clear⟩,
  -- 0x4010+s:06 STARVE_US
  ⟨0x4010, 16, 0x1, 0x06, 0x06, .u64, .rw, .clear⟩,
  -- 0x4010+s:07 STAGE_EXPIRIES
  ⟨0x4010, 16, 0x1, 0x07, 0x07, .u32, .rw, .clear⟩,
  -- 0x4010+s:08 ADMITTED
  ⟨0x4010, 16, 0x1, 0x08, 0x08, .u64, .rw, .clear⟩,
  -- 0x4010+s:09 ADMIT_REFUSED
  ⟨0x4010, 16, 0x1, 0x09, 0x09, .u32, .rw, .clear⟩,
  -- 0x4020+s:01–40 SCHEDULE
  ⟨0x4020, 16, 0x1, 0x01, 0x40, .u16, .rw, .any⟩,
  -- 0x4040:01 PIPE_MAX_TOKENS
  ⟨0x4040, 1, 0x1, 0x01, 0x01, .u32, .rw, .range 1 4194304⟩,
  -- 0x4040:02 RET_LANE_DEPTH
  ⟨0x4040, 1, 0x1, 0x02, 0x02, .u8, .rw, .range 1 64⟩,
  -- 0x4040:03 RET_LANE_PAGES
  ⟨0x4040, 1, 0x1, 0x03, 0x03, .u32, .rw, .any⟩,
  -- 0x4040:04 RET_TOKEN_BYTES
  ⟨0x4040, 1, 0x1, 0x04, 0x04, .u32, .rw, .any⟩,
  -- 0x4100+n:01 LANE_STATE
  ⟨0x4100, 64, 0x1, 0x01, 0x01, .u8, .ro, .any⟩,
  -- 0x4100+n:02 LANE_DEPTH
  ⟨0x4100, 64, 0x1, 0x02, 0x02, .u8, .rw, .range 1 64⟩,
  -- 0x4100+n:03 LANE_PLANE
  ⟨0x4100, 64, 0x1, 0x03, 0x03, .u8, .rw, .range 0 1⟩,
  -- 0x4100+n:04 LANE_PAGES
  ⟨0x4100, 64, 0x1, 0x04, 0x04, .u32, .rw, .any⟩,
  -- 0x4100+n:05 LANE_MAX_TOKENS
  ⟨0x4100, 64, 0x1, 0x05, 0x05, .u32, .rw, .range 1 4194304⟩,
  -- 0x4100+n:06 LANE_TOKEN_BYTES
  ⟨0x4100, 64, 0x1, 0x06, 0x06, .u32, .rw, .any⟩,
  -- 0x4100+n:07 LANE_ROLE
  ⟨0x4100, 64, 0x1, 0x07, 0x07, .u8, .rw, .range 0 1⟩,
  -- 0x4100+n:08 LANE_STAGE
  ⟨0x4100, 64, 0x1, 0x08, 0x08, .u8, .rw, .range 0 15⟩,
  -- 0x4100+n:09 LANE_PEER_STAGE
  ⟨0x4100, 64, 0x1, 0x09, 0x09, .u16, .rw, .range 0 4095⟩,
  -- 0x4100+n:0A LANE_RELAY
  ⟨0x4100, 64, 0x1, 0x0A, 0x0A, .u8, .rw, .rangeOr 31 255⟩,
  -- 0x4100+n:0B LANE_PEER_LANE
  ⟨0x4100, 64, 0x1, 0x0B, 0x0B, .u8, .rw, .range 0 63⟩,
  -- 0x4100+n:0C LANE_CONTROL
  ⟨0x4100, 64, 0x1, 0x0C, 0x0C, .u8, .wo, .any⟩,
  -- 0x4100+n:0D LANE_GEN
  ⟨0x4100, 64, 0x1, 0x0D, 0x0D, .u16, .ro, .any⟩]

/-- Object table rows of the indexes 0x4000 to 0x4FFF, part 3. -/
def objRows4c : List ObjRow := [
  -- 0x4100+n:0E LANE_HELD
  ⟨0x4100, 64, 0x1, 0x0E, 0x0E, .u64, .ro, .any⟩,
  -- 0x4100+n:0F LANE_CREDIT
  ⟨0x4100, 64, 0x1, 0x0F, 0x0F, .u64, .ro, .any⟩,
  -- 0x4100+n:10 LANE_DROPPED
  ⟨0x4100, 64, 0x1, 0x10, 0x10, .u32, .rw, .clear⟩,
  -- 0x4200+r:01 RELAY_STATE
  ⟨0x4200, 32, 0x1, 0x01, 0x01, .u8, .ro, .any⟩,
  -- 0x4200+r:02 RELAY_CONTROL
  ⟨0x4200, 32, 0x1, 0x02, 0x02, .u8, .wo, .range 1 2⟩,
  -- 0x4200+r:03 RELAY_REMOTE
  ⟨0x4200, 32, 0x1, 0x03, 0x03, .u16, .rw, .range 0 16383⟩,
  -- 0x4200+r:04 RELAY_REMOTE_LINK
  ⟨0x4200, 32, 0x1, 0x04, 0x04, .u8, .rw, .range 0 31⟩,
  -- 0x4200+r:05 RELAY_DIRECTION
  ⟨0x4200, 32, 0x1, 0x05, 0x05, .u8, .rw, .range 0 1⟩,
  -- 0x4200+r:06 RELAY_GEN
  ⟨0x4200, 32, 0x1, 0x06, 0x06, .u16, .ro, .any⟩,
  -- 0x4200+r:07 RELAY_BYTES_SENT
  ⟨0x4200, 32, 0x1, 0x07, 0x07, .u64, .ro, .any⟩,
  -- 0x4200+r:08 RELAY_BYTES_RECEIVED
  ⟨0x4200, 32, 0x1, 0x08, 0x08, .u64, .ro, .any⟩,
  -- 0x4200+r:09 RELAY_DOWN_COUNT
  ⟨0x4200, 32, 0x1, 0x09, 0x09, .u32, .rw, .clear⟩,
  -- 0x4300:01 JOB_STATE
  ⟨0x4300, 1, 0x1, 0x01, 0x01, .u8, .ro, .any⟩,
  -- 0x4300:02 JOB_CONTROL
  ⟨0x4300, 1, 0x1, 0x02, 0x02, .u8, .wo, .range 1 2⟩,
  -- 0x4300:03 JOB_SEED
  ⟨0x4300, 1, 0x1, 0x03, 0x03, .u64, .rw, .any⟩,
  -- 0x4300:04 JOB_PACKAGES
  ⟨0x4300, 1, 0x1, 0x04, 0x04, .u16, .rw, .range 1 16384⟩,
  -- 0x4300:05 PIPE_PACKAGES
  ⟨0x4300, 1, 0x1, 0x05, 0x05, .u16, .rw, .range 1 256⟩,
  -- 0x4300:06 PIPE_INDEX
  ⟨0x4300, 1, 0x1, 0x06, 0x06, .u16, .rw, .any⟩,
  -- 0x4300:07 STAGES_PER_PACKAGE
  ⟨0x4300, 1, 0x1, 0x07, 0x07, .u8, .rw, .oneOf [1, 2, 3, 4, 6, 8, 12, 16]⟩,
  -- 0x4300:08 JOB_SEQ_SHARE
  ⟨0x4300, 1, 0x1, 0x08, 0x08, .u8, .rw, .range 1 128⟩,
  -- 0x4300:09 REPLICAS
  ⟨0x4300, 1, 0x1, 0x09, 0x09, .u16, .rw, .range 1 16384⟩,
  -- 0x4300:0A PIPE_AXIS
  ⟨0x4300, 1, 0x1, 0x0A, 0x0A, .u8, .rw, .range 0 2⟩,
  -- 0x4300:0B SEQ_AXIS
  ⟨0x4300, 1, 0x1, 0x0B, 0x0B, .u8, .rw, .range 0 2⟩,
  -- 0x4310+s:01 RING_STATE
  ⟨0x4310, 16, 0x1, 0x01, 0x01, .u8, .ro, .any⟩,
  -- 0x4310+s:02 RING_PREV
  ⟨0x4310, 16, 0x1, 0x02, 0x02, .u16, .rw, .range 0 16383⟩,
  -- 0x4310+s:03 RING_NEXT
  ⟨0x4310, 16, 0x1, 0x03, 0x03, .u16, .rw, .range 0 16383⟩,
  -- 0x4310+s:04 RING_IN_RELAY
  ⟨0x4310, 16, 0x1, 0x04, 0x04, .u8, .rw, .rangeOr 31 255⟩,
  -- 0x4310+s:05 RING_OUT_RELAY
  ⟨0x4310, 16, 0x1, 0x05, 0x05, .u8, .rw, .rangeOr 31 255⟩,
  -- 0x4310+s:06 RING_F_TOKEN_BYTES
  ⟨0x4310, 16, 0x1, 0x06, 0x06, .u32, .rw, .any⟩,
  -- 0x4310+s:07 RING_B_TOKEN_BYTES
  ⟨0x4310, 16, 0x1, 0x07, 0x07, .u32, .rw, .any⟩]

/-- Object table rows of the indexes 0x4000 to 0x4FFF, part 4. -/
def objRows4d : List ObjRow := [
  -- 0x4310+s:08 RING_F_MODE
  ⟨0x4310, 16, 0x1, 0x08, 0x08, .u8, .rw, .range 0 1⟩,
  -- 0x4310+s:09 RING_B_MODE
  ⟨0x4310, 16, 0x1, 0x09, 0x09, .u8, .rw, .range 0 1⟩,
  -- 0x4310+s:0A RING_PAGES
  ⟨0x4310, 16, 0x1, 0x0A, 0x0A, .u32, .ro, .any⟩,
  -- 0x4310+s:0B RING_BYTES_SENT
  ⟨0x4310, 16, 0x1, 0x0B, 0x0B, .u64, .ro, .any⟩,
  -- 0x4310+s:0C RING_BYTES_RECEIVED
  ⟨0x4310, 16, 0x1, 0x0C, 0x0C, .u64, .ro, .any⟩,
  -- 0x4310+s:0D RING_DISCARDED
  ⟨0x4310, 16, 0x1, 0x0D, 0x0D, .u32, .rw, .clear⟩]

/-- Object table rows of the indexes 0x5000 to 0x5FFF, part 1. -/
def objRows5a : List ObjRow := [
  -- 0x5000:01 NONFINITE_POLICY
  ⟨0x5000, 1, 0x1, 0x01, 0x01, .u8, .rw, .range 0 2⟩,
  -- 0x5000:02 LAYOUT_EPOCH
  ⟨0x5000, 1, 0x1, 0x02, 0x02, .u16, .ro, .any⟩,
  -- 0x5000:03 RESHARD_EPOCH
  ⟨0x5000, 1, 0x1, 0x03, 0x03, .u16, .rw, .any⟩,
  -- 0x5000:04 RESHARD_STEP
  ⟨0x5000, 1, 0x1, 0x04, 0x04, .u32, .rw, .any⟩,
  -- 0x5000:05 RESHARD_CONTROL
  ⟨0x5000, 1, 0x1, 0x05, 0x05, .u8, .wo, .range 1 2⟩,
  -- 0x5000:06 RESHARD_STATE
  ⟨0x5000, 1, 0x1, 0x06, 0x06, .u8, .ro, .any⟩,
  -- 0x5000:07 ONE_BIT_CHANNELS
  ⟨0x5000, 1, 0x1, 0x07, 0x07, .u8, .ro, .any⟩,
  -- 0x5000:08 RC_HOP_LIMIT
  ⟨0x5000, 1, 0x1, 0x08, 0x08, .u32, .rws, .range 10 600000⟩,
  -- 0x5000:09 EPOCH_REFUSED
  ⟨0x5000, 1, 0x1, 0x09, 0x09, .u32, .rw, .clear⟩,
  -- 0x5000:0A LAST_EPOCH_REFUSAL
  ⟨0x5000, 1, 0x1, 0x0A, 0x0A, .u64, .ro, .any⟩,
  -- 0x5010+s:01 RG_STATE
  ⟨0x5010, 16, 0x1, 0x01, 0x01, .u8, .ro, .any⟩,
  -- 0x5010+s:02 RG_CONTROL
  ⟨0x5010, 16, 0x1, 0x02, 0x02, .u8, .wo, .range 1 2⟩,
  -- 0x5010+s:03 RG_MEMBERS
  ⟨0x5010, 16, 0x1, 0x03, 0x03, .u16, .rw, .range 1 16384⟩,
  -- 0x5010+s:04 RG_INDEX
  ⟨0x5010, 16, 0x1, 0x04, 0x04, .u16, .rw, .any⟩,
  -- 0x5010+s:05 RG_SCALE
  ⟨0x5010, 16, 0x1, 0x05, 0x05, .f32, .rw, .finNonzero⟩,
  -- 0x5010+s:06 RG_CARRY_E
  ⟨0x5010, 16, 0x1, 0x06, 0x06, .u8, .rw, .range 0 1⟩,
  -- 0x5010+s:07 RG_GATHER_FMT
  ⟨0x5010, 16, 0x1, 0x07, 0x07, .u8, .rw, .range 0 1⟩,
  -- 0x5010+s:08 RG_LR_STREAM
  ⟨0x5010, 16, 0x1, 0x08, 0x08, .u32, .rw, .any⟩,
  -- 0x5020+s:01 BUCKET_TABLE
  ⟨0x5020, 16, 0x1, 0x01, 0x01, .dom, .rw, .any⟩,
  -- 0x5030+s:01–40 BUCKET_STATUS
  ⟨0x5030, 16, 0x1, 0x01, 0x40, .u32, .ro, .any⟩,
  -- 0x5040+s:01–40 BUCKET_CENSUS
  ⟨0x5040, 16, 0x1, 0x01, 0x40, .u64, .ro, .any⟩,
  -- 0x5050+s:01 STEP_NONFINITE
  ⟨0x5050, 16, 0x1, 0x01, 0x01, .u32, .ro, .any⟩,
  -- 0x5050+s:02 ZEROED
  ⟨0x5050, 16, 0x1, 0x02, 0x02, .u64, .ro, .any⟩,
  -- 0x5100+c:01 RC_STATE
  ⟨0x5100, 32, 0x1, 0x01, 0x01, .u8, .ro, .any⟩,
  -- 0x5100+c:02 RC_SLOT
  ⟨0x5100, 32, 0x1, 0x02, 0x02, .u8, .rw, .rangeOr 15 255⟩,
  -- 0x5100+c:03 RC_NEXT
  ⟨0x5100, 32, 0x1, 0x03, 0x03, .u16, .rw, .range 0 16383⟩,
  -- 0x5100+c:04 RC_PREV
  ⟨0x5100, 32, 0x1, 0x04, 0x04, .u16, .rw, .range 0 16383⟩,
  -- 0x5100+c:05 RC_MODE
  ⟨0x5100, 32, 0x1, 0x05, 0x05, .u8, .rw, .any⟩,
  -- 0x5100+c:06 RC_RANK
  ⟨0x5100, 32, 0x1, 0x06, 0x06, .u8, .rw, .range 1 64⟩,
  -- 0x5100+c:07 RC_BYTES_SENT
  ⟨0x5100, 32, 0x1, 0x07, 0x07, .u64, .ro, .any⟩]

/-- Object table rows of the indexes 0x5000 to 0x5FFF, part 2. -/
def objRows5b : List ObjRow := [
  -- 0x5100+c:08 RC_BYTES_RECEIVED
  ⟨0x5100, 32, 0x1, 0x08, 0x08, .u64, .ro, .any⟩,
  -- 0x5100+c:09 RC_FALLBACKS
  ⟨0x5100, 32, 0x1, 0x09, 0x09, .u32, .rw, .clear⟩,
  -- 0x5100+c:0A RC_STALE_DROPPED
  ⟨0x5100, 32, 0x1, 0x0A, 0x0A, .u32, .rw, .clear⟩,
  -- 0x5100+c:0B RC_SEQUENCE_FAULTS
  ⟨0x5100, 32, 0x1, 0x0B, 0x0B, .u32, .rw, .clear⟩,
  -- 0x5100+c:0C RC_EPOCH_REFUSED
  ⟨0x5100, 32, 0x1, 0x0C, 0x0C, .u32, .rw, .clear⟩,
  -- 0x5100+c:0D RC_LAST_FRAME
  ⟨0x5100, 32, 0x1, 0x0D, 0x0D, .dom, .ro, .any⟩,
  -- 0x5010+s:03 RG_MEMBERS of the next bank
  ⟨0x5410, 16, 0x1, 0x03, 0x03, .u16, .rw, .range 1 16384⟩,
  -- 0x5010+s:04 RG_INDEX of the next bank
  ⟨0x5410, 16, 0x1, 0x04, 0x04, .u16, .rw, .any⟩,
  -- 0x5010+s:05 RG_SCALE of the next bank
  ⟨0x5410, 16, 0x1, 0x05, 0x05, .f32, .rw, .finNonzero⟩,
  -- 0x5010+s:06 RG_CARRY_E of the next bank
  ⟨0x5410, 16, 0x1, 0x06, 0x06, .u8, .rw, .range 0 1⟩,
  -- 0x5010+s:07 RG_GATHER_FMT of the next bank
  ⟨0x5410, 16, 0x1, 0x07, 0x07, .u8, .rw, .range 0 1⟩,
  -- 0x5010+s:08 RG_LR_STREAM of the next bank
  ⟨0x5410, 16, 0x1, 0x08, 0x08, .u32, .rw, .any⟩,
  -- 0x5020+s:01 BUCKET_TABLE of the next bank
  ⟨0x5420, 16, 0x1, 0x01, 0x01, .dom, .rw, .any⟩,
  -- 0x5100+c:02 RC_SLOT of the next bank
  ⟨0x5500, 32, 0x1, 0x02, 0x02, .u8, .rw, .rangeOr 15 255⟩,
  -- 0x5100+c:03 RC_NEXT of the next bank
  ⟨0x5500, 32, 0x1, 0x03, 0x03, .u16, .rw, .range 0 16383⟩,
  -- 0x5100+c:04 RC_PREV of the next bank
  ⟨0x5500, 32, 0x1, 0x04, 0x04, .u16, .rw, .range 0 16383⟩,
  -- 0x5100+c:05 RC_MODE of the next bank
  ⟨0x5500, 32, 0x1, 0x05, 0x05, .u8, .rw, .any⟩,
  -- 0x5100+c:06 RC_RANK of the next bank
  ⟨0x5500, 32, 0x1, 0x06, 0x06, .u8, .rw, .range 1 64⟩]

/-- Object table rows of the indexes 0x6000 to 0x6FFF, part 1. -/
def objRows6a : List ObjRow := [
  -- 0x6000:01 ALLOC_FRAMES_FREE
  ⟨0x6000, 1, 0x1, 0x01, 0x01, .u32, .ro, .any⟩,
  -- 0x6000:02 ALLOC_FRAMES_RESERVED
  ⟨0x6000, 1, 0x1, 0x02, 0x02, .u32, .ro, .any⟩,
  -- 0x6000:03 ALLOC_REFUSALS
  ⟨0x6000, 1, 0x1, 0x03, 0x03, .u32, .rw, .clear⟩,
  -- 0x6001:01 ALLOC_REQUEST
  ⟨0x6001, 1, 0x1, 0x01, 0x01, .dom, .wo, .any⟩,
  -- 0x6010+k:01 STACK_FRAMES_FREE
  ⟨0x6010, 12, 0x1, 0x01, 0x01, .u32, .ro, .any⟩,
  -- 0x6010+k:02 STACK_FRAMES_RETIRED
  ⟨0x6010, 12, 0x1, 0x02, 0x02, .u32, .ro, .any⟩,
  -- 0x6020+p:01 POOL_MAPPED
  ⟨0x6020, 8, 0x1, 0x01, 0x01, .u32, .ro, .any⟩,
  -- 0x6030+s:01 PM_PREFETCH
  ⟨0x6030, 16, 0x1, 0x01, 0x01, .dom, .rw, .any⟩,
  -- 0x6100+s:01 VS_CURRENT
  ⟨0x6100, 16, 0x1, 0x01, 0x01, .u8, .ro, .any⟩,
  -- 0x6100+s:02 VS_PENDING
  ⟨0x6100, 16, 0x1, 0x02, 0x02, .u16, .ro, .any⟩,
  -- 0x6100+s:03 VS_LIVE
  ⟨0x6100, 16, 0x1, 0x03, 0x03, .u8, .ro, .any⟩,
  -- 0x6100+s:04 VS_RESERVED_VERSIONS
  ⟨0x6100, 16, 0x1, 0x04, 0x04, .u8, .rw, .range 2 16⟩,
  -- 0x6100+s:05 VS_INITIAL_VERSION
  ⟨0x6100, 16, 0x1, 0x05, 0x05, .u8, .rw, .any⟩,
  -- 0x6100+s:06 WEIGHT_BASE
  ⟨0x6100, 16, 0x1, 0x06, 0x06, .u64, .rw, .multiple 65536⟩,
  -- 0x6100+s:07 WEIGHT_PAGES
  ⟨0x6100, 16, 0x1, 0x07, 0x07, .u32, .rw, .any⟩,
  -- 0x6100+s:08 OPT_BASE
  ⟨0x6100, 16, 0x1, 0x08, 0x08, .u64, .rw, .multiple 65536⟩,
  -- 0x6100+s:09 OPT_PAGES
  ⟨0x6100, 16, 0x1, 0x09, 0x09, .u32, .rw, .any⟩,
  -- 0x6100+s:0A VS_WAITS
  ⟨0x6100, 16, 0x1, 0x0A, 0x0A, .u32, .rw, .clear⟩,
  -- 0x6100+s:0B VS_FETCH_SOURCE
  ⟨0x6100, 16, 0x1, 0x0B, 0x0B, .u16, .rw, .range 0 16383⟩,
  -- 0x6100+s:0C VS_FETCH_CONTROL
  ⟨0x6100, 16, 0x1, 0x0C, 0x0C, .u8, .wo, .range 1 1⟩,
  -- 0x6100+s:0D VS_FETCH_STATE
  ⟨0x6100, 16, 0x1, 0x0D, 0x0D, .u8, .ro, .any⟩,
  -- 0x6110+s:01–10 VS_ENTRY
  ⟨0x6110, 16, 0x1, 0x01, 0x10, .u32, .ro, .any⟩,
  -- 0x6200:01 OPT_LR
  ⟨0x6200, 1, 0x1, 0x01, 0x01, .f32, .rw, .finNonneg⟩,
  -- 0x6200:02 OPT_LR_NEXT
  ⟨0x6200, 1, 0x1, 0x02, 0x02, .f32, .rw, .finNonneg⟩,
  -- 0x6200:03 OPT_LR_STEP
  ⟨0x6200, 1, 0x1, 0x03, 0x03, .u32, .rw, .any⟩,
  -- 0x6200:04 OPT_BETA1
  ⟨0x6200, 1, 0x1, 0x04, 0x04, .f32, .rw, .unitInterval⟩,
  -- 0x6200:05 OPT_BETA2
  ⟨0x6200, 1, 0x1, 0x05, 0x05, .f32, .rw, .unitInterval⟩,
  -- 0x6200:06 OPT_EPS
  ⟨0x6200, 1, 0x1, 0x06, 0x06, .f32, .rw, .finPositive⟩,
  -- 0x6200:07 OPT_WD
  ⟨0x6200, 1, 0x1, 0x07, 0x07, .f32, .rw, .finNonneg⟩,
  -- 0x6200:08 OPT_MOMENT_RND
  ⟨0x6200, 1, 0x1, 0x08, 0x08, .u8, .rw, .range 0 1⟩]

/-- Object table rows of the indexes 0x6000 to 0x6FFF, part 2. -/
def objRows6b : List ObjRow := [
  -- 0x6200:09 OPT_STREAM
  ⟨0x6200, 1, 0x1, 0x09, 0x09, .u32, .rw, .any⟩,
  -- 0x6210+s:01 OPT_LAYERS
  ⟨0x6210, 16, 0x1, 0x01, 0x01, .dom, .rw, .any⟩,
  -- 0x6220+s:01 OPT_WATCH
  ⟨0x6220, 16, 0x1, 0x01, 0x01, .dom, .ro, .any⟩,
  -- 0x6230+s:01 OPT_POWERS
  ⟨0x6230, 16, 0x1, 0x01, 0x01, .dom, .ro, .any⟩,
  -- 0x6400:01 COMMIT_PARENT
  ⟨0x6400, 1, 0x1, 0x01, 0x01, .u16, .rw, .rangeOr 16383 65535⟩,
  -- 0x6400:02 COMMIT_CHILD_COUNT
  ⟨0x6400, 1, 0x1, 0x02, 0x02, .u8, .rw, .range 0 16⟩,
  -- 0x6400:03 COMMIT_JOB_TAG
  ⟨0x6400, 1, 0x1, 0x03, 0x03, .u32, .rw, .any⟩,
  -- 0x6400:04 COMMIT_WAIT_LIMIT
  ⟨0x6400, 1, 0x1, 0x04, 0x04, .u32, .rws, .range 1 3600⟩,
  -- 0x6400:05 COMMIT_REPLAY_LIMIT
  ⟨0x6400, 1, 0x1, 0x05, 0x05, .u8, .rw, .range 1 255⟩,
  -- 0x6400:06 COMMIT_CONTROL
  ⟨0x6400, 1, 0x1, 0x06, 0x06, .u8, .wo, .range 1 3⟩,
  -- 0x6401:01–10 COMMIT_CHILD
  ⟨0x6401, 1, 0x1, 0x01, 0x10, .u16, .rw, .rangeOr 16383 65535⟩,
  -- 0x6402:01 STEP_NUMBER
  ⟨0x6402, 1, 0x1, 0x01, 0x01, .u32, .ro, .any⟩,
  -- 0x6402:02 STEP_STATE
  ⟨0x6402, 1, 0x1, 0x02, 0x02, .u8, .ro, .any⟩,
  -- 0x6402:03 STEP_ATTEMPT
  ⟨0x6402, 1, 0x1, 0x03, 0x03, .u8, .ro, .any⟩,
  -- 0x6402:04 LAST_COMMITTED
  ⟨0x6402, 1, 0x1, 0x04, 0x04, .u32, .ro, .any⟩,
  -- 0x6402:05 LAST_DECISION
  ⟨0x6402, 1, 0x1, 0x05, 0x05, .u64, .ro, .any⟩,
  -- 0x6402:06 IN_DOUBT
  ⟨0x6402, 1, 0x1, 0x06, 0x06, .bool, .ro, .any⟩,
  -- 0x6402:07 HELD_PAGES
  ⟨0x6402, 1, 0x1, 0x07, 0x07, .u32, .ro, .any⟩,
  -- 0x6402:08 COMMITS
  ⟨0x6402, 1, 0x1, 0x08, 0x08, .u64, .rw, .clear⟩,
  -- 0x6402:09 ABORTS
  ⟨0x6402, 1, 0x1, 0x09, 0x09, .u32, .rw, .clear⟩,
  -- 0x6402:0A DROPS
  ⟨0x6402, 1, 0x1, 0x0A, 0x0A, .u32, .rw, .clear⟩]

/-- Object table rows of the indexes 0x7000 to 0x7FFF, part 1. -/
def objRows7a : List ObjRow := [
  -- 0x7000:01 PACKAGE_ID
  ⟨0x7000, 1, 0x1, 0x01, 0x01, .u16, .rws, .range 0 16383⟩,
  -- 0x7000:02 TORUS_DIM_X
  ⟨0x7000, 1, 0x1, 0x02, 0x02, .u8, .rws, .range 1 32⟩,
  -- 0x7000:03 TORUS_DIM_Y
  ⟨0x7000, 1, 0x1, 0x03, 0x03, .u8, .rws, .range 1 32⟩,
  -- 0x7000:04 TORUS_DIM_Z
  ⟨0x7000, 1, 0x1, 0x04, 0x04, .u8, .rws, .range 1 32⟩,
  -- 0x7000:05 COORD_X
  ⟨0x7000, 1, 0x1, 0x05, 0x05, .u8, .ro, .any⟩,
  -- 0x7000:06 COORD_Y
  ⟨0x7000, 1, 0x1, 0x06, 0x06, .u8, .ro, .any⟩,
  -- 0x7000:07 COORD_Z
  ⟨0x7000, 1, 0x1, 0x07, 0x07, .u8, .ro, .any⟩,
  -- 0x7001:01 BEACON_INTERVAL
  ⟨0x7001, 1, 0x1, 0x01, 0x01, .u16, .rws, .range 50 1000⟩,
  -- 0x7001:02 FLAP_LIMIT
  ⟨0x7001, 1, 0x1, 0x02, 0x02, .u8, .rws, .range 2 10⟩,
  -- 0x7001:03 FLAP_WINDOW
  ⟨0x7001, 1, 0x1, 0x03, 0x03, .u16, .rws, .range 1 600⟩,
  -- 0x7001:04 HOLD_BASE
  ⟨0x7001, 1, 0x1, 0x04, 0x04, .u16, .rws, .range 1 600⟩,
  -- 0x7001:05 HOLD_MAX
  ⟨0x7001, 1, 0x1, 0x05, 0x05, .u16, .rws, .range 1 3600⟩,
  -- 0x7001:06 ROUTE_REJOIN_HOLD
  ⟨0x7001, 1, 0x1, 0x06, 0x06, .u32, .rws, .range 100 100000⟩,
  -- 0x7002:01 PARTNER_EVENTS
  ⟨0x7002, 1, 0x1, 0x01, 0x01, .u32, .ro, .any⟩,
  -- 0x7002:02 LAST_PARTNER_EVENT
  ⟨0x7002, 1, 0x1, 0x02, 0x02, .u64, .ro, .any⟩,
  -- 0x7010+n:01 PORT_LINK_STATE
  ⟨0x7010, 6, 0x1, 0x01, 0x01, .u8, .ro, .any⟩,
  -- 0x7010+n:02 PORT_CONTROL
  ⟨0x7010, 6, 0x1, 0x02, 0x02, .u8, .wo, .any⟩,
  -- 0x7010+n:03 LANES_USED
  ⟨0x7010, 6, 0x1, 0x03, 0x03, .u8, .ro, .any⟩,
  -- 0x7010+n:04 PARTNER_ID
  ⟨0x7010, 6, 0x1, 0x04, 0x04, .u16, .ro, .any⟩,
  -- 0x7010+n:05 PARTNER_PORT
  ⟨0x7010, 6, 0x1, 0x05, 0x05, .u8, .ro, .any⟩,
  -- 0x7010+n:06 PARTNER_DIGEST
  ⟨0x7010, 6, 0x1, 0x06, 0x06, .u32, .ro, .any⟩,
  -- 0x7010+n:07 PARTNER_JOB_TAG
  ⟨0x7010, 6, 0x1, 0x07, 0x07, .u32, .ro, .any⟩,
  -- 0x7010+n:08 PARTNER_FLAGS
  ⟨0x7010, 6, 0x1, 0x08, 0x08, .u8, .ro, .any⟩,
  -- 0x7010+n:09 FLAPS_IN_WINDOW
  ⟨0x7010, 6, 0x1, 0x09, 0x09, .u8, .ro, .any⟩,
  -- 0x7010+n:0A HOLD_REMAINING
  ⟨0x7010, 6, 0x1, 0x0A, 0x0A, .u32, .ro, .any⟩,
  -- 0x7010+n:0B HOLD_NEXT
  ⟨0x7010, 6, 0x1, 0x0B, 0x0B, .u32, .ro, .any⟩,
  -- 0x7010+n:0C UP_COUNT
  ⟨0x7010, 6, 0x1, 0x0C, 0x0C, .u32, .rw, .clear⟩,
  -- 0x7010+n:0D LOSS_COUNT
  ⟨0x7010, 6, 0x1, 0x0D, 0x0D, .u32, .rw, .clear⟩,
  -- 0x7010+n:0E TRAIN_FAILS
  ⟨0x7010, 6, 0x1, 0x0E, 0x0E, .u32, .rw, .clear⟩,
  -- 0x7010+n:0F MISWIRES
  ⟨0x7010, 6, 0x1, 0x0F, 0x0F, .u32, .rw, .clear⟩]

/-- Object table rows of the indexes 0x7000 to 0x7FFF, part 2. -/
def objRows7b : List ObjRow := [
  -- 0x7010+n:10 FEC_CORRECTED
  ⟨0x7010, 6, 0x1, 0x10, 0x10, .u64, .rw, .clear⟩,
  -- 0x7010+n:11 FEC_UNCORRECTED
  ⟨0x7010, 6, 0x1, 0x11, 0x11, .u64, .rw, .clear⟩,
  -- 0x7010+n:12 LINK_REPLAYS
  ⟨0x7010, 6, 0x1, 0x12, 0x12, .u64, .rw, .clear⟩,
  -- 0x7010+n:13 TIME_ASYMMETRY
  ⟨0x7010, 6, 0x1, 0x13, 0x13, .i32, .rws, .any⟩,
  -- 0x7010+n:14 PDELAY
  ⟨0x7010, 6, 0x1, 0x14, 0x14, .i32, .ro, .any⟩,
  -- 0x7010+n:15 FLITS_SENT
  ⟨0x7010, 6, 0x1, 0x15, 0x15, .u64, .ro, .any⟩,
  -- 0x7010+n:16 FLITS_RECEIVED
  ⟨0x7010, 6, 0x1, 0x16, 0x16, .u64, .ro, .any⟩,
  -- 0x7020:01 RING_DOWN_X
  ⟨0x7020, 1, 0x1, 0x01, 0x01, .u32, .ro, .any⟩,
  -- 0x7020:02 RING_DOWN_Y
  ⟨0x7020, 1, 0x1, 0x02, 0x02, .u32, .ro, .any⟩,
  -- 0x7020:03 RING_DOWN_Z
  ⟨0x7020, 1, 0x1, 0x03, 0x03, .u32, .ro, .any⟩,
  -- 0x7020:04 UNREACHABLE
  ⟨0x7020, 1, 0x1, 0x04, 0x04, .u64, .rw, .clear⟩,
  -- 0x7020:05 HOP_DISCARDS
  ⟨0x7020, 1, 0x1, 0x05, 0x05, .u32, .rw, .clear⟩,
  -- 0x7020:06 FLOW_BREAKS
  ⟨0x7020, 1, 0x1, 0x06, 0x06, .u32, .rw, .clear⟩,
  -- 0x7020:07 LAST_FLOW_BREAK
  ⟨0x7020, 1, 0x1, 0x07, 0x07, .u32, .ro, .any⟩,
  -- 0x7020:08 FORWARDED_BYTES
  ⟨0x7020, 1, 0x1, 0x08, 0x08, .u64, .ro, .any⟩,
  -- 0x7020:09 ESCAPE_HOPS
  ⟨0x7020, 1, 0x1, 0x09, 0x09, .u64, .ro, .any⟩,
  -- 0x7020:0A REMOTE_LOSSES
  ⟨0x7020, 1, 0x1, 0x0A, 0x0A, .u32, .rw, .clear⟩,
  -- 0x7030:01 TIME_PARENT
  ⟨0x7030, 1, 0x1, 0x01, 0x01, .u8, .rws, .oneOf [0, 1, 2, 3, 4, 5, 9, 255]⟩,
  -- 0x7030:02 TIME_STATE
  ⟨0x7030, 1, 0x1, 0x02, 0x02, .u8, .ro, .any⟩,
  -- 0x7030:03 TIME_NOW
  ⟨0x7030, 1, 0x1, 0x03, 0x03, .u64, .ro, .any⟩,
  -- 0x7030:04 TIME_OFFSET
  ⟨0x7030, 1, 0x1, 0x04, 0x04, .i64, .ro, .any⟩,
  -- 0x7030:05 TIME_DOMAIN
  ⟨0x7030, 1, 0x1, 0x05, 0x05, .u8, .rws, .any⟩,
  -- 0x7030:06 TIME_FREQ_ADJ
  ⟨0x7030, 1, 0x1, 0x06, 0x06, .i32, .ro, .any⟩,
  -- 0x7030:07 TIME_STEPS
  ⟨0x7030, 1, 0x1, 0x07, 0x07, .u32, .rw, .clear⟩,
  -- 0x7030:08 TIME_SET
  ⟨0x7030, 1, 0x1, 0x08, 0x08, .u64, .wo, .any⟩]

/-- Object table rows of the indexes 0x8000 to 0x8FFF, part 1. -/
def objRows8a : List ObjRow := [
  -- 0x8000:01 DATA_STATE
  ⟨0x8000, 1, 0x1, 0x01, 0x01, .u8, .ro, .any⟩,
  -- 0x8000:02 DATA_CONTROL
  ⟨0x8000, 1, 0x1, 0x02, 0x02, .u8, .wo, .range 1 3⟩,
  -- 0x8000:03 DATA_ROLE
  ⟨0x8000, 1, 0x1, 0x03, 0x03, .u8, .rw, .range 0 3⟩,
  -- 0x8000:04 DATA_REPLICA
  ⟨0x8000, 1, 0x1, 0x04, 0x04, .u16, .rw, .any⟩,
  -- 0x8000:05 DECODERS
  ⟨0x8000, 1, 0x1, 0x05, 0x05, .u8, .rw, .range 1 255⟩,
  -- 0x8000:06 LOOKAHEAD
  ⟨0x8000, 1, 0x1, 0x06, 0x06, .u32, .rw, .range 16 65536⟩,
  -- 0x8000:07 SAMPLES_TOTAL
  ⟨0x8000, 1, 0x1, 0x07, 0x07, .u64, .rw, .range 1 1099511627776⟩,
  -- 0x8000:08 SHUFFLE_STREAM
  ⟨0x8000, 1, 0x1, 0x08, 0x08, .u32, .rw, .any⟩,
  -- 0x8000:09 START_U
  ⟨0x8000, 1, 0x1, 0x09, 0x09, .u64, .rw, .any⟩,
  -- 0x8000:0A DATA_CURSOR
  ⟨0x8000, 1, 0x1, 0x0A, 0x0A, .u64, .ro, .any⟩,
  -- 0x8000:0B BATCH_SAMPLES
  ⟨0x8000, 1, 0x1, 0x0B, 0x0B, .u16, .rw, .range 1 1023⟩,
  -- 0x8000:0C DAMAGE_POLICY
  ⟨0x8000, 1, 0x1, 0x0C, 0x0C, .u8, .rw, .range 0 2⟩,
  -- 0x8000:0D CAND_RING_PAGES
  ⟨0x8000, 1, 0x1, 0x0D, 0x0D, .u32, .rw, .range 1024 4194304⟩,
  -- 0x8000:0E HELD_FIRST_U
  ⟨0x8000, 1, 0x1, 0x0E, 0x0E, .u64, .ro, .any⟩,
  -- 0x8000:0F DATA_FAULT
  ⟨0x8000, 1, 0x1, 0x0F, 0x0F, .u32, .ro, .any⟩,
  -- 0x8000:10 TOKEN_BYTES
  ⟨0x8000, 1, 0x1, 0x10, 0x10, .u32, .ro, .any⟩,
  -- 0x8001:01–FF DECODER_TABLE
  ⟨0x8001, 1, 0x1, 0x01, 0xFF, .u16, .rw, .rangeOr 16383 65535⟩,
  -- 0x8002:01–80 SINK_TABLE
  ⟨0x8002, 1, 0x1, 0x01, 0x80, .u16, .rw, .rangeOr 16383 65535⟩,
  -- 0x8003:01 CLIP_LIST
  ⟨0x8003, 1, 0x1, 0x01, 0x01, .dom, .rw, .any⟩,
  -- 0x8003:02 CLIP_LIST_ENTRIES
  ⟨0x8003, 1, 0x1, 0x02, 0x02, .u32, .ro, .any⟩,
  -- 0x8010:01 INGEST_VLAN
  ⟨0x8010, 1, 0x1, 0x01, 0x01, .u16, .rw, .range 0 4094⟩,
  -- 0x8010:02 INGEST_PFC_PRIORITY
  ⟨0x8010, 1, 0x1, 0x02, 0x02, .u8, .rw, .range 0 7⟩,
  -- 0x8010:03 CHUNK_BYTES
  ⟨0x8010, 1, 0x1, 0x03, 0x03, .u32, .rw, .range 65536 16777216⟩,
  -- 0x8010:04 INGEST_RING_PAGES
  ⟨0x8010, 1, 0x1, 0x04, 0x04, .u32, .rw, .range 1024 1048576⟩,
  -- 0x8010:05 CAT_REGION
  ⟨0x8010, 1, 0x1, 0x05, 0x05, .u8, .rw, .range 0 15⟩,
  -- 0x8010:06 CAT_OFFSET
  ⟨0x8010, 1, 0x1, 0x06, 0x06, .u64, .rw, .multiple 64⟩,
  -- 0x8010:07 READ_RETRIES
  ⟨0x8010, 1, 0x1, 0x07, 0x07, .u8, .rw, .range 0 7⟩,
  -- 0x8011+port:01 INGEST_MAC
  ⟨0x8011, 2, 0x1, 0x01, 0x01, .u64, .const, .any⟩,
  -- 0x8011+port:02 INGEST_LOCAL_ADDR
  ⟨0x8011, 2, 0x1, 0x02, 0x02, .dom, .rw, .any⟩,
  -- 0x8011+port:03 INGEST_LINK_STATE
  ⟨0x8011, 2, 0x1, 0x03, 0x03, .u8, .ro, .any⟩]

/-- Object table rows of the indexes 0x8000 to 0x8FFF, part 2. -/
def objRows8b : List ObjRow := [
  -- 0x8011+port:04 INGEST_DISCARDED
  ⟨0x8011, 2, 0x1, 0x04, 0x04, .u64, .rw, .clear⟩,
  -- 0x8011+port:05 INGEST_RETRANSMITS
  ⟨0x8011, 2, 0x1, 0x05, 0x05, .u64, .rw, .clear⟩,
  -- 0x8011+port:06 INGEST_BYTES_READ
  ⟨0x8011, 2, 0x1, 0x06, 0x06, .u64, .ro, .any⟩,
  -- 0x8013+port:01 QP_TABLE
  ⟨0x8013, 2, 0x1, 0x01, 0x01, .dom, .rw, .any⟩,
  -- 0x8015:01 REGION_TABLE
  ⟨0x8015, 1, 0x1, 0x01, 0x01, .dom, .rw, .any⟩,
  -- 0x8020:01 DEINTERLACE
  ⟨0x8020, 1, 0x1, 0x01, 0x01, .u8, .rw, .range 0 2⟩,
  -- 0x8020:02 FRAME_STRIDE
  ⟨0x8020, 1, 0x1, 0x02, 0x02, .u8, .rw, .range 1 255⟩,
  -- 0x8020:03 CROP
  ⟨0x8020, 1, 0x1, 0x03, 0x03, .u8, .rw, .range 0 1⟩,
  -- 0x8020:04 OUT_WIDTH
  ⟨0x8020, 1, 0x1, 0x04, 0x04, .u16, .rw, .range 16 4096⟩,
  -- 0x8020:05 OUT_HEIGHT
  ⟨0x8020, 1, 0x1, 0x05, 0x05, .u16, .rw, .range 16 4096⟩,
  -- 0x8020:06 COLOUR_OUT
  ⟨0x8020, 1, 0x1, 0x06, 0x06, .u8, .rw, .range 0 1⟩,
  -- 0x8020:07 ACT_GAIN
  ⟨0x8020, 1, 0x1, 0x07, 0x07, .f32, .rw, .finite⟩,
  -- 0x8020:08 ACT_BIAS
  ⟨0x8020, 1, 0x1, 0x08, 0x08, .f32, .rw, .finite⟩,
  -- 0x8020:09 ACT_CONV
  ⟨0x8020, 1, 0x1, 0x09, 0x09, .u16, .rw, .any⟩,
  -- 0x8020:0A PATCH_T
  ⟨0x8020, 1, 0x1, 0x0A, 0x0A, .u8, .rw, .range 1 16⟩,
  -- 0x8020:0B PATCH_H
  ⟨0x8020, 1, 0x1, 0x0B, 0x0B, .u8, .rw, .range 1 64⟩,
  -- 0x8020:0C PATCH_W
  ⟨0x8020, 1, 0x1, 0x0C, 0x0C, .u8, .rw, .range 1 64⟩,
  -- 0x8030:01 AUDIO_RATE
  ⟨0x8030, 1, 0x1, 0x01, 0x01, .u8, .rw, .range 0 1⟩,
  -- 0x8030:02 AUDIO_CHANNELS
  ⟨0x8030, 1, 0x1, 0x02, 0x02, .u8, .rw, .range 1 2⟩,
  -- 0x8030:03 AUDIO_TOKEN_SAMPLES
  ⟨0x8030, 1, 0x1, 0x03, 0x03, .u16, .rw, .range 16 8192⟩,
  -- 0x8030:04 AUDIO_CONV
  ⟨0x8030, 1, 0x1, 0x04, 0x04, .u16, .rw, .any⟩,
  -- 0x8030:05 CAPTION_BYTES_MAX
  ⟨0x8030, 1, 0x1, 0x05, 0x05, .u32, .rw, .range 0 65536⟩,
  -- 0x8040:01 SAMPLES_DELIVERED
  ⟨0x8040, 1, 0x1, 0x01, 0x01, .u64, .rw, .clear⟩,
  -- 0x8040:02 DROPS_READ
  ⟨0x8040, 1, 0x1, 0x02, 0x02, .u64, .rw, .clear⟩,
  -- 0x8040:03 DROPS_CATALOGUE
  ⟨0x8040, 1, 0x1, 0x03, 0x03, .u64, .rw, .clear⟩,
  -- 0x8040:04 DROPS_UNSUPPORTED
  ⟨0x8040, 1, 0x1, 0x04, 0x04, .u64, .rw, .clear⟩,
  -- 0x8040:05 DROPS_EMPTY
  ⟨0x8040, 1, 0x1, 0x05, 0x05, .u64, .rw, .clear⟩,
  -- 0x8040:06 DROPS_DAMAGE
  ⟨0x8040, 1, 0x1, 0x06, 0x06, .u64, .rw, .clear⟩,
  -- 0x8040:07 DROPS_CLIP
  ⟨0x8040, 1, 0x1, 0x07, 0x07, .u64, .rw, .clear⟩,
  -- 0x8040:08 DROPS_OVERSIZE
  ⟨0x8040, 1, 0x1, 0x08, 0x08, .u64, .rw, .clear⟩]

/-- Object table rows of the indexes 0x8000 to 0x8FFF, part 3. -/
def objRows8c : List ObjRow := [
  -- 0x8040:09 REFUSED_SAMPLES
  ⟨0x8040, 1, 0x1, 0x09, 0x09, .u64, .rw, .clear⟩,
  -- 0x8040:0A DAMAGE_EVENTS
  ⟨0x8040, 1, 0x1, 0x0A, 0x0A, .u64, .rw, .clear⟩,
  -- 0x8040:0B SAMPLES_CONCEALED
  ⟨0x8040, 1, 0x1, 0x0B, 0x0B, .u64, .rw, .clear⟩,
  -- 0x8040:0C PICTURES_CONCEALED
  ⟨0x8040, 1, 0x1, 0x0C, 0x0C, .u64, .rw, .clear⟩,
  -- 0x8040:0D AUDIO_FRAMES_CONCEALED
  ⟨0x8040, 1, 0x1, 0x0D, 0x0D, .u64, .rw, .clear⟩,
  -- 0x8040:0E FRAMES_OMITTED
  ⟨0x8040, 1, 0x1, 0x0E, 0x0E, .u64, .rw, .clear⟩,
  -- 0x8040:0F CAPTION_BYTES_DROPPED
  ⟨0x8040, 1, 0x1, 0x0F, 0x0F, .u64, .rw, .clear⟩,
  -- 0x8040:10 CLIP_LIST_FULL
  ⟨0x8040, 1, 0x1, 0x10, 0x10, .u32, .rw, .clear⟩,
  -- 0x8041:01 DROP_LOG
  ⟨0x8041, 1, 0x1, 0x01, 0x01, .dom, .ro, .any⟩]

/-- Object table rows of the indexes 0x9000 to 0x9FFF, part 1. -/
def objRows9a : List ObjRow := [
  -- 0x9000:01 RECOMPUTE_N
  ⟨0x9000, 1, 0x1, 0x01, 0x01, .u32, .rws, .powerOr0 16 1048576⟩,
  -- 0x9000:02 RECOMPUTE_SAMPLED
  ⟨0x9000, 1, 0x1, 0x02, 0x02, .u64, .ro, .any⟩,
  -- 0x9000:03 RECOMPUTE_MISMATCHES
  ⟨0x9000, 1, 0x1, 0x03, 0x03, .u32, .rw, .clear⟩,
  -- 0x9000:04 RECOMPUTE_ABANDONED
  ⟨0x9000, 1, 0x1, 0x04, 0x04, .u32, .rw, .clear⟩,
  -- 0x9000:05 BLOCK_CHECK_FAILS
  ⟨0x9000, 1, 0x1, 0x05, 0x05, .u32, .rw, .clear⟩,
  -- 0x9000:06 BLOCK_REREADS_PASSED
  ⟨0x9000, 1, 0x1, 0x06, 0x06, .u32, .rw, .clear⟩,
  -- 0x9000:07 IMPLICATE_WINDOW
  ⟨0x9000, 1, 0x1, 0x07, 0x07, .u16, .rws, .range 1 8760⟩,
  -- 0x9000:08 SCRUB_PERIOD
  ⟨0x9000, 1, 0x1, 0x08, 0x08, .u16, .rws, .range 0 168⟩,
  -- 0x9000:09 RETIRE_CORRECTED
  ⟨0x9000, 1, 0x1, 0x09, 0x09, .u16, .rws, .range 1 1024⟩,
  -- 0x9010+k:01 MEM_CORRECTED
  ⟨0x9010, 12, 0x1, 0x01, 0x01, .u64, .rw, .clear⟩,
  -- 0x9010+k:02 MEM_UNCORRECTABLE
  ⟨0x9010, 12, 0x1, 0x02, 0x02, .u32, .rw, .clear⟩,
  -- 0x9010+k:03 SCRUB_PASSES
  ⟨0x9010, 12, 0x1, 0x03, 0x03, .u32, .ro, .any⟩,
  -- 0x9020:01 DIE_TIMEOUT
  ⟨0x9020, 1, 0x1, 0x01, 0x01, .u32, .rws, .range 100000 600000000⟩,
  -- 0x9020:02 PACKAGE_TIMEOUT
  ⟨0x9020, 1, 0x1, 0x02, 0x02, .u32, .rws, .range 200000 1200000000⟩,
  -- 0x9021:01–08 TIMEOUT_EFFECTIVE
  ⟨0x9021, 1, 0x1, 0x01, 0x08, .u32, .ro, .any⟩,
  -- 0x9022:01–07 TIMEOUT_EXPIRIES
  ⟨0x9022, 1, 0x1, 0x01, 0x07, .u32, .rw, .clear⟩,
  -- 0x9030:01 DRAIN_STATE
  ⟨0x9030, 1, 0x1, 0x01, 0x01, .u8, .ro, .any⟩,
  -- 0x9030:02 DRAIN_CONTROL
  ⟨0x9030, 1, 0x1, 0x02, 0x02, .u8, .wo, .range 1 2⟩,
  -- 0x9030:03 DRAIN_FLAG
  ⟨0x9030, 1, 0x1, 0x03, 0x03, .u8, .rws, .range 0 0⟩,
  -- 0x9030:04 DRAIN_CAUSE
  ⟨0x9030, 1, 0x1, 0x04, 0x04, .u32, .ro, .any⟩,
  -- 0x9030:05 DRAINS
  ⟨0x9030, 1, 0x1, 0x05, 0x05, .u32, .rw, .clear⟩,
  -- 0x9031:01 IMPLICATIONS
  ⟨0x9031, 1, 0x1, 0x01, 0x01, .dom, .ro, .any⟩,
  -- 0x9040:01 FAULT_LOG
  ⟨0x9040, 1, 0x1, 0x01, 0x01, .dom, .ro, .any⟩,
  -- 0x9040:02 FAULT_LOG_COUNT
  ⟨0x9040, 1, 0x1, 0x02, 0x02, .u64, .ro, .any⟩,
  -- 0x9040:03 FAULT_LOG_STORED
  ⟨0x9040, 1, 0x1, 0x03, 0x03, .dom, .ro, .any⟩,
  -- 0x9040:04 REPORT_LOG
  ⟨0x9040, 1, 0x1, 0x04, 0x04, .dom, .ro, .any⟩,
  -- 0x9040:05 LAST_REPORT
  ⟨0x9040, 1, 0x1, 0x05, 0x05, .dom, .ro, .any⟩,
  -- 0x9050:01 FAULT_PARENT
  ⟨0x9050, 1, 0x1, 0x01, 0x01, .u16, .rw, .rangeOr 16383 65535⟩,
  -- 0x9050:02 REPORT_QUIET
  ⟨0x9050, 1, 0x1, 0x02, 0x02, .u16, .rws, .range 1 1000⟩,
  -- 0x9050:03 REPORT_HOLD_MAX
  ⟨0x9050, 1, 0x1, 0x03, 0x03, .u16, .rws, .range 1 10000⟩]

/-- Object table rows of the indexes 0x9000 to 0x9FFF, part 2. -/
def objRows9b : List ObjRow := [
  -- 0x9050:04 REPORTS_PENDING
  ⟨0x9050, 1, 0x1, 0x04, 0x04, .u8, .ro, .any⟩,
  -- 0x9050:05 REPORTS_DROPPED
  ⟨0x9050, 1, 0x1, 0x05, 0x05, .u32, .rw, .clear⟩,
  -- 0x9050:06 REPORTS_SENT
  ⟨0x9050, 1, 0x1, 0x06, 0x06, .u64, .ro, .any⟩,
  -- 0x9050:07 REPORTS_MERGED
  ⟨0x9050, 1, 0x1, 0x07, 0x07, .u64, .ro, .any⟩,
  -- 0x9051:01 FAULT_REPORT
  ⟨0x9051, 1, 0x1, 0x01, 0x01, .dom, .ro, .any⟩]

/-- Object table rows of the indexes 0xA000 to 0xAFFF, part 1. -/
def objRowsAa : List ObjRow := [
  -- 0xA000:01 COUNTER_USER_READ
  ⟨0xA000, 1, 0x1, 0x01, 0x01, .bool, .rws, .any⟩,
  -- 0xA000:02 COUNTER_FREEZE
  ⟨0xA000, 1, 0x1, 0x02, 0x02, .bool, .rw, .any⟩,
  -- 0xA000:03 TAG_SHIFT
  ⟨0xA000, 1, 0x1, 0x03, 0x03, .u8, .rws, .zeroOr 8 20⟩,
  -- 0xA000:04 TAG_SEED
  ⟨0xA000, 1, 0x1, 0x04, 0x04, .u32, .rws, .any⟩,
  -- 0xA010:01–20 KPC_SELECT
  ⟨0xA010, 1, 0x1, 0x01, 0x20, .u16, .rw, .any⟩,
  -- 0xA011:01–20 KPC_VALUE
  ⟨0xA011, 1, 0x1, 0x01, 0x20, .u64, .rw, .range 0 281474976710655⟩,
  -- 0xA012:01 KPC_OVERFLOW
  ⟨0xA012, 1, 0x1, 0x01, 0x01, .u32, .rw, .any⟩,
  -- 0xA100+b:01–08 BPC_SELECT
  ⟨0xA100, 48, 0x1, 0x01, 0x08, .u16, .rw, .any⟩,
  -- 0xA100+b:09–10 BPC_VALUE
  ⟨0xA100, 48, 0x1, 0x09, 0x10, .u64, .rw, .range 0 281474976710655⟩,
  -- 0xA100+b:11 BPC_OVERFLOW
  ⟨0xA100, 48, 0x1, 0x11, 0x11, .u8, .rw, .any⟩,
  -- 0xA100+b:12 TAG_RECORDS
  ⟨0xA100, 48, 0x1, 0x12, 0x12, .u64, .ro, .any⟩,
  -- 0xA100+b:13 TAGS_MISSED
  ⟨0xA100, 48, 0x1, 0x13, 0x13, .u32, .rw, .clear⟩,
  -- 0xA100+b:14 TAG_RING
  ⟨0xA100, 48, 0x1, 0x14, 0x14, .dom, .ro, .any⟩,
  -- 0xA200+4b+k:01–40 PC_VALUE
  ⟨0xA200, 192, 0x1, 0x01, 0x40, .u64, .rw, .range 0 281474976710655⟩,
  -- 0xA300+4b+k:01–40 PC_SELECT
  ⟨0xA300, 192, 0x1, 0x01, 0x40, .u16, .rw, .any⟩,
  -- 0xA400+b:01–40 PC_OVERFLOW
  ⟨0xA400, 48, 0x1, 0x01, 0x40, .u8, .rw, .any⟩,
  -- 0xA440+d:01 DIE_CYCLES
  ⟨0xA440, 4, 0x1, 0x01, 0x01, .u64, .ro, .any⟩]

/-- Object table rows of the indexes 0xB000 to 0xBFFF, part 1. -/
def objRowsBa : List ObjRow := [
  -- 0xB000+n:01 SL_STATE
  ⟨0xB000, 10, 0x1, 0x01, 0x01, .u8, .ro, .any⟩,
  -- 0xB000+n:02 SL_CONTROL
  ⟨0xB000, 10, 0x1, 0x02, 0x02, .u8, .wo, .range 1 1⟩,
  -- 0xB000+n:03 SL_EPOCH
  ⟨0xB000, 10, 0x1, 0x03, 0x03, .u16, .ro, .any⟩,
  -- 0xB000+n:04 SL_LOCAL_CLAIM
  ⟨0xB000, 10, 0x1, 0x04, 0x04, .u32, .ro, .any⟩,
  -- 0xB000+n:05 SL_REMOTE_CLAIM
  ⟨0xB000, 10, 0x1, 0x05, 0x05, .u32, .ro, .any⟩,
  -- 0xB000+n:06 SL_MODULES
  ⟨0xB000, 10, 0x1, 0x06, 0x06, .u8, .ro, .any⟩,
  -- 0xB000+n:07 SL_RATE
  ⟨0xB000, 10, 0x1, 0x07, 0x07, .u8, .ro, .any⟩,
  -- 0xB000+n:08 SL_RETRAINS
  ⟨0xB000, 10, 0x1, 0x08, 0x08, .u32, .rw, .clear⟩,
  -- 0xB000+n:09 SL_DISAGREEMENTS
  ⟨0xB000, 10, 0x1, 0x09, 0x09, .u32, .rw, .clear⟩,
  -- 0xB000+n:0A SL_CRC_ERRORS
  ⟨0xB000, 10, 0x1, 0x0A, 0x0A, .u64, .rw, .clear⟩,
  -- 0xB000+n:0B SL_REPLAYS
  ⟨0xB000, 10, 0x1, 0x0B, 0x0B, .u64, .rw, .clear⟩,
  -- 0xB000+n:0C SL_LANES_REPAIRED
  ⟨0xB000, 10, 0x1, 0x0C, 0x0C, .u8, .ro, .any⟩,
  -- 0xB010+d:01 DIE_RETRAIN_FAILS
  ⟨0xB010, 5, 0x1, 0x01, 0x01, .u8, .ro, .any⟩,
  -- 0xB020+d:01 RLC_ENABLE
  ⟨0xB020, 4, 0x1, 0x01, 0x01, .bool, .rw, .any⟩,
  -- 0xB020+d:02 RLC_LINES
  ⟨0xB020, 4, 0x1, 0x02, 0x02, .u32, .ro, .any⟩,
  -- 0xB020+d:03 RLC_HITS
  ⟨0xB020, 4, 0x1, 0x03, 0x03, .u64, .rw, .clear⟩,
  -- 0xB020+d:04 RLC_MISSES
  ⟨0xB020, 4, 0x1, 0x04, 0x04, .u64, .rw, .clear⟩,
  -- 0xB020+d:05 RLC_INVALIDATIONS
  ⟨0xB020, 4, 0x1, 0x05, 0x05, .u64, .rw, .clear⟩,
  -- 0xB020+d:06 RLC_PREFETCHES
  ⟨0xB020, 4, 0x1, 0x06, 0x06, .u64, .rw, .clear⟩,
  -- 0xB020+d:07 SF_BACK_INVALIDATIONS
  ⟨0xB020, 4, 0x1, 0x07, 0x07, .u64, .rw, .clear⟩,
  -- 0xB030:01 SL_RETRY_LIMIT
  ⟨0xB030, 1, 0x1, 0x01, 0x01, .u8, .rws, .range 2 64⟩,
  -- 0xB030:02 SL_RETRAIN_BOUND
  ⟨0xB030, 1, 0x1, 0x02, 0x02, .u16, .rws, .range 600 10000⟩]

/-- The object table rows of the 4,096 indexes that an index lies in. -/
def objRows (idx : Nat) : List ObjRow :=
  match idx / 0x1000 with
  | 0x0 => objRows0a
  | 0x1 => objRows1a ++ objRows1b ++ objRows1c ++ objRows1d
  | 0x2 => objRows2a ++ objRows2b
  | 0x3 => objRows3a ++ objRows3b ++ objRows3c
  | 0x4 => objRows4a ++ objRows4b ++ objRows4c ++ objRows4d
  | 0x5 => objRows5a ++ objRows5b
  | 0x6 => objRows6a ++ objRows6b
  | 0x7 => objRows7a ++ objRows7b
  | 0x8 => objRows8a ++ objRows8b ++ objRows8c
  | 0x9 => objRows9a ++ objRows9b
  | 0xA => objRowsAa
  | 0xB => objRowsBa
  | _ => []

/-- Whether a row covers an index. -/
def ObjRow.covers (r : ObjRow) (idx : Nat) : Bool :=
  decide (r.base ≤ idx) && decide ((idx - r.base) % r.stride = 0) && decide ((idx - r.base) / r.stride < r.count)

/-- The rows of one index; none when no chapter defines the index (R46). -/
def rowsOf (idx : Nat) : List ObjRow := (objRows idx).filter (fun r => r.covers idx)

/-- The row of one object. -/
def rowOf (k : Nat) : Option ObjRow :=
  (rowsOf (keyIndex k)).find? (fun r => decide (r.lo ≤ keySub k) && decide (keySub k ≤ r.hi))

/-- The highest subindex present at an index, which its subindex 00 holds (R45). -/
def highestSub (idx : Nat) : Nat := (rowsOf idx).foldl (fun m r => max m r.hi) 0

/-- Whether a key's index lies in `count` indexes from `base` by `stride`, and its subindex in `lo` to `hi`. -/
def keyIn (k base count stride lo hi : Nat) : Bool :=
  decide (base ≤ keyIndex k) && decide ((keyIndex k - base) % stride = 0) && decide ((keyIndex k - base) / stride < count)
    && decide (lo ≤ keySub k) && decide (keySub k ≤ hi)

/-- The default of an object (the column "Default" of its table); 0 where the row gives 0 or none. -/
def objDefault (k : Nat) : Nat :=
  match keyIndex k / 0x1000 with
  | 0x1 =>
    if keyIn k 0x1000 1 0x1 0x06 0x06 then 0x9 /- GENERATION -/ else
    if keyIn k 0x1000 1 0x1 0x07 0x07 then 0x100 /- MANUAL_ISSUE -/ else
    if keyIn k 0x1100 1 0x1 0x01 0x01 then 0x1 /- CUT_LIST_FORMAT -/ else
    if keyIn k 0x1108 5 0x1 0x05 0x05 then 0x3 /- DIE_STATE -/ else
    if keyIn k 0x1120 48 0x1 0x05 0x05 then 0x40 /- FIRST_CORE -/ else
    if keyIn k 0x1120 48 0x1 0x06 0x06 then 0x3 /- BENT_STATE -/ else
    if keyIn k 0x1150 12 0x1 0x05 0x05 then 0x40 /- RAW_CAPACITY -/ else
    if keyIn k 0x1150 12 0x1 0x07 0x07 then 0x3 /- STACK_STATE -/ else
    if keyIn k 0x1160 10 0x1 0x07 0x07 then 0x3 /- LINK_STATE -/ else
    if keyIn k 0x1170 10 0x1 0x03 0x03 then 0x10 /- PORT_LANES -/ else
    if keyIn k 0x1170 10 0x1 0x04 0x04 then 0x20 /- PORT_FIBRES -/ else
    if keyIn k 0x1170 10 0x1 0x06 0x06 then 0x3 /- PORT_STATE -/ else
    if keyIn k 0x1180 1 0x1 0x02 0x02 then 0x4 /- DECODE_CLUSTERS -/ else
    if keyIn k 0x1180 1 0x1 0x03 0x03 then 0x30 /- DECODE_ENGINES -/ else
    if keyIn k 0x1180 1 0x1 0x04 0x04 then 0x8 /- AUDIO_DECODERS -/ else
    if keyIn k 0x1180 1 0x1 0x05 0x05 then 0x4 /- CAPTION_EXTRACTORS -/ else
    if keyIn k 0x1180 1 0x1 0x06 0x06 then 0x1 /- SHUFFLE_ENGINES -/ else
    if keyIn k 0x1200 1 0x1 0x02 0x02 then 0x88B6 /- TALLY_ETHERTYPE -/ else
    if keyIn k 0x1200 1 0x1 0x04 0x04 then 0x6 /- TALLY_PRIORITY -/ else
    if keyIn k 0x1202 1 0x1 0x02 0x02 then 0x3C /- SESSION_IDLE_LIMIT -/ else
    if keyIn k 0x1300 1 0x1 0x02 0x02 then 0x100000 /- MGMT_WINDOW_OFFSET -/ else
    if keyIn k 0x1300 1 0x1 0x03 0x03 then 0x10000 /- MGMT_WINDOW_SIZE -/ else
    if keyIn k 0x1400 1 0x1 0x01 0x01 then 0x1 /- LEVEL_MAX_TALLY -/ else
    if keyIn k 0x1400 1 0x1 0x02 0x02 then 0x1 /- LEVEL_MAX_HOST -/ else
    0
  | 0x2 =>
    if keyIn k 0x2001 1 0x1 0x03 0x03 then 0xFF /- BOOT_SLOT_USED -/ else
    if keyIn k 0x2001 1 0x1 0x05 0x05 then 0x1 /- LAST_RESET_CAUSE -/ else
    if keyIn k 0x2030 1 0x1 0x04 0x04 then 0x960 /- PKG_POWER_LIMIT -/ else
    if keyIn k 0x2032 1 0x1 0x01 0x01 then 0x64 /- THROTTLE_THRESHOLD -/ else
    if keyIn k 0x2033 1 0x1 0x01 0x04 then 0x640 /- DIE_CLOCK -/ else
    0
  | 0x3 =>
    if keyIn k 0x300B 48 0x40 0x01 0x01 then 0x7D0 /- WD_LIMIT -/ else
    if keyIn k 0x3029 48 0x40 0x01 0x01 then 0x4E20 /- CH_WAIT_LIMIT -/ else
    if keyIn k 0x302A 48 0x40 0x01 0x01 then 0xFF /- WAIT_CORE -/ else
    if keyIn k 0x302A 48 0x40 0x04 0x04 then 0xFFFF /- PEER_CORE -/ else
    if keyIn k 0x302A 48 0x40 0x06 0x06 then 0xFFFFFFFF /- PEER_WAIT_QUEUE -/ else
    if keyIn k 0x3030 48 0x40 0x01 0x01 then 0xFF /- PACER_STAGE -/ else
    if keyIn k 0x3034 48 0x40 0x01 0x01 then 0x7530 /- BENT_TIMEOUT -/ else
    0
  | 0x4 =>
    if keyIn k 0x4040 1 0x1 0x02 0x02 then 0x1 /- RET_LANE_DEPTH -/ else
    if keyIn k 0x4000 16 0x1 0x04 0x04 then 0x1 /- JOB_STAGES -/ else
    if keyIn k 0x4000 16 0x1 0x06 0x06 then 0x1 /- BENT_COUNT -/ else
    if keyIn k 0x4000 16 0x1 0x07 0x07 then 0x1 /- SEQ_SHARE -/ else
    if keyIn k 0x4000 16 0x1 0x0D 0x0D then 0x1 /- IN_FLIGHT_MAX -/ else
    if keyIn k 0x4000 16 0x1 0x0E 0x0E then 0x1 /- W_MODE -/ else
    if keyIn k 0x4000 16 0x1 0x0F 0x0F then 0x1 /- W_PENDING_MAX -/ else
    if keyIn k 0x4000 16 0x1 0x10 0x10 then 0x1 /- MICRO_BATCHES -/ else
    if keyIn k 0x4000 16 0x1 0x11 0x11 then 0xFF /- IN_LANE -/ else
    if keyIn k 0x4000 16 0x1 0x12 0x12 then 0xFF /- OUT_LANE -/ else
    if keyIn k 0x4000 16 0x1 0x13 0x13 then 0xFF /- RET_IN_LANE -/ else
    if keyIn k 0x4000 16 0x1 0x14 0x14 then 0xFF /- RET_OUT_LANE -/ else
    if keyIn k 0x4000 16 0x1 0x18 0x18 then 0x7A120 /- STAGE_TIME_BASE -/ else
    if keyIn k 0x4000 16 0x1 0x19 0x19 then 0x3E8 /- STAGE_TIME_PER_TOKEN -/ else
    if keyIn k 0x4100 64 0x1 0x02 0x02 then 0x1 /- LANE_DEPTH -/ else
    if keyIn k 0x4100 64 0x1 0x0A 0x0A then 0xFF /- LANE_RELAY -/ else
    if keyIn k 0x4300 1 0x1 0x04 0x04 then 0x1 /- JOB_PACKAGES -/ else
    if keyIn k 0x4300 1 0x1 0x05 0x05 then 0x1 /- PIPE_PACKAGES -/ else
    if keyIn k 0x4300 1 0x1 0x07 0x07 then 0x1 /- STAGES_PER_PACKAGE -/ else
    if keyIn k 0x4300 1 0x1 0x08 0x08 then 0x1 /- JOB_SEQ_SHARE -/ else
    if keyIn k 0x4300 1 0x1 0x09 0x09 then 0x1 /- REPLICAS -/ else
    if keyIn k 0x4300 1 0x1 0x0B 0x0B then 0x2 /- SEQ_AXIS -/ else
    if keyIn k 0x4310 16 0x1 0x04 0x04 then 0xFF /- RING_IN_RELAY -/ else
    if keyIn k 0x4310 16 0x1 0x05 0x05 then 0xFF /- RING_OUT_RELAY -/ else
    0
  | 0x5 =>
    if keyIn k 0x5000 1 0x1 0x04 0x04 then 0xFFFFFFFF /- RESHARD_STEP -/ else
    if keyIn k 0x5000 1 0x1 0x08 0x08 then 0x1388 /- RC_HOP_LIMIT -/ else
    if keyIn k 0x5010 16 0x1 0x03 0x03 then 0x1 /- RG_MEMBERS -/ else
    if keyIn k 0x5010 16 0x1 0x05 0x05 then 0x3F800000 /- RG_SCALE -/ else
    if keyIn k 0x5010 16 0x1 0x06 0x06 then 0x1 /- RG_CARRY_E -/ else
    if keyIn k 0x5010 16 0x1 0x08 0x08 then 0xFFFFFE00 /- RG_LR_STREAM -/ else
    if keyIn k 0x5100 32 0x1 0x02 0x02 then 0xFF /- RC_SLOT -/ else
    if keyIn k 0x5100 32 0x1 0x06 0x06 then 0x4 /- RC_RANK -/ else
    if keyIn k 0x5410 16 0x1 0x03 0x03 then 0x1 /- RG_MEMBERS -/ else
    if keyIn k 0x5410 16 0x1 0x05 0x05 then 0x3F800000 /- RG_SCALE -/ else
    if keyIn k 0x5410 16 0x1 0x06 0x06 then 0x1 /- RG_CARRY_E -/ else
    if keyIn k 0x5410 16 0x1 0x08 0x08 then 0xFFFFFE00 /- RG_LR_STREAM -/ else
    if keyIn k 0x5500 32 0x1 0x02 0x02 then 0xFF /- RC_SLOT -/ else
    if keyIn k 0x5500 32 0x1 0x06 0x06 then 0x4 /- RC_RANK -/ else
    0
  | 0x6 =>
    if keyIn k 0x6100 16 0x1 0x02 0x02 then 0x100 /- VS_PENDING -/ else
    if keyIn k 0x6100 16 0x1 0x04 0x04 then 0x2 /- VS_RESERVED_VERSIONS -/ else
    if keyIn k 0x6200 1 0x1 0x03 0x03 then 0xFFFFFFFF /- OPT_LR_STEP -/ else
    if keyIn k 0x6200 1 0x1 0x04 0x04 then 0x3F666666 /- OPT_BETA1 -/ else
    if keyIn k 0x6200 1 0x1 0x05 0x05 then 0x3F7FBE77 /- OPT_BETA2 -/ else
    if keyIn k 0x6200 1 0x1 0x06 0x06 then 0x2B8CBCCC /- OPT_EPS -/ else
    if keyIn k 0x6200 1 0x1 0x09 0x09 then 0xFFFFFF00 /- OPT_STREAM -/ else
    if keyIn k 0x6400 1 0x1 0x01 0x01 then 0xFFFF /- COMMIT_PARENT -/ else
    if keyIn k 0x6400 1 0x1 0x04 0x04 then 0x258 /- COMMIT_WAIT_LIMIT -/ else
    if keyIn k 0x6400 1 0x1 0x05 0x05 then 0x3 /- COMMIT_REPLAY_LIMIT -/ else
    if keyIn k 0x6401 1 0x1 0x01 0x10 then 0xFFFF /- COMMIT_CHILD -/ else
    if keyIn k 0x6402 1 0x1 0x04 0x04 then 0xFFFFFFFF /- LAST_COMMITTED -/ else
    0
  | 0x7 =>
    if keyIn k 0x7000 1 0x1 0x02 0x02 then 0x1 /- TORUS_DIM_X -/ else
    if keyIn k 0x7000 1 0x1 0x03 0x03 then 0x1 /- TORUS_DIM_Y -/ else
    if keyIn k 0x7000 1 0x1 0x04 0x04 then 0x1 /- TORUS_DIM_Z -/ else
    if keyIn k 0x7001 1 0x1 0x01 0x01 then 0xFA /- BEACON_INTERVAL -/ else
    if keyIn k 0x7001 1 0x1 0x02 0x02 then 0x3 /- FLAP_LIMIT -/ else
    if keyIn k 0x7001 1 0x1 0x03 0x03 then 0xA /- FLAP_WINDOW -/ else
    if keyIn k 0x7001 1 0x1 0x04 0x04 then 0x1E /- HOLD_BASE -/ else
    if keyIn k 0x7001 1 0x1 0x05 0x05 then 0x258 /- HOLD_MAX -/ else
    if keyIn k 0x7001 1 0x1 0x06 0x06 then 0x3E8 /- ROUTE_REJOIN_HOLD -/ else
    if keyIn k 0x7010 6 0x1 0x04 0x04 then 0xFFFF /- PARTNER_ID -/ else
    if keyIn k 0x7010 6 0x1 0x05 0x05 then 0xFF /- PARTNER_PORT -/ else
    if keyIn k 0x7010 6 0x1 0x0B 0x0B then 0x1E /- HOLD_NEXT -/ else
    if keyIn k 0x7030 1 0x1 0x01 0x01 then 0xFF /- TIME_PARENT -/ else
    0
  | 0x8 =>
    if keyIn k 0x8000 1 0x1 0x05 0x05 then 0x1 /- DECODERS -/ else
    if keyIn k 0x8000 1 0x1 0x06 0x06 then 0x100 /- LOOKAHEAD -/ else
    if keyIn k 0x8000 1 0x1 0x07 0x07 then 0x1 /- SAMPLES_TOTAL -/ else
    if keyIn k 0x8000 1 0x1 0x08 0x08 then 0xFFFFFD00 /- SHUFFLE_STREAM -/ else
    if keyIn k 0x8000 1 0x1 0x0B 0x0B then 0x1 /- BATCH_SAMPLES -/ else
    if keyIn k 0x8000 1 0x1 0x0D 0x0D then 0x10000 /- CAND_RING_PAGES -/ else
    if keyIn k 0x8000 1 0x1 0x0E 0x0E then 0xFFFFFFFFFFFFFFFF /- HELD_FIRST_U -/ else
    if keyIn k 0x8001 1 0x1 0x01 0xFF then 0xFFFF /- DECODER_TABLE -/ else
    if keyIn k 0x8002 1 0x1 0x01 0x80 then 0xFFFF /- SINK_TABLE -/ else
    if keyIn k 0x8010 1 0x1 0x02 0x02 then 0x3 /- INGEST_PFC_PRIORITY -/ else
    if keyIn k 0x8010 1 0x1 0x03 0x03 then 0x100000 /- CHUNK_BYTES -/ else
    if keyIn k 0x8010 1 0x1 0x04 0x04 then 0x1000 /- INGEST_RING_PAGES -/ else
    if keyIn k 0x8010 1 0x1 0x07 0x07 then 0x3 /- READ_RETRIES -/ else
    if keyIn k 0x8020 1 0x1 0x01 0x01 then 0x1 /- DEINTERLACE -/ else
    if keyIn k 0x8020 1 0x1 0x02 0x02 then 0x1 /- FRAME_STRIDE -/ else
    if keyIn k 0x8020 1 0x1 0x03 0x03 then 0x1 /- CROP -/ else
    if keyIn k 0x8020 1 0x1 0x04 0x04 then 0x100 /- OUT_WIDTH -/ else
    if keyIn k 0x8020 1 0x1 0x05 0x05 then 0x100 /- OUT_HEIGHT -/ else
    if keyIn k 0x8020 1 0x1 0x07 0x07 then 0x3F800000 /- ACT_GAIN -/ else
    if keyIn k 0x8020 1 0x1 0x09 0x09 then 0x200 /- ACT_CONV -/ else
    if keyIn k 0x8020 1 0x1 0x0A 0x0A then 0x2 /- PATCH_T -/ else
    if keyIn k 0x8020 1 0x1 0x0B 0x0B then 0x10 /- PATCH_H -/ else
    if keyIn k 0x8020 1 0x1 0x0C 0x0C then 0x10 /- PATCH_W -/ else
    if keyIn k 0x8030 1 0x1 0x02 0x02 then 0x1 /- AUDIO_CHANNELS -/ else
    if keyIn k 0x8030 1 0x1 0x03 0x03 then 0x280 /- AUDIO_TOKEN_SAMPLES -/ else
    if keyIn k 0x8030 1 0x1 0x05 0x05 then 0x1000 /- CAPTION_BYTES_MAX -/ else
    0
  | 0x9 =>
    if keyIn k 0x9000 1 0x1 0x01 0x01 then 0x1000 /- RECOMPUTE_N -/ else
    if keyIn k 0x9000 1 0x1 0x07 0x07 then 0x48 /- IMPLICATE_WINDOW -/ else
    if keyIn k 0x9000 1 0x1 0x08 0x08 then 0x18 /- SCRUB_PERIOD -/ else
    if keyIn k 0x9000 1 0x1 0x09 0x09 then 0x10 /- RETIRE_CORRECTED -/ else
    if keyIn k 0x9020 1 0x1 0x01 0x01 then 0xF4240 /- DIE_TIMEOUT -/ else
    if keyIn k 0x9020 1 0x1 0x02 0x02 then 0x1E8480 /- PACKAGE_TIMEOUT -/ else
    if keyIn k 0x9050 1 0x1 0x01 0x01 then 0xFFFF /- FAULT_PARENT -/ else
    if keyIn k 0x9050 1 0x1 0x02 0x02 then 0xA /- REPORT_QUIET -/ else
    if keyIn k 0x9050 1 0x1 0x03 0x03 then 0x64 /- REPORT_HOLD_MAX -/ else
    0
  | 0xA =>
    if keyIn k 0xA000 1 0x1 0x04 0x04 then 0x1 /- TAG_SEED -/ else
    0
  | 0xB =>
    if keyIn k 0xB030 1 0x1 0x01 0x01 then 0x8 /- SL_RETRY_LIMIT -/ else
    if keyIn k 0xB030 1 0x1 0x02 0x02 then 0x3E8 /- SL_RETRAIN_BOUND -/ else
    if keyIn k 0xB020 4 0x1 0x01 0x01 then 0x1 /- RLC_ENABLE -/ else
    0
  | _ => 0

/-- The size in bytes of a type's values, 0 for a variable size (Table 3.2). -/
def OType.size : OType → Nat
  | .bool => 1 | .u8 => 1 | .u16 => 2 | .u32 => 4 | .u64 => 8 | .i32 => 4 | .i64 => 8 | .f32 => 4 | .vstr => 0 | .dom => 0

/-- TYPE_SIZE of the type definition object at index `c` (R47). -/
def typeSizeOf (c : Nat) : Nat :=
  match c with
  | 1 => 1 | 2 => 1 | 3 => 2 | 4 => 4 | 5 => 8 | 6 => 4 | 7 => 8 | 8 => 4 | _ => 0

/-- Whether an F32 pattern is a NaN. -/
def f32IsNan (v : Nat) : Bool := decide (v / 2 ^ 23 % 256 = 255) && decide (v % 2 ^ 23 ≠ 0)

/-- Whether an F32 pattern is finite. -/
def f32Finite (v : Nat) : Bool := decide (v / 2 ^ 23 % 256 ≠ 255)

/-- Whether a value meets a row's range. -/
def Rule.admits : Rule → Nat → Bool
  | .any, _ => true
  | .range lo hi, v => decide (lo ≤ v) && decide (v ≤ hi)
  | .rangeOr hi x, v => decide (v ≤ hi) || decide (v = x)
  | .zeroOr lo hi, v => decide (v = 0) || (decide (lo ≤ v) && decide (v ≤ hi))
  | .oneOf l, v => l.contains v
  | .multiple m, v => decide (v % m = 0)
  | .powerOr0 lo hi, v => decide (v = 0) || (decide (lo ≤ v) && decide (v ≤ hi) && decide (2 ^ Nat.log2 v = v))
  | .clear, v => decide (v = 0)
  | .finite, v => f32Finite v
  | .finNonneg, v => f32Finite v && (decide (v < 2 ^ 31) || decide (v = 2 ^ 31))
  | .finPositive, v => f32Finite v && decide (0 < v) && decide (v < 2 ^ 31)
  | .finNonzero, v => f32Finite v && decide (v % 2 ^ 31 ≠ 0)
  | .unitInterval, v => decide (v < 0x3F800000) || decide (v = 2 ^ 31)

/-- Whether a value is one of a type's valid values (Table 3.2): a BOOLEAN is 0 or 1, no F32 object accepts a NaN. -/
def OType.admits : OType → Nat → Bool
  | .bool, v => decide (v ≤ 1)
  | .f32, v => !f32IsNan v
  | _, _ => true

end Sys2Proof.Machine
end

