-- ==== Sys2Proof/Machine/State.lean ====
section
/-! DEFINITION. The state of the S93 as plain data: the object dictionary's values, the management transport, the
start machinery and service lines, the cores and Bents, tensor memory, the pipeline, the step machinery, reduction,
the data engine, the torus, the die links and integrity; the queue of waiting commands; the reasons a step stops. -/

namespace Sys2Proof.Machine

/-- Why a step faults. -/
inductive Fault where
  /-- A command names a unit that the package does not have (a core above 3071, a port above 5): raised by every
  meaning that takes a unit number, before anything else. Safe: no such command can reach the block (R14, R36). -/
  | noSuchUnit
deriving DecidableEq, Repr

/-- Why a step refuses. -/
inductive Refusal where
  /-- The command has no meaning in this model: raised by an arm of `exec` that stands without a meaning. Safe. -/
  | notModelled (mnemonic : String)
deriving DecidableEq, Repr

/-! ### Management transport (chapter 03) -/

/-- What a request that was answered DEFERRED, or has not been answered yet, waits for (R60). -/
inductive Waits where
  /-- The Prisum controller's own work: completes with the status that stands ready (R60). -/
  | prisum (status : Nat)
  /-- A domain transition: the domain, and whether the request is ENABLE (R451-R453). -/
  | domain (d : Nat) (enable : Bool)
  /-- A reset of a compute die (R454). -/
  | dieReset (d : Nat)
  /-- An OPEN of a Lane (R208). -/
  | lane (n : Nat)
  /-- A version fetch of a slot, which is judged by what its source holds (R260). -/
  | fetch (i : Nat)
deriving DecidableEq, Repr

/-- A request taken and not yet completed (R57, R60): `station` is the MAC address it came from on the Tally port, `taken` when the package
took it. -/
structure Outstanding where
  session  : Nat
  seq      : Nat
  command  : Nat
  key      : Nat
  source   : Nat
  flags    : Nat
  carrier  : Carrier
  station  : Nat
  taken    : Nat
  deferred : Bool
  waits    : Waits
deriving DecidableEq, Repr

/-- A subscription (R62): the object, whether a change has not been reported yet, and when an event was last sent. -/
structure Sub where
  key      : Nat
  dirty    : Bool
  lastSent : Option Nat
deriving DecidableEq, Repr

/-- A session (R57, R62). `station`: the MAC address that opened it on the Tally port. `remembered`: (SEQUENCE, status) of the last 8 completed
requests, oldest first. -/
structure Session where
  id         : Nat
  level      : Nat
  carrier    : Carrier
  proxied    : Bool
  source     : Nat
  station    : Nat
  lastFrame  : Nat
  remembered : List (Nat × Nat)
  subs       : List Sub
  queue      : List Frame
  count      : Nat
  overflow   : Bool
deriving DecidableEq, Repr

/-- An incomplete WRITE_DOMAIN transfer (R59): its frames' segments so far and the end the LAST frame gave. -/
structure Transfer where
  session : Nat
  seq     : Nat
  carrier : Carrier
  source  : Nat
  station : Nat
  flags   : Nat
  key     : Nat
  began   : Nat
  parts   : List (Nat × Bytes)
  stop    : Option Nat
deriving DecidableEq, Repr

/-- A request forwarded over the torus for an entry carrier (R55). -/
structure Proxy where
  carrier : Carrier
  source  : Nat
  station : Nat
  session : Nat
  seq     : Nat
  dest    : Nat
deriving DecidableEq, Repr

/-- The management transport: what the dictionary server holds besides object values. -/
structure Mgmt where
  sessions    : List Session
  nextSession : Nat
  outstanding : List Outstanding
  transfers   : List Transfer
  proxies     : List Proxy
  trace       : List Bytes
  failures    : List Nat
  lockedUntil : Option Nat
  requests    : List (Nat × Frame)
  responses   : List (Nat × Frame)
  held        : List Frame
  events      : List (Nat × Frame)
  restoreMark : Bool
  msiEnabled  : Bool
  msiLast     : List (Nat × Nat)
  msiPending  : List Nat
  host        : HostConfig
deriving DecidableEq, Repr

/-- An endpoint that the host has not configured: MSI-X disabled, the smallest sizes. -/
def HostConfig.reset : HostConfig := ⟨false, false, [], 128, 128⟩

/-! ### Start, power and the service lines (chapters 17, 19) -/

/-- Where a start stands (R438, R444, R447, R455, R457). -/
inductive Phase where
  /-- PWR_EN is accepted low, or the package is powered down. -/
  | off
  /-- RST_N is accepted low: the service reset holds (R457). -/
  | held
  /-- A restart holds the package in reset for 10 ms (Table 17.8). -/
  | restarting
  /-- Step n of Table 17.1 is under way. -/
  | step (n : Nat)
  | ready
  | walk
deriving DecidableEq, Repr

/-- A boot image slot (R441, R448): content, the byte ranges written since the last erase. -/
structure ImageSlot where
  bytes   : Map Byte
  written : List (Nat × Nat)
deriving DecidableEq, Repr

/-- The start machinery (R437-R460): the phase, when its step and the start began, the sampled boot selection,
the slot a failed start used, the accepted pin levels, the trip hold and the input; the dies whose reset is under way (R454);
when the last power-up began, the domains that are to power up in turn (R439) and when each domain's transition began; how many evaluations
in a row each die has been quiet (R482). -/
structure Start where
  phase        : Phase
  stepSince    : Nat
  begun        : Nat
  bootSel      : Option (Bool × Bool)
  failedSlot   : Option Nat
  inputInRange : Bool
  pwrEn        : Bool
  rstN         : Bool
  bootA        : Bool
  bootB        : Bool
  pwrSince     : Option Nat
  pgOut        : Bool
  tripHold     : Bool
  pwrLowSince  : Bool
  slotA        : ImageSlot
  slotB        : ImageSlot
  minSecurity  : Nat
  dieResets    : List Nat
  lastPowerUp  : Option Nat
  upQueue      : List Nat
  domSince     : Map Nat
  quietEvals   : List Nat
deriving DecidableEq, Repr

/-- What is fused or set at manufacture ("factory", R48): the same for the life of the package. -/
structure Fuses where
  serial      : Bytes
  steppings   : List Nat
  masks       : List Nat
  spares      : List Nat
  tallyMac    : Nat
  ingestMac   : List Nat
  serviceId   : Nat
  serviceKey  : Bytes
  firmwareKey : Bytes
deriving DecidableEq, Repr

/-! ### Cores, channels and Bents (chapters 05-08, 18) -/

/-- A random context (R164). -/
structure RngCtx where
  stream : Nat
  tensor : Nat
  step   : Nat
  micro  : Nat
  base   : Nat
deriving DecidableEq, Repr

/-- An accumulator tile: 1,024 sum words and error words by cell 32i + j, and the status word (R124, Table 6.4). -/
structure Tile where
  s      : Map W32
  e      : Map W32
  status : Nat
deriving DecidableEq, Repr

/-- The empty tile (R125). -/
def Tile.empty : Tile := ⟨Map.empty, Map.empty, 0⟩

/-- A tag in flight (R469-R471): what the record names, and DIE_CYCLES at issue and at completion. -/
structure Tag where
  opcode : Nat
  seq    : Nat
  dptr   : Nat
  step   : Nat
  issue  : Nat
  ended  : Option Nat
deriving DecidableEq, Repr

/-- Who filled a message slot: a core's endpoint under a binding of a generation, or a binding on another package. -/
inductive Origin where
  | endpoint (core ep gen : Nat)
  | remote (pkg : Nat)
deriving DecidableEq, Repr

/-- How far an issued descriptor has come. -/
inductive Stage where
  /-- Behind an earlier descriptor of its unit (R101). -/
  | queued
  /-- Begun; it waits for credit, a message, a chain buffer, a ring block or acceptance. -/
  | begun
  /-- Its effects are complete (R102). -/
  | complete
deriving DecidableEq, Repr

/-- A descriptor issued and not retired (R99, R100): its bytes, the X registers, random context and seed it read at
issue, the tile shadow (R134), what its retirement returns credit for (R179), when its watchdog or its ring wait expires (R117, R310,
R426) and what is left of the watchdog during a ring wait, the tensor blocks whose first read fails its check (R409), the blocks of other dies
that a MOVE_TENSOR has asked for or written and whose answer is still to come (R392-R394), those that it read over a die link (Table 16.2), whether a SEND or CONTRIBUTE has taken its credit
(R182), and the partner that holds its recompute sample (R417). -/
structure Issued where
  addr   : Nat
  desc   : Bytes
  x      : Map W64
  rng    : RngCtx
  seed   : Nat
  stage  : Stage
  shadow : Option Tile
  credit : List Origin
  due    : Nat
  ring   : Option Nat
  tag    : Option Tag
  reads  : List BlockRead
  asked  : Option (List Nat)
  came   : List Nat
  paid   : Bool
  sample : Option Nat
deriving DecidableEq, Repr

/-- A channel endpoint (Table 8.4): the binding, the credit it holds, its reservation, the messages accepted from it, whether
readers left since the last accepted SEND (R187), and what a remote notice said (R193). -/
structure Endpoint where
  kind     : Nat
  flag     : Nat
  sender   : Nat
  credits  : Nat
  queue    : Nat
  gen      : Nat
  credit   : Nat
  reserved : Nat
  accepted : Nat
  left     : Bool
  notice   : Nat
deriving DecidableEq, Repr

/-- An endpoint that is not bound. -/
def Endpoint.none : Endpoint := ⟨0, 0, 0, 0, 0, 0, 0, 0, 0, false, 0⟩

/-- Core states of Table 5.10. -/
inductive CoreState where
  | idle | running | waiting | stopping | halted | faulted | off
deriving DecidableEq, Repr

/-- A fault that has stopped issue and waits for the earlier descriptors to retire (R116). -/
structure PendingFault where
  code   : Nat
  opcode : Nat
  seq    : Nat
  addr   : Nat
deriving DecidableEq, Repr

/-- A recompute buffer that is full (R417): the selecting core, what its partner needs to execute the MM again, the tile that it must
find, and DIE_CYCLES when the tile was copied. -/
structure Recompute where
  owner  : Nat
  desc   : Bytes
  x      : Map W64
  start  : Tile
  result : Tile
  since  : Nat
deriving DecidableEq, Repr

/-- A core (Table 1.1). -/
structure Core where
  state     : CoreState
  dptr      : Nat
  fault     : Nat
  haltCode  : Nat
  x         : Map W64
  flags     : Nat
  v         : Map (BitVec 2048)
  fp        : Nat
  mem       : Map Byte
  tiles     : Map Tile
  chain     : Option Tile
  rng       : RngCtx
  inflight  : List Issued
  pending   : Option PendingFault
  waitDue   : Option Nat
  retired   : Nat
  lost      : Nat
  ends      : Map Endpoint
  sample    : Option Recompute
  partner   : Option Nat
  tagState  : Nat
deriving DecidableEq, Repr

/-- A core whose Bent is not powered (Table 5.10). -/
def Core.off : Core :=
  { state := .off, dptr := 0, fault := 0, haltCode := 0, x := Map.empty, flags := 0, v := Map.empty, fp := 0,
    mem := Map.empty, tiles := Map.empty, chain := none, rng := ⟨0, 0, 0, 0, 0⟩, inflight := [], pending := none,
    waitDue := none, retired := 0, lost := 0, ends := Map.empty, sample := none, partner := none, tagState := 0 }

/-- A message held at a queue (R169, R176): the slot of the queue's storage in Bent memory that holds its header and payload, the live readers
still to take it (BROADCAST, by core and endpoint), and the bindings whose credit its removal returns. -/
structure Message where
  slot    : Nat
  readers : List (Nat × Nat)
  origins : List Origin
deriving DecidableEq, Repr

/-- A contribution to a round (R185): its check values, and the binding whose credit its removal returns (none once that binding has ended).
Its payload stands in the round's storage. -/
structure Contribution where
  sender  : Nat
  checks  : List W32
  origins : List Origin
deriving DecidableEq, Repr

/-- An incomplete round of a combining queue (R185, R186): its slot of the queue's storage, its contributions in the order of acceptance, and
in arrival-order mode what the Combine engine keeps beside each running sum. -/
structure Round where
  slot  : Nat
  parts : List Contribution
  keeps : List (W32 × Option W32)
deriving DecidableEq, Repr

/-- A queue of a Bent (R172): state 0 UNUSED, 1 OPEN, 2 CLOSED; messages oldest first; incomplete rounds oldest first;
`remotes` the packages that have sent to it. -/
structure Queue where
  state    : Nat
  gen      : Nat
  messages : List Message
  rounds   : List Round
  remotes  : List Nat
deriving DecidableEq, Repr

/-- A queue after a start (R172). -/
def Queue.unused : Queue := ⟨0, 0, [], [], []⟩

/-- A message that a channel unit has taken and no queue has accepted yet (R177, R184): whose binding sent it, the queue as
64 × Bent + queue, the generation it was sent for, and the message. -/
structure Flight where
  origin     : Origin
  queue      : Nat
  gen        : Nat
  contribute : Bool
  sender     : Nat
  seq        : Nat
  count      : Nat
  payload    : Bytes
  checks     : List W32
deriving DecidableEq, Repr

/-- A logical Bent: its memory, the tag ring's records by number modulo 64 (R472), the frames whose pages are resident, least
recently used first (R236, R238), and the place of each in the resident area. -/
structure Bent where
  mem      : Map Byte
  tags     : Map Bytes
  resident : List Nat
  places   : List (Nat × Nat)
deriving DecidableEq, Repr

/-- A Bent with nothing in it. -/
def Bent.empty : Bent := ⟨Map.empty, Map.empty, [], []⟩

/-! ### Tensor memory (chapter 10) -/

/-- An HBM frame that is in use (R230-R235): `use` 1 mapped, 2 reserved, 3 retired; the owner of a reservation; its bytes; its
poisoned blocks (R412); when symbols were corrected in it, in µs, and how many (R414). -/
structure HFrame where
  use    : Nat
  owner  : Nat
  bytes  : Map Byte
  poison : List Nat
  fixes  : List (Nat × Nat)
deriving DecidableEq, Repr

/-- A frame that is free and lists nothing. -/
def HFrame.free : HFrame := ⟨0, 0, Map.empty, [], []⟩

/-- A tensor page: its pool (Table 10.1; 255 for a page that is not mapped) and its frame. -/
structure Page where
  pool  : Nat
  frame : Nat
deriving DecidableEq, Repr

/-- A page that is not mapped. -/
def Page.none : Page := ⟨255, 0⟩

/-- A version of a slot (R242): its number, its state (Table 10.4), its pins, the frames of its weight window and of its
optimizer window in page order. -/
structure Version where
  number  : Nat
  state   : Nat
  pins    : Nat
  weights : List Nat
  opt     : List Nat
deriving DecidableEq, Repr

/-! ### Pipeline (chapters 09, 12) -/

/-- A candidate micro-batch of the data engine (R345, R347): its tokens, samples, position and data epoch of the first sample, its
stream index, its pages, and the stream index and sample id of each of its samples. -/
structure Candidate where
  tokens   : Nat
  samples  : Nat
  position : Nat
  epoch    : Nat
  first    : Nat
  page     : Nat
  pages    : Nat
  members  : List (Nat × Nat)
deriving DecidableEq, Repr

/-- A held input: the micro-batch id it was admitted with (R215). -/
structure Held where
  id   : Nat
  step : Nat
  cand : Candidate
deriving DecidableEq, Repr

/-- A micro-batch at a slot: its F Baton; its F (0 accepted, 1 running, 2 done), its B (0 not arrived, 1 arrived, 2 running,
3 done) and its W (0 not yet, 1 pending, 2 running, 3 done); whether its F and B outputs were sent; the tensor pages at which
the inputs of its F and of its B start. -/
structure Micro where
  id     : Nat
  baton  : Bytes
  f      : Nat
  b      : Nat
  w      : Nat
  fSent  : Bool
  bSent  : Bool
  fInput : Nat
  bInput : Nat
deriving DecidableEq, Repr

/-- A work item in run: 1 F, 2 B, 3 W; its micro-batch; its deadline (R223). -/
structure Item where
  kind : Nat
  mb   : Nat
  due  : Nat
deriving DecidableEq, Repr

/-- A block of a ring area of a slot (R308, R309): kind, parity, hop, block. -/
structure RingKey where
  kind   : Nat
  parity : Nat
  hop    : Nat
  block  : Nat
deriving DecidableEq, Repr

/-- What a layer's update formed for the watch figures (R251). -/
structure Watch where
  layer : Nat
  u     : W32
  w     : W32
deriving DecidableEq, Repr

/-- A stage slot at run time (R216-R227, R240-R251, R308): when its STOP expires (R427); the schedule pointer and count, its micro-batches in ascending id, the work
item in run, F and B dispatched and micro-batches admitted in the step, since when it starves, whether its step is done, the held
inputs of the step and those still to be admitted again, its versions and whether a pending one waits (R245), the layers' powers and their pending ones,
the layers updated and their watch figures, the layers whose update failed for good in the attempt (R108, R409), the ring blocks landed and sent, and those of an
attempt that is still to open. -/
structure Slot where
  stopDue   : Option Nat
  ptr       : Nat
  cnt       : Nat
  mbs       : List Micro
  item      : Option Item
  fOut      : Nat
  bOut      : Nat
  admitted  : Nat
  starve    : Option Nat
  stepDone  : Bool
  held      : List Held
  replays   : List Held
  versions  : List Version
  waiting   : Bool
  powers    : Map Nat
  newPowers : Map Nat
  layers    : List Nat
  watch     : List Watch
  gaveUp    : List Nat
  landed    : List RingKey
  sent      : List RingKey
  ringEarly : List RingBlock
deriving DecidableEq, Repr

/-- A slot that holds no plan. -/
def Slot.unused : Slot :=
  { stopDue := none, ptr := 1, cnt := 0, mbs := [], item := none, fOut := 0, bOut := 0, admitted := 0, starve := none, stepDone := false,
    held := [], replays := [], versions := [], waiting := false, powers := Map.empty, newPowers := Map.empty, layers := [], watch := [],
    gaveUp := [], landed := [], sent := [], ringEarly := [] }

/-- What a reader's Lane end holds of a micro-batch: its id, its first tensor page, its pages, the generation of the sender's
end that sent it. -/
structure Parcel where
  id    : Nat
  page  : Nat
  pages : Nat
  gen   : Nat
deriving DecidableEq, Repr

/-- A Lane end at run time (R210-R212): at a reader the micro-batches held, the first tensor page of its window and the next
position in it; at a sender the micro-batch and page credit (forward) or the reservations (return); its binding's status
(0 live, 0x22 stale, 0x23 closed; R206), and whether it is stale because its Relay link went DOWN; at the sender of a return Lane to another
package the micro-batches and pages that have left and are not consumed yet (R211); at a reader the Batons, with their parcels, whose step may
not open here yet; whether an OPEN waits for the peer; the peer's fields when it has opened. -/
structure LaneEnd where
  held    : List Parcel
  base    : Nat
  pos     : Nat
  credit  : Nat
  pages   : Nat
  status  : Nat
  cut     : Bool
  away    : Nat
  awayPages : Nat
  early   : List (Parcel × Bytes)
  opening : Bool
  peer    : Option (List Nat)
deriving DecidableEq, Repr

/-- A Lane that is not open. -/
def LaneEnd.unused : LaneEnd := ⟨[], 0, 0, 0, 0, 0, false, 0, 0, [], false, none⟩

/-- An open request for a Relay link that arrived (R204): source, its link number, this link, direction, job tag. -/
structure RelayAsk where
  source    : Nat
  link      : Nat
  own       : Nat
  direction : Nat
  tag       : Nat
deriving DecidableEq, Repr

/-! ### Data engine (chapter 13) -/

/-- A chunk read (R320, R322): the slot and the chunk it belongs to, the region, the remote address and the bytes it asks for, its
first PSN, what has arrived, and how often it has been tried on other queue pairs (R341). -/
structure ChunkRead where
  u       : Nat
  chunk   : Nat
  region  : Nat
  address : Nat
  size    : Nat
  psn     : Nat
  data    : Bytes
  tries   : Nat
deriving DecidableEq, Repr

/-- A queue pair at run time (R320, R321): the next PSN, its outstanding reads oldest first, the reads that wait, its retransmissions
of the oldest read, when its timeout expires, its send rate in sixteenths of the line rate times 2^16, when that last changed, and whether it is
in ERROR. -/
structure QueuePair where
  psn     : Nat
  reads   : List ChunkRead
  waiting : List ChunkRead
  retries : Nat
  due     : Option Nat
  rate    : Nat
  paced   : Nat
  failed  : Bool
deriving DecidableEq, Repr

/-- A queue pair that has not been used: it sends at the line rate. -/
def QueuePair.fresh : QueuePair := ⟨0, [], [], 0, none, 1048576, 0, false⟩

/-- A slot that a decoder has begun (R318): its stream index and sample id, the catalogue record once read, how many chunk reads of its
data are still to complete, and the chunks of its data that the demux has taken, by number. A chunk that has landed in the ingest ring is
consumed by the demux at once (log entry 24, DEDUCED). -/
structure DecodeJob where
  u      : Nat
  id     : Nat
  record : Bytes
  left   : Nat
  chunks : List (Nat × Bytes) := []
deriving DecidableEq, Repr

/-- A sample that a sink has taken into the candidate it forms (R345): stream index, payload, video and audio tokens. -/
structure SinkSample where
  u      : Nat
  sample : SamplePayload
  video  : Nat
  audio  : Nat
deriving DecidableEq, Repr

/-- The data engine at run time (R316-R349). Decoder: the next slot to begin, slots under way, results that wait for an earlier slot,
the next slot to send, results kept for the sinks, the sinks' last cursors by slice, data epochs reported done by decoder, the clip list
with the first data epoch each entry applies to, queue pairs by 64 × port + entry. Sink: slots arrived and not yet assembled, the next
slot to assemble, failed transfers by slot, the samples of the candidate that forms, the next page of the ring, candidates that wait for
room, candidates offered, the pages of the ring in use. Both: the last 256 drops; when the pause of an ingest port's sending ends (R319). -/
structure DataEngine where
  next     : Nat
  jobs     : List DecodeJob
  results  : List (Nat × SlotPayload)
  nextSend : Nat
  kept     : List (Nat × SlotPayload)
  cursors  : Map Nat
  reports  : Map Nat
  clips    : List (Nat × Nat)
  qps      : Map QueuePair
  arrived  : List (Nat × SlotPayload)
  expect   : Nat
  failures : Map Nat
  forming  : List SinkSample
  ringAt   : Nat
  waiting  : List (List SinkSample)
  offers   : List Candidate
  inUse    : List (Nat × Nat)
  drops    : List Bytes
  pauses   : Map Nat
deriving DecidableEq, Repr

/-- The data engine after a start. -/
def DataEngine.fresh : DataEngine :=
  { next := 0, jobs := [], results := [], nextSend := 0, kept := [], cursors := Map.empty, reports := Map.empty, clips := [],
    qps := Map.empty, arrived := [], expect := 0, failures := Map.empty, forming := [], ringAt := 0, waiting := [], offers := [],
    inUse := [], drops := [], pauses := Map.empty }

/-! ### Step commit (chapter 10) -/

/-- The commit of the current attempt (R252-R258): children that reported READY with their REPORTERS and their skip flag, whether
FAIL and READY were sent, when the wait of a PENDING package expires, whether an attempt has been opened, the decisions before
the last one of its step and the step before it, the replays of the step, whether the step has reached REDUCED in an attempt (R250), and
messages for an attempt that is not open yet. -/
structure Commit where
  ready     : List (Nat × Nat × Bool)
  failSent  : Bool
  readySent : Bool
  pending   : Option Nat
  opened    : Bool
  previous  : List Nat
  replays   : Nat
  reduced   : Bool
  early     : List CommitMsg
deriving DecidableEq, Repr

/-- Nothing reported. -/
def Commit.fresh : Commit := ⟨[], false, false, none, false, [], 0, false, []⟩

/-! ### Reduction (chapter 11) -/

/-- A bucket (R266, R272): its state (Table 11.9), its final blocks, the census of the local contribution and of the delivered
values, the shards that hold delivered values. -/
structure Bucket where
  state     : Nat
  finals    : List Nat
  census    : Nat
  delivered : Nat
  shards    : List Nat
deriving DecidableEq, Repr

/-- A bucket of no active group. -/
def Bucket.idle : Bucket := ⟨0, [], 0, 0, []⟩

/-- A frame that is arriving (R276): its header, what has landed; whether it has been discarded and its rest is passed over. -/
structure Landing where
  header  : Bytes
  payload : Bytes
  gone    : Bool
deriving DecidableEq, Repr

/-- Words by key of a shard or bucket. -/
abbrev Words32 := Map W32

/-- A reduction channel (R273-R286): frames sent and received in the attempt, the frame that is landing, when its wait for
RC_PREV expires, receive areas in use here and free ones granted at RC_NEXT (R276), by bucket the RNG_SEED that its warm-start matrices
began from (R283), the buckets on which its hop has fallen back, running pairs received by 64 × shard + bucket, error memory and warm-start
matrices that differ from the state after activation, by the same key, current and pending (R282);
the payload of the last gathered frame, which is forwarded; whole frames of the step to come. -/
structure Channel where
  sent      : Nat
  received  : Nat
  landing   : Option Landing
  waiting   : Option Nat
  areas     : Nat
  credit    : Nat
  seeds     : List (Nat × Nat)
  fallen    : List Nat
  sums      : Map Words32
  errs      : Map Words32
  error     : List (Nat × Words32)
  errorNew  : List (Nat × Words32)
  warm      : List (Nat × Words32)
  warmNew   : List (Nat × Words32)
  gathered  : Bytes
  early     : List Landing
deriving DecidableEq, Repr

/-- A channel that has done nothing. -/
def Channel.idle : Channel :=
  ⟨0, 0, none, none, 0, 0, [], [], Map.empty, Map.empty, [], [], [], [], [], []⟩

/-! ### Faults and integrity (chapter 16) -/

/-- A pending report (R433): its 64-byte record, when it was created and last merged, in µs. -/
structure Report where
  record  : Bytes
  created : Nat
  merged  : Nat
deriving DecidableEq, Repr

/-- An entry of the implications table (R419): suspect, count, last time in ns. -/
structure Implication where
  suspect : Nat
  count   : Nat
  last    : Nat
deriving DecidableEq, Repr

/-- Fault logs, reports and implications (R419, R431-R434): `log` the last 1,024 records, `stored` the last 64 in flash,
`delivered` the root's last 256 reports, `left` when a report of a suspect last left, `sent` reports sent up, `drainDue` when a drain expires (R427). -/
structure Faults where
  log          : List Bytes
  stored       : List Bytes
  reports      : List Report
  delivered    : List Bytes
  left         : List (Nat × Nat)
  overflow     : Bool
  seq          : Nat
  implications : List Implication
  drainDue     : Nat
deriving DecidableEq, Repr

/-- Nothing logged. -/
def Faults.empty : Faults :=
  { log := [], stored := [], reports := [], delivered := [], left := [], overflow := false, seq := 0, implications := [],
    drainDue := 0 }

/-! ### The dies (chapters 15, 16) -/

/-- A request that a home die has taken and serves later (R393, R395): the die it comes from, its block, the content of a WRITE. -/
structure DieRequest where
  die     : Nat
  block   : Nat
  content : Option (Map Byte)
deriving DecidableEq, Repr

/-- A home's wait for INV_ACKs (R393, R395): the block; whether it is a back-invalidation; the die whose WRITE it completes (none: a
back-invalidation, or a write by a unit that does not wait for it); the dies whose INV_ACK is still to come; the requests that wait behind. -/
structure HomeWait where
  block  : Nat
  back   : Bool
  writer : Option Nat
  acks   : List Nat
  behind : List DieRequest
deriving DecidableEq, Repr

/-- The messages of the die protocol (Table 15.2): READ and WRITE are of class REQ, READ_DATA, WRITE_ACK and INVALIDATE of class RSP, INV_ACK of
class ACK. -/
inductive DieMsgKind where
  | read | write | readData | writeAck | invalidate | invAck
deriving DecidableEq, Repr

/-- A message between two dies that has been sent and has not arrived (R389); a WRITE carries its content. -/
structure DieMsg where
  kind    : DieMsgKind
  src     : Nat
  dst     : Nat
  block   : Nat
  content : Option (Map Byte)
deriving DecidableEq, Repr

/-- A READ or WRITE of a die that is not complete (R390): its block, the core whose MOVE_TENSOR waits for it, the content of a WRITE. -/
structure DieOp where
  block   : Nat
  core    : Option Nat
  content : Option (Map Byte)
deriving DecidableEq, Repr

/-- A die's remote-line cache and snoop filter (R391, R395): the SHARED lines, least recently used first; the filter's entries (block,
holders as a mask), least recently used first; its READs and WRITEs that are outstanding and those that wait for room among the 256 and 64 of
their link (R390); the block of its last miss (R396). A line's content is its block's at the home (R391). The IOD, die 4, has requests alone. -/
structure DieCache where
  lines  : List Nat
  filter : List (Nat × Nat)
  reads  : List DieOp
  writes : List DieOp
  later  : List DieOp
  missed : Option Nat
deriving DecidableEq, Repr

/-- A cache and filter that hold nothing. -/
def DieCache.empty : DieCache := ⟨[], [], [], [], [], none⟩

/-- A claim of one end of a die link (R399). -/
structure DieClaim where
  epoch : Nat
  mask  : Nat
  width : Nat
deriving DecidableEq, Repr

/-- A die link at run time (R399-R402): the epochs of END_A and END_B; the width cap; whether this is the single retrain of R401; the step of
Table 15.4 under way (0 none), when it and the training began; the claims formed by the ends and whether they have arrived at the other end;
whether the link has trained in this start; the times of its last replays; when a failed training is tried again. -/
structure DieLink where
  epochA  : Nat
  epochB  : Nat
  cap     : Nat
  single  : Bool
  step    : Nat
  since   : Nat
  began   : Nat
  claimA  : Option DieClaim
  claimB  : Option DieClaim
  gotA    : Bool
  gotB    : Bool
  trained : Bool
  replays : List Nat
  retryAt : Option Nat
deriving DecidableEq, Repr

/-- A die link that has not trained. -/
def DieLink.fresh : DieLink :=
  { epochA := 0, epochB := 0, cap := 8, single := false, step := 0, since := 0, began := 0, claimA := none, claimB := none,
    gotA := false, gotB := false, trained := false, replays := [], retryAt := none }

/-- The dies at run time: caches by compute die, the homes' waits in the order they began, messages on their way in the order of sending,
links by number, and by stack the number of the frame that is scrubbed next (R413). -/
structure Dies where
  caches : Map DieCache
  waits  : List HomeWait
  msgs   : List DieMsg
  links  : Map DieLink
  scrub  : Map Nat
deriving DecidableEq, Repr

/-- The dies after a start. -/
def Dies.fresh : Dies := ⟨Map.empty, [], [], Map.empty, Map.empty⟩

/-- What the block puts on its boundary, in order: the model's own record of emissions (log entry 5, DESIGN CHOICE). -/
inductive Output where
  /-- A management frame on a carrier, to a package for the torus (R54, R55). -/
  | frame (c : Carrier) (toPkg : Nat) (f : Frame)
  /-- A generation notice for a queue, to a bound sender's package (R193). -/
  | genNotice (toPkg queue gen : Nat) (closed : Bool)
  /-- Credit of a queue returned to a sender on another package (R179). -/
  | creditReturn (toPkg queue : Nat)
  /-- A channel message over a Relay link to a queue on another package (R184). -/
  | channelMessage (toPkg queue : Nat) (header payload : Bytes)
  /-- A commit message to a parent, child or requester (R253). -/
  | commit (toPkg : Nat) (bytes : Bytes)
  /-- An open request for a Relay link (R204): to, its link, this link, direction, job tag. -/
  | relayOpen (toPkg link own direction tag : Nat)
  /-- The close of a Relay link to its remote end (R204). -/
  | relayClose (toPkg link : Nat)
  /-- A Lane end that has opened, to its peer (R208). -/
  | laneOpen (toPkg lane : Nat) (fields : List Nat)
  /-- The pages of a micro-batch and its Baton on a Lane (R212): to, the peer's Lane, their content, the Baton. -/
  | lane (toPkg lane : Nat) (pages : List Bytes) (baton : Bytes)
  /-- Credit of a Lane back to its sender (R210): micro-batches and pages. -/
  | laneCredit (toPkg lane batches pages : Nat)
  /-- A generation notice of a Lane end to its peer (R193, R207): to, the peer's Lane, the generation, whether it is closed. -/
  | laneNotice (toPkg lane gen : Nat) (closed : Bool)
  /-- A block of a sequence ring (R309, R313): to, job stage, step, attempt, micro-batch, key, bytes. -/
  | ring (toPkg stage step attempt mb : Nat) (key : RingKey) (bytes : Bytes)
  /-- A reduction frame, header and payload, to the next member (R275, R276). -/
  | reduction (toPkg channel : Nat) (header payload : Bytes)
  /-- A CREDIT notice for a free receive area of a channel (R276). -/
  | areaCredit (toPkg channel : Nat)
  /-- A CREDIT notice for packets of the bulk class that have been taken (R375). -/
  | bulkCredit (toPkg packets : Nat)
  /-- A refusal notice with status EPOCH (R294). -/
  | epochRefusal (toPkg channel : Nat)
  /-- The request of a version fetch (R260): to, and the slot, its job stage, sequence slice and window pages. -/
  | versionFetch (toPkg : Nat) (fields : List Nat)
  /-- What a version fetch asked for (R260): to, the asking slot and the content. -/
  | versionContent (toPkg slot : Nat) (content : Bytes)
  /-- An RDMA READ request (R320): port, queue pair, first PSN, remote address, remote key, bytes; the frame that carries it. -/
  | rdmaRead (port qp psn address rkey size : Nat) (frame : Bytes)
  /-- The result of a slot to a sink of the replica (R349). -/
  | slotResult (toPkg u : Nat) (p : SlotPayload)
  /-- A sink asks a decoder for a slot's transfer again (R349). -/
  | slotAgain (toPkg u : Nat)
  /-- A sink's DATA_CURSOR to a decoder (R349): its slice. -/
  | cursor (toPkg sink at_ : Nat)
  /-- A clip notice to a decoder (R343): decoder index, SOURCE_ID, data epoch; all ones for a data epoch that is done. -/
  | clipNotice (toPkg decoder sourceId epoch : Nat)
  /-- A write of the host link bridge into host memory (R382): bus address and bytes. -/
  | hostWrite (address : Nat) (bytes : Bytes)
  /-- An MSI-X message on a vector (R380), with the address and data of its entry. -/
  | msi (vector address data : Nat)
  /-- The torus packet that carries the unit put out just before (Table 14.8): the port it leaves by, its virtual channel, and the packet. -/
  | packetSent (port vc : Nat) (p : Packet)
  /-- A flit on a port: its 640 bytes (Table 14.2). -/
  | flit (port : Nat) (bytes : Bytes)
  /-- A packet of another package passed on by a port on a virtual channel (R370, R371). -/
  | forward (port vc : Nat) (p : Packet)
  /-- A hello beacon, IDENTITY or UPDATE record of a port: 64 bytes (R358, R360, R364). -/
  | identity (port : Nat) (record : Bytes)
  /-- A LINE notice on a port (R369): dimension, link, whether it is down, origin. -/
  | lineNotice (port dim link : Nat) (down : Bool) (origin : Nat)
  /-- A NAK naming the last good LINK_SEQ (R355). -/
  | nak (port seq : Nat)
  /-- The replay of flits: the first LINK_SEQ and how many (R355). -/
  | replay (port first count : Nat)
  /-- A KEEPALIVE notice (R366). -/
  | keepalive (toPkg : Nat)
  /-- An UNREACHABLE notice for a discarded packet, to its source (R372). -/
  | unreachable (toPkg : Nat) (p : Packet)
  /-- A FLOW_RESET notice for a class, to the source of a broken flow (R374). -/
  | flowReset (toPkg cls : Nat)
  /-- An IEEE 1588 message on a port (R376): 0 Sync, 1 Follow_Up, 2 Pdelay_Req, 3 Pdelay_Resp, 4 Pdelay_Resp_Follow_Up; its sequence,
  the time it carries. -/
  | ptp (port kind domain seq stamp : Nat)
deriving DecidableEq, Repr

/-! ### The torus (chapter 14) -/

/-- The peer delay measurement and the time messages of a port (R376): when the last Pdelay_Req went (µs), its sequence and its time, the
time the partner received it, when its response arrived; the last Sync's sequence and arrival; the sequence of the last Sync sent and when
it went. -/
structure Ptp where
  reqAt   : Option Nat
  reqSeq  : Nat
  t1      : Nat
  t2      : Nat
  t4      : Nat
  syncSeq : Nat
  syncAt  : Nat
  outSeq  : Nat
  outAt   : Option Nat
deriving DecidableEq, Repr

/-- Nothing measured. -/
def Ptp.idle : Ptp := ⟨none, 0, 0, 0, 0, 0, 0, 0, none⟩

/-- A flit of a packet that waits to be sent (R356, R367): the header of its packet, whether it is the packet's first and its last, its
payload, and the receiving port and buffer that hold it until it is sent; none for one of the package's own. -/
structure QueuedFlit where
  head    : Bytes
  first   : Bool
  last    : Bool
  payload : Bytes
  origin  : Option (Nat × Nat)
deriving DecidableEq, Repr

/-- A flit in the replay buffer (R355): its kind, VC byte, LINK_SEQ and payload. -/
structure SentFlit where
  kind    : Nat
  vc      : Nat
  seq     : Nat
  payload : Bytes
deriving DecidableEq, Repr

/-- A torus port at run time (R354-R362): whether light is received, the training step (0 none) and when it began, passing hellos
in a row, when the last hello came and the last beacon went, the times of its flaps, when its hold ends, since when it is UP, when its
partner was last lost; the lanes that passed its last test; the last LINK_SEQ sent and the last covered by ACK_SEQ, the last received in order
and the last that was acknowledged, whether a replay is awaited, the times of its replays, the replay buffer; CONTROL records that wait; by
buffer in the order of Table 14.6: credit, flits that wait to be sent, flits received and held, flits freed and not yet returned as credit,
the bytes of the packet that arrives, and the packets that have arrived whole; the classes of the last flits sent, newest first, the place in
the round of 4, 3 and 1, and the next virtual channel of each class (R375). -/
structure TPort where
  light     : Bool
  step      : Nat
  since     : Nat
  hellos    : Nat
  lastHello : Nat
  beacon    : Nat
  flaps     : List Nat
  holdUntil : Nat
  upSince   : Nat
  lostAt    : Option Nat
  mask      : Nat
  tx        : Nat
  acked     : Nat
  rx        : Nat
  told      : Nat
  awaits    : Bool
  replays   : List Nat
  window    : List SentFlit
  controls  : List Bytes
  credit    : Map Nat
  waiting   : Map (List QueuedFlit)
  held      : Map Nat
  owed      : Map Nat
  parts     : Map Bytes
  arrived   : List (Nat × Packet)
  recent    : List Nat
  round     : Nat
  turns     : Map Nat
  ptp       : Ptp
deriving DecidableEq, Repr

/-- A port after a start. -/
def TPort.idle : TPort :=
  { light := false, step := 0, since := 0, hellos := 0, lastHello := 0, beacon := 0, flaps := [], holdUntil := 0, upSince := 0,
    lostAt := none, mask := 0, tx := 65535, acked := 65535, rx := 65535, told := 65535, awaits := false, replays := [], window := [],
    controls := [], credit := Map.empty, waiting := Map.empty, held := Map.empty, owed := Map.empty, parts := Map.empty, arrived := [],
    recent := [], round := 0, turns := Map.empty, ptp := Ptp.idle }

/-- A flow of an ordered class (R374): at a source the next FLOW_SEQ and whether its packet sets SYNC; at a destination the
FLOW_SEQ expected and whether the flow is broken. -/
structure Flow where
  next : Nat
  mark : Bool
deriving DecidableEq, Repr

/-- A flow that has carried nothing. -/
def Flow.fresh : Flow := ⟨0, false⟩

/-- A line's link that is UP again and that ordered classes still avoid (R373): dimension, link, since when. -/
structure Rejoin where
  dim   : Nat
  link  : Nat
  since : Nat
deriving DecidableEq, Repr

/-- A bulk transfer that arrives (R371): its source, number and kind, and the pieces that have landed, by their offset. -/
structure BulkIn where
  source : Nat
  number : Nat
  kind   : Nat
  pieces : List (Nat × Bytes)
deriving DecidableEq, Repr

/-- The torus at run time: ports by number; flows to a package and from a package by 8 × package + class; when a package was last
heard and last sent to, in µs; links that rejoin; consecutive offsets within ±100 ns, and the part of a nanosecond that the servo's rate has
gathered, in 10^-6 ns (R377). The bulk class (R371, R375): by package, packets sent for which no CREDIT has come back and the number of the
next transfer; packets that wait for the window; transfers that arrive. -/
structure Torus where
  ports    : Map TPort
  flowsOut : Map Flow
  flowsIn  : Map Flow
  heard    : Map Nat
  sentTo   : Map Nat
  rejoin   : List Rejoin
  inBand   : Nat
  frac     : Int
  bulkSent : Map Nat
  bulkNext : Map Nat
  bulkWait : List Packet
  bulkIn   : List BulkIn
deriving DecidableEq, Repr

/-- The torus after a start. -/
def Torus.fresh : Torus :=
  { ports := Map.empty, flowsOut := Map.empty, flowsIn := Map.empty, heard := Map.empty, sentTo := Map.empty, rejoin := [], inBand := 0,
    frac := 0, bulkSent := Map.empty, bulkNext := Map.empty, bulkWait := [], bulkIn := [] }

/-- The package's place in the torus as taken at the last start (R384): its id and the three dimensions. -/
structure Node where
  id   : Nat
  dimX : Nat
  dimY : Nat
  dimZ : Nat
deriving DecidableEq, Repr

/-- The state of the S93. `pending`: the commands that wait, first in, first out. `now`: microseconds of the
reference clock (log entry 2, DESIGN CHOICE). `fresh`: the next free value's number (log entry 4, DESIGN CHOICE). `objs`: object values by key,
an unlisted object reading its default; `doms`: the bytes of DOMAIN objects that have no home of their own. `cores` by
core id, `bents` by logical number, `queues` by 64 × Bent + queue, `flights` in the order of sending, `frames` by
2^32 × stack + number, `pages` by page number, `slots`, `lanes` and `chans` by number, `buckets` by 64 × slot + bucket. -/
structure State where
  pending : List Instr
  now     : Nat
  fresh   : Nat
  out     : List Output
  fuses   : Fuses
  objs    : Map Nat
  doms    : Map (Map Byte)
  mgmt    : Mgmt
  start   : Start
  node    : Node
  cores   : Map Core
  bents   : Map Bent
  queues  : Map Queue
  flights : List Flight
  frames  : Map HFrame
  pages   : Map Page
  slots   : Map Slot
  lanes   : Map LaneEnd
  asks    : List RelayAsk
  commit  : Commit
  buckets : Map Bucket
  chans   : Map Channel
  faults  : Faults
  torus   : Torus
  data    : DataEngine
  dies    : Dies
deriving DecidableEq, Repr

/-- The management transport with nothing open. -/
def Mgmt.empty : Mgmt :=
  { sessions := [], nextSession := 1, outstanding := [], transfers := [], proxies := [], trace := [],
    failures := [], lockedUntil := none, requests := [], responses := [], held := [], events := [],
    restoreMark := false, msiEnabled := false, msiLast := [], msiPending := [],
    host := HostConfig.reset }

/-- The serial of the package after reset: a factory value, which the manual does not give (log entry 6, DESIGN CHOICE). -/
def factorySerial : Bytes := [0x49#8, 0x4B#8, 0x53#8, 0x39#8, 0x33#8, 0x41#8, 0x30#8, 0x30#8, 0x30#8, 0x30#8, 0x30#8, 0x30#8, 0x30#8, 0x30#8, 0x30#8, 0x31#8]

/-- The fused service key after reset: a factory value, which the manual does not give (log entry 6, DESIGN CHOICE). -/
def factoryServiceKey : Bytes :=
  [0xD7#8, 0x5A#8, 0x98#8, 0x01#8, 0x82#8, 0xB1#8, 0x0A#8, 0xB7#8, 0xD5#8, 0x4B#8, 0xFE#8, 0xD3#8, 0xC9#8, 0x64#8, 0x07#8, 0x3A#8,
   0x0E#8, 0xE1#8, 0x72#8, 0xF3#8, 0xDA#8, 0xA6#8, 0x23#8, 0x25#8, 0xAF#8, 0x02#8, 0x1A#8, 0x68#8, 0xF7#8, 0x07#8, 0x51#8, 0x1A#8]

/-- The fused firmware key after reset: a factory value, which the manual does not give (log entry 6, DESIGN CHOICE). -/
def factoryFirmwareKey : Bytes :=
  [0x3D#8, 0x40#8, 0x17#8, 0xC3#8, 0xE8#8, 0x43#8, 0x89#8, 0x5A#8, 0x92#8, 0xB7#8, 0x0A#8, 0xA7#8, 0x4D#8, 0x1B#8, 0x7E#8, 0xBC#8,
   0x9C#8, 0x98#8, 0x2C#8, 0xCF#8, 0x2E#8, 0xC4#8, 0x96#8, 0x8C#8, 0xC0#8, 0xCD#8, 0x55#8, 0xF1#8, 0x2A#8, 0xF4#8, 0x66#8, 0x0C#8]

/-- The machine when the 48 V input has just come into range: the standby part is up, nothing else is powered. -/
def State.reset : State :=
  { pending := [], now := 0, fresh := 0, out := [],
    fuses := { serial := factorySerial, steppings := [0x10, 0x10, 0x10, 0x10, 0x10], masks := [0x3F, 0x3F, 0x3F, 0x3F, 0x3F],
               spares := [12, 12, 12, 12, 0xFF], tallyMac := 0x020053930001,
               ingestMac := [0x020053930002, 0x020053930003], serviceId := 1, serviceKey := factoryServiceKey,
               firmwareKey := factoryFirmwareKey },
    objs := Map.empty, doms := Map.empty, mgmt := Mgmt.empty,
    start := { phase := .off, stepSince := 0, begun := 0, bootSel := none, failedSlot := none, inputInRange := true,
               pwrEn := false, rstN := true, bootA := true, bootB := true, pwrSince := none, pgOut := false,
               tripHold := false, pwrLowSince := false, slotA := ⟨Map.empty, []⟩, slotB := ⟨Map.empty, []⟩,
               minSecurity := 0, dieResets := [], lastPowerUp := none, upQueue := [], domSince := Map.empty, quietEvals := [] },
    node := { id := 0, dimX := 1, dimY := 1, dimZ := 1 },
    cores := Map.empty, bents := Map.empty, queues := Map.empty, flights := [], frames := Map.empty, pages := Map.empty,
    slots := Map.empty, lanes := Map.empty, asks := [], commit := Commit.fresh, buckets := Map.empty, chans := Map.empty,
    faults := Faults.empty, torus := Torus.fresh, data := DataEngine.fresh, dies := Dies.fresh }

end Sys2Proof.Machine
end

