-- ==== Sys2Proof/Machine/Ops.lean ====
section
/-! DEFINITION. The named operations every meaning is built from: reading and writing object values, putting things
on the boundary, elapsed time, the power domains, and which units are up; the status codes of the dictionary. -/

namespace Sys2Proof.Machine

/-- Status codes of Table 3.8. -/
def stOk : Nat := 0x00
/-- DEFERRED. -/
def stDeferred : Nat := 0x01
/-- NO_OBJECT. -/
def stNoObject : Nat := 0x10
/-- NO_SUBINDEX. -/
def stNoSubindex : Nat := 0x11
/-- READ_ONLY. -/
def stReadOnly : Nat := 0x12
/-- WRITE_ONLY. -/
def stWriteOnly : Nat := 0x13
/-- TYPE. -/
def stType : Nat := 0x14
/-- RANGE. -/
def stRange : Nat := 0x15
/-- LEVEL. -/
def stLevel : Nat := 0x16
/-- STATE. -/
def stState : Nat := 0x17
/-- BUSY. -/
def stBusy : Nat := 0x18
/-- CYCLE. -/
def stCycle : Nat := 0x20
/-- EPOCH. -/
def stEpoch : Nat := 0x21
/-- STALE. -/
def stStale : Nat := 0x22
/-- CLOSED. -/
def stClosed : Nat := 0x23
/-- WALK. -/
def stWalk : Nat := 0x30

/-- The value of an object held in the dictionary's store. -/
def State.rd (s : State) (k : Nat) : Nat := s.objs.get (objDefault k) k

/-- The state with an object's value written; writing the default removes the entry. -/
def State.wr (s : State) (k v : Nat) : State := { s with objs := s.objs.set (objDefault k) k v }

/-- The state with `n` added to a count. -/
def State.add (s : State) (k n : Nat) : State := s.wr k (s.rd k + n)

/-- The state with a list of objects written in order. -/
def State.wrAll (s : State) : List (Nat × Nat) → State
  | [] => s
  | (k, v) :: r => State.wrAll (s.wr k v) r

/-- The bytes of a DOMAIN object held in the dictionary's store, and its content of zeros when unlisted. -/
def State.dom (s : State) (k : Nat) : Map Byte := s.doms.get Map.empty k

/-- The state with a DOMAIN object's content replaced. -/
def State.setDom (s : State) (k : Nat) (m : Map Byte) : State := { s with doms := s.doms.set Map.empty k m }

/-- The state with something put on the boundary. -/
def State.put (s : State) (o : Output) : State := { s with out := s.out ++ [o] }

/-- The next free number, and the state that has used it (log entry 4, DESIGN CHOICE). -/
def State.free (s : State) : Nat × State := (Config.freeNat s.fresh, { s with fresh := s.fresh + 1 })

/-- Apply a step for each element of a list, in order. -/
def State.each {α : Type} (f : State → α → State) : State → List α → State
  | s, [] => s
  | s, a :: r => State.each f (f s a) r

/-- An event reaches the Prisum controller: whoever follows its object learns of it (R62, R389). -/
def State.raiseEvent (s : State) (k : Nat) : State :=
  { s with mgmt := { s.mgmt with sessions := s.mgmt.sessions.map (fun e =>
      { e with subs := e.subs.map (fun b => if b.key = k then { b with dirty := true } else b) }) } }

/-- Whether at least `d` µs have passed since `t`. -/
def State.elapsed (s : State) (t d : Nat) : Bool := decide (t + d ≤ s.now)

/-- Domain states of R450. -/
def domOff : Nat := 0
/-- POWERING_UP. -/
def domUp : Nat := 1
/-- ON. -/
def domOn : Nat := 2
/-- POWERING_DOWN. -/
def domDown : Nat := 3
/-- EXCLUDED. -/
def domExcluded : Nat := 4
/-- FAILED. -/
def domFailed : Nat := 5

/-- DOMAIN_STATE of a power domain (R450). -/
def State.domain (s : State) (d : Nat) : Nat := s.rd (O.domainState (d))

/-- Whether a power domain is ON. -/
def State.domainOn (s : State) (d : Nat) : Bool := decide (s.domain d = domOn)

/-- Whether a domain counts as off: OFF or FAILED (R450). -/
def State.domainOff (s : State) (d : Nat) : Bool := decide (s.domain d = domOff) || decide (s.domain d = domFailed)

/-- Whether a logical Bent is powered (Table 17.6, domains 0x00-0x2F). -/
def State.bentOn (s : State) (b : Nat) : Bool := s.domainOn b

/-- Whether the package is in Walk mode (R447). -/
def State.walk (s : State) : Bool := decide (s.start.phase = .walk)

/-- Whether the package reported READY and runs (R438). -/
def State.ready (s : State) : Bool := decide (s.start.phase = .ready)

/-- Whether the Prisum controller serves the dictionary: the always-on domain is up and no reset holds it
(Table 17.1 step 1, Table 17.8). -/
def State.served (s : State) : Bool :=
  match s.start.phase with
  | .off => false
  | .held => false
  | .restarting => false
  | .step n => decide (2 ≤ n)
  | .ready => true
  | .walk => true

/-- EFFECTIVE_MASK bit `n` (R37). -/
def State.feature (s : State) (n : Nat) : Bool := (s.rd O.effectiveMask).testBit n

/-- Package time in ns (R377). -/
def State.time (s : State) : Nat := s.rd O.timeNow

end Sys2Proof.Machine
end

