-- ==== Sys2Proof/Machine/Tally.lean ====
section
/-! DEFINITION. Counting events in the performance counters (R462-R465): the shared operation by which a unit's event
adds to every counter that selects it. Events counted per cycle of a unit's occupancy are timing and are not counted
here (log entry 13, DESIGN CHOICE); clock events are counted as time passes. -/

namespace Sys2Proof.Machine

/-- Add to a 48-bit counter: past 2^48 - 1 it wraps and sets its sticky overflow bit (R464). -/
def State.bump (s : State) (value overflow bit n : Nat) : State :=
  let v := s.rd value + n
  if v < 2 ^ 48 then s.wr value v
  else (s.wr value (v % 2 ^ 48)).wr overflow (s.rd overflow ||| 2 ^ bit)

/-- An event of core `c` (Table 18.2), `n` times. -/
def State.pc (s : State) (c event n : Nat) : State :=
  if s.rd O.counterFreeze = 1 then s
  else
    State.each (fun t k =>
      if t.rd (O.pcSelect (c / 64) k (c % 64)) = event then
        t.bump (O.pcValue (c / 64) k (c % 64)) (O.pcOverflow (c / 64) (c % 64)) k n
      else t) s [0, 1, 2, 3]

/-- An event of Bent `b` (Table 18.3), `n` times. -/
def State.bpc (s : State) (b event n : Nat) : State :=
  if s.rd O.counterFreeze = 1 then s
  else
    State.each (fun t k =>
      if t.rd (O.bpcSelect b k) = event then t.bump (O.bpcValue b k) (O.bpcOverflow b) k n else t) s (natsFrom 0 8)

/-- A package event of a unit (Table 18.4), `n` times: the qualifier names the unit, or 0xFF for all of its kind. -/
def State.kpc (s : State) (event unit n : Nat) : State :=
  if s.rd O.counterFreeze = 1 then s
  else
    State.each (fun t j =>
      let w := t.rd (O.kpcSelect j)
      if w % 256 = event ∧ (w / 256 = unit ∨ w / 256 = 255) then t.bump (O.kpcValue j) O.kpcOverflow j n else t) s
      (natsFrom 0 32)

/-- The level of a counter object: 0 core, 1 Bent, 2 package; none for another object. The numbers of its part: 0 select, 1 value,
2 overflow (Table 18.8). -/
def counterPart (k : Nat) : Option (Nat × Nat) :=
  let i := keyIndex k
  let j := keySub k
  if j = 0 then none
  else if i = 0xA010 then some (2, 0) else if i = 0xA011 then some (2, 1) else if i = 0xA012 then some (2, 2)
  else if 0xA100 ≤ i ∧ i < 0xA130 then
    (if j ≤ 0x08 then some (1, 0) else if j ≤ 0x10 then some (1, 1) else if j = 0x11 then some (1, 2) else none)
  else if 0xA200 ≤ i ∧ i < 0xA2C0 then some (0, 1)
  else if 0xA300 ≤ i ∧ i < 0xA3C0 then some (0, 0)
  else if 0xA400 ≤ i ∧ i < 0xA430 then some (0, 2)
  else none

/-- The Bent whose domain a counter object belongs to; none for the package's (R466). -/
def counterBent (k : Nat) : Option Nat :=
  let i := keyIndex k
  match counterPart k with
  | some (0, 2) => some (i - 0xA400)
  | some (0, 1) => some ((i - 0xA200) / 4)
  | some (0, _) => some ((i - 0xA300) / 4)
  | some (1, _) => some (i - 0xA100)
  | _ => none

/-- Whether an object is a counter's part of a kind. -/
def isCounterPart (p k : Nat) : Bool := (counterPart k).elim false (fun x => decide (x.2 = p))

/-- The number of units of a package event's kind; 1 for an event whose qualifier is 0x00 (Table 18.4). -/
def eventUnits (e : Nat) : Nat :=
  if e = 3 ∨ e = 4 then 12 else if e = 5 ∨ e = 6 ∨ e = 0x0E then 4 else if e = 7 then 10
  else if 8 ≤ e ∧ e ≤ 0x0B then 6 else if e = 0x0C then 2 else 1

/-- Whether a select word is defined for a level (R463). -/
def selectDefined (level v : Nat) : Bool :=
  let e := v % 256
  let q := v / 256
  if level = 2 then decide (e ≤ 0x10) && (decide (q < eventUnits e) || (decide (q = 255) && decide (1 < eventUnits e)))
  else decide (q = 0) && decide (e ≤ (if level = 0 then 0x13 else 0x0E))

end Sys2Proof.Machine
end

