-- ==== Sys2Proof/Machine/Cache.lean ====
section
/-! DEFINITION. The remote-line caches and the snoop filters (R391-R397): what a die's lines and a home's filter come to when a block is read
by, or written for, another die. A block is named by 16 × its frame's key + its number in the frame. -/

namespace Sys2Proof.Machine

/-- The home die of a block: the die of its stack (R17). -/
def homeOf (block : Nat) : Nat := block / 2 ^ 36 / 3

/-- The stack of a block. -/
def blockStack (block : Nat) : Nat := block / 2 ^ 36

/-- The set of the remote-line cache that a block maps to (R391), by the block's number in its stack. -/
def rlcSet (block : Nat) : Nat := block % 2 ^ 36 % 1536

/-- The set of the snoop filter that a block maps to: 98,304 entries in 16 ways (R395). -/
def filterSet (block : Nat) : Nat := block % 2 ^ 36 % 6144

/-- The cache, filter and requests of a die. -/
def State.cache (s : State) (d : Nat) : DieCache := s.dies.caches.get DieCache.empty d

/-- The state with a die's cache and filter replaced. -/
def State.setCache (s : State) (d : Nat) (v : DieCache) : State :=
  { s with dies := { s.dies with caches := s.dies.caches.set DieCache.empty d v } }

/-- Whether a die has a cache that takes lines (R392). -/
def State.rlcOn (s : State) (d : Nat) : Bool := decide (d < 4) && decide (s.rd (O.rlcEnable d) = 1)

/-- The list without its first element that satisfies `p`. -/
def dropFirst {α : Type} (p : α → Bool) : List α → List α
  | [] => []
  | a :: r => if p a then r else a :: dropFirst p r

/-- A line becomes the last used of its set; a full set gives up its least recently used line (R391). -/
def fillLine (lines : List Nat) (block : Nat) : List Nat :=
  let rest := lines.filter (fun b => decide (b ≠ block))
  let same := fun b => decide (rlcSet b = rlcSet block)
  (if (rest.filter same).length < 16 then rest else dropFirst same rest) ++ [block]

/-- The holders that a filter names for a block, as a mask. -/
def holders (filter : List (Nat × Nat)) (block : Nat) : Nat :=
  ((filter.find? (fun e => decide (e.1 = block))).map Prod.snd).getD 0

/-- The dies of a mask. -/
def maskDies (m : Nat) : List Nat := (natsFrom 0 4).filter (fun d => m.testBit d)

/-- The filter with a block's holders set; an entry that names none goes. The entry becomes the last used. -/
def setHolders (filter : List (Nat × Nat)) (block m : Nat) : List (Nat × Nat) :=
  filter.filter (fun e => decide (e.1 ≠ block)) ++ (if m = 0 then [] else [(block, m)])

/-- The entry that a filter gives up for a new one, when the set has no way left beyond those taken (R395). -/
def filterVictim (filter : List (Nat × Nat)) (block taken : Nat) : Option (Nat × Nat) :=
  let set := filter.filter (fun e => decide (filterSet e.1 = filterSet block))
  if set.length + taken < 16 then none else set.head?

/-- A holder drops its line of a block on an INVALIDATE (R393, R395). -/
def State.invalidateLine (s : State) (block d : Nat) : State :=
  let c := s.cache d
  (s.setCache d { c with lines := c.lines.filter (fun b => decide (b ≠ block)) }).add (O.rlcInvalidations d) 1

/-- A message is sent (R389). -/
def State.sendDie (s : State) (m : DieMsg) : State := { s with dies := { s.dies with msgs := s.dies.msgs ++ [m] } }

/-- The requests of a die that are outstanding on its link to a home (R390). -/
def onLink (home : Nat) (l : List DieOp) : List DieOp := l.filter (fun o => decide (homeOf o.block = home))

/-- A request of a die leaves for its home, or waits for room among the 256 READs or 64 WRITEs of its link (R390). -/
def State.askHome (s : State) (d : Nat) (o : DieOp) : State :=
  let c := s.cache d
  let h := homeOf o.block
  match o.content with
  | none =>
    if 256 ≤ (onLink h c.reads).length then s.setCache d { c with later := c.later ++ [o] }
    else (s.setCache d { c with reads := c.reads ++ [o] }).sendDie ⟨.read, d, h, o.block, none⟩
  | some m =>
    if 64 ≤ (onLink h c.writes).length then s.setCache d { c with later := c.later ++ [o] }
    else (s.setCache d { c with writes := c.writes ++ [o] }).sendDie ⟨.write, d, h, o.block, some m⟩

/-- Room has come on a die's link to a home: the first request of its kind that waits for it leaves. -/
def State.askLater (s : State) (d h : Nat) (writes : Bool) : State :=
  let fits := fun (o : DieOp) => decide (homeOf o.block = h) && decide (o.content.isSome = writes)
  match (s.cache d).later.find? fits with
  | none => s
  | some o => (s.setCache d { s.cache d with later := dropFirst fits (s.cache d).later }).askHome d o

/-- The blocks that a miss prefetches: after consecutive misses on blocks k and k + 1 of a page, k + 2 to k + 5 of it (R396). -/
def State.prefetches (s : State) (block d : Nat) : List Nat :=
  if s.feature 2 && decide ((s.cache d).missed = some (block - 1)) && decide (0 < block % 16) then
    (natsFrom (block + 1) 4).filter (fun b => decide (b / 16 = block / 16) && !((s.cache d).lines.contains b))
  else []

/-- A miss of a die's cache counts. -/
def State.countMiss (s : State) (block d : Nat) : State :=
  let t := (s.add (O.rlcMisses d) 1).kpc 0x06 d 1
  t.setCache d { t.cache d with missed := some block }

/-- A READ for a core, or for none, that misses, and the READs that it prefetches (R392, R396). -/
def State.missRead (s : State) (d block : Nat) (core : Option Nat) : State :=
  let ahead := (s.prefetches block d).filter (fun b => !((s.cache d).reads.any (fun o => decide (o.block = b))))
  let t := (s.countMiss block d).askHome d ⟨block, core, none⟩
  State.each (fun (t : State) (b : Nat) =>
    if 256 ≤ (onLink (homeOf b) (t.cache d).reads).length then t
    else (t.add (O.rlcPrefetches d) 1).askHome d ⟨b, none, none⟩) t ahead

/-- A unit of a die reads a block (R390-R392, R396): the state, and whether the block's own stack or the die's cache serves it at once. -/
def State.wantRead (s : State) (d block : Nat) (core : Option Nat) : State × Bool :=
  let c := s.cache d
  if homeOf block = d then (s, true)
  else if !s.rlcOn d then (s.askHome d ⟨block, core, none⟩, false)
  else if c.lines.contains block then
    (((s.setCache d { c with lines := fillLine c.lines block }).add (O.rlcHits d) 1).kpc 0x05 d 1, true)
  else (s.missRead d block core, false)

/-- An engine or a page mover of a die reads a block whose home is another die. Its READ goes as every READ goes; the bytes are taken as they are
at the home now (log entry 27, DEDUCED). -/
def State.engineRead (s : State) (d block : Nat) : State :=
  let t := (s.wantRead d block none).1
  if homeOf block = d then t.kpc 0x03 (blockStack block) 4096 else t

/-- A block is written by a unit that does not wait for its WRITE_ACK (log entry 27, DEDUCED): the home sends INVALIDATE to every holder that its
filter names but the writer (R393). -/
def State.blockWritten (s : State) (writer block : Nat) : State :=
  let h := homeOf block
  let f := (s.cache h).filter
  let m := holders f block
  let gone := (maskDies m).filter (fun d => decide (d ≠ writer))
  if gone.isEmpty then s
  else
    let t := State.each (fun (t : State) (d : Nat) => t.sendDie ⟨.invalidate, h, d, block, none⟩) s gone
    let c := t.cache h
    let t := t.setCache h { c with filter := setHolders c.filter block (if m.testBit writer then 2 ^ writer else 0) }
    { t with dies := { t.dies with waits := t.dies.waits ++ [⟨block, false, none, gone, []⟩] } }

/-- A core's descriptors do not wait any more for what its die has asked for: they are abandoned (R116). -/
def State.disown (s : State) (c : Nat) : State :=
  let free := fun (o : DieOp) => if o.core = some c then { o with core := none } else o
  let k := s.cache (c / 768)
  if (k.reads ++ k.writes ++ k.later).any (fun o => decide (o.core = some c)) then
    s.setCache (c / 768) { k with reads := k.reads.map free, writes := k.writes.map free, later := k.later.map free }
  else s

/-- The lines and the filter without anything of a die that leaves reset or is excluded (R397). -/
def DieCache.without (c : DieCache) (d : Nat) : DieCache :=
  { c with lines := c.lines.filter (fun b => decide (homeOf b ≠ d)),
           filter := (c.filter.map (fun e => (e.1, e.2 - (if e.2.testBit d then 2 ^ d else 0)))).filter (fun e => decide (e.2 ≠ 0)) }

end Sys2Proof.Machine
end

