-- ==== Sys2Proof/Machine/Flags.lean ====
section
/-! DEFINITION. The five sticky status flags of a core (R92) as the bits of CORE_FP_STATUS, and the overflow and
underflow judgements every rounding shares (R84, R92). -/

namespace Sys2Proof.Machine

/-- INVALID, bit 4 of CORE_FP_STATUS (Table 5.14). -/
def flInvalid : Nat := 16
/-- DIVIDE_BY_ZERO. -/
def flDivZero : Nat := 8
/-- OVERFLOW. -/
def flOverflow : Nat := 4
/-- UNDERFLOW. -/
def flUnderflow : Nat := 2
/-- INEXACT. -/
def flInexact : Nat := 1

/-- The flags of two results together: each is sticky (R92). -/
def flOr (a b : Nat) : Nat := a ||| b

/-- A flag set when a condition holds. -/
def flIf (c : Bool) (f : Nat) : Nat := if c then f else 0

/-- Flags of a rounding that did not overflow: UNDERFLOW when tiny after rounding and inexact, INEXACT when inexact. -/
def flRounded (inexact tiny : Bool) : Nat := flIf inexact flInexact ||| flIf (inexact && tiny) flUnderflow

/-- Flags of an overflow (R84). -/
def flOverflowed : Nat := 5

end Sys2Proof.Machine
end

