-- ==== Sys2Proof/Machine/Numbers.lean ====
section
/-! DEFINITION. The number formats of chapter 04 as exact values: decoding every element format, rounding an exact value
once to a target (R82-R84), the conversion control (R85), block scales (R78-R81) and the arithmetic of FP32 (R68). -/

namespace Sys2Proof.Machine

/-- The exact value a code stands for: NaN (signalling or quiet), an infinity, or (-1)^neg × m × 2^e. -/
inductive Num where
  | nan (signalling : Bool)
  | inf (neg : Bool)
  | fin (neg : Bool) (m : Nat) (e : Int)
deriving DecidableEq, Repr

/-- The element formats of Table 4.1. -/
inductive Fmt where
  | fp32 | fp16 | bf16 | k8 | k8w | k6 | k4 | ki8 | ki4
deriving DecidableEq, Repr

/-- The format a 4-bit code names; none for a reserved code (R66). -/
def Fmt.ofCode : Nat → Option Fmt
  | 0 => some .fp32 | 1 => some .fp16 | 2 => some .bf16 | 3 => some .k8 | 4 => some .k8w
  | 5 => some .k6 | 6 => some .k4 | 7 => some .ki8 | 8 => some .ki4 | _ => none

/-- Bits per element (Table 4.1). -/
def Fmt.bits : Fmt → Nat
  | .fp32 => 32 | .fp16 => 16 | .bf16 => 16 | .k8 => 8 | .k8w => 8 | .k6 => 6 | .k4 => 4 | .ki8 => 8 | .ki4 => 4

/-- Mantissa bits of a floating format (Table 4.1). -/
def Fmt.mant : Fmt → Nat
  | .fp32 => 23 | .fp16 => 10 | .bf16 => 7 | .k8 => 3 | .k8w => 2 | .k6 => 2 | .k4 => 1 | .ki8 => 0 | .ki4 => 0

/-- Exponent bias of a floating format (Table 4.3, R68, R72). -/
def Fmt.bias : Fmt → Nat
  | .fp32 => 127 | .fp16 => 15 | .bf16 => 127 | .k8 => 7 | .k8w => 15 | .k6 => 3 | .k4 => 1 | .ki8 => 0 | .ki4 => 0

/-- Exponent field width. -/
def Fmt.expBits (f : Fmt) : Nat := f.bits - 1 - f.mant

/-- Whether a format has infinities (Table 4.3). -/
def Fmt.hasInf : Fmt → Bool
  | .fp32 => true | .fp16 => true | .bf16 => true | .k8w => true | _ => false

/-- Whether a format is one of the two integer formats. -/
def Fmt.isInt : Fmt → Bool
  | .ki8 => true | .ki4 => true | _ => false

/-- Exponent of the smallest normal of a floating format (Table 4.3). -/
def Fmt.emin (f : Fmt) : Int := 1 - (f.bias : Int)

/-- Spacing exponent of the smallest subnormal. -/
def Fmt.qmin (f : Fmt) : Int := f.emin - (f.mant : Int)

/-- Exponent field of the largest finite value. -/
def Fmt.maxField (f : Fmt) : Nat :=
  match f with
  | .k8 => 15 | .k6 => 7 | .k4 => 3 | _ => 2 ^ f.expBits - 2

/-- Mantissa field of the largest finite value. -/
def Fmt.maxMant (f : Fmt) : Nat :=
  match f with
  | .k8 => 6 | _ => 2 ^ f.mant - 1

/-- The magnitude code of the largest finite value. -/
def Fmt.maxCode (f : Fmt) : Nat := f.maxField * 2 ^ f.mant + f.maxMant

/-- The magnitude code of infinity, where the format has one. -/
def Fmt.infCode (f : Fmt) : Nat := (2 ^ f.expBits - 1) * 2 ^ f.mant

/-- The canonical NaN pattern (Table 4.11); 0 where the format has none. -/
def Fmt.nanCode : Fmt → Nat
  | .fp32 => 0x7FC00000 | .fp16 => 0x7E00 | .bf16 => 0x7FC0 | .k8 => 0x7F | .k8w => 0x7E | _ => 0

/-- The value of a code of a format, before any block scale (R68, R71, R72, R74). -/
def Fmt.decode (f : Fmt) (c : Nat) : Num :=
  if f.isInt then
    let v := c % 256
    if v < 128 then .fin false v 0 else .fin true (256 - v) 0
  else
    let neg := decide (c / 2 ^ (f.bits - 1) % 2 = 1)
    let x := c / 2 ^ f.mant % 2 ^ f.expBits
    let m := c % 2 ^ f.mant
    if f.hasInf ∧ x = 2 ^ f.expBits - 1 then
      (if m = 0 then .inf neg else .nan (decide ((f = .fp32 ∨ f = .fp16) ∧ m < 2 ^ (f.mant - 1))))
    else if f = .k8 ∧ x = 15 ∧ m = 7 then .nan false
    else if x = 0 then .fin neg m f.qmin
    else .fin neg (2 ^ f.mant + m) ((x : Int) - (f.bias : Int) - (f.mant : Int))

/-- The value of an FP32 pattern. -/
def f32 (v : W32) : Num := Fmt.decode .fp32 v.toNat

/-- A value multiplied by 2^k; NaN and infinity stay. -/
def Num.shift (x : Num) (k : Int) : Num :=
  match x with
  | .fin n m e => .fin n m (e + k)
  | y => y

/-- An element's value under its block's X8 scale (R78, R79). -/
def scaled (scale : Nat) (x : Num) : Num :=
  if scale = 255 then .nan false else x.shift ((scale : Int) - 127)

/-- Whether a value is zero. -/
def Num.isZero : Num → Bool
  | .fin _ m _ => decide (m = 0)
  | _ => false

/-- Whether a value is finite. -/
def Num.finite : Num → Bool
  | .fin _ _ _ => true
  | _ => false

/-- Whether a value is a NaN. -/
def Num.isNan : Num → Bool
  | .nan _ => true
  | _ => false

/-- Whether a value is infinite. -/
def Num.isInf : Num → Bool
  | .inf _ => true
  | _ => false

/-- Whether a value is a signalling NaN. -/
def Num.isSnan : Num → Bool
  | .nan s => s
  | _ => false

/-- The sign of a value. -/
def Num.sign : Num → Bool
  | .nan _ => false
  | .inf n => n
  | .fin n _ _ => n

/-- The rounding of a conversion: to nearest even, or stochastic with the position's 16 random bits (R82, R83). -/
inductive Rnd where
  | rne
  | sr (r : Nat)
  /-- roundTowardZero, for the one integer conversion that names it (R68). -/
  | rtz
deriving DecidableEq, Repr

/-- Round m × 2^e to a multiple of 2^q: the multiple and whether it is inexact. Bits of the fraction below 2^-16 take no
part under SR (R83). -/
def roundMag (m : Nat) (e q : Int) (r : Rnd) : Nat × Bool :=
  if q ≤ e then (m * 2 ^ (e - q).toNat, false)
  else
    let d := (q - e).toNat
    let n := m / 2 ^ d
    let rem := m % 2 ^ d
    if rem = 0 then (n, false)
    else
      match r with
      | .rtz => (n, true)
      | .rne =>
        if 2 ^ d < 2 * rem then (n + 1, true)
        else if 2 * rem = 2 ^ d then (n + n % 2, true) else (n, true)
      | .sr w => (if 65536 ≤ rem * 65536 / 2 ^ d + w % 65536 then n + 1 else n, true)

/-- The exponent of the leading bit of m × 2^e, m not 0. -/
def topExp (m : Nat) (e : Int) : Int := e + (Nat.log2 m : Int)

/-- The magnitude code of n × 2^q in a floating format, where n × 2^q is representable. -/
def Fmt.pack (f : Fmt) (n : Nat) (q : Int) : Nat :=
  if n = 0 then 0
  else if n < 2 ^ f.mant then n
  else if n < 2 ^ (f.mant + 1) then (q + (f.mant : Int) + (f.bias : Int)).toNat * 2 ^ f.mant + (n - 2 ^ f.mant)
  else (q + (f.mant : Int) + (f.bias : Int) + 1).toNat * 2 ^ f.mant

/-- Round an exact finite magnitude once to a floating format: magnitude code (none on overflow), and flags but for the
overflow's (R82-R84, R92). -/
def Fmt.roundFin (f : Fmt) (m : Nat) (e : Int) (r : Rnd) : Option Nat × Nat :=
  if m = 0 then (some 0, 0)
  else
    let top := topExp m e
    let free := top - (f.mant : Int)
    let q := if free < f.qmin then f.qmin else free
    let (n, inexact) := roundMag m e q r
    let (nu, _) := roundMag m e free r
    let tiny := decide (topExp nu free < f.emin)
    let code := f.pack n q
    if f.maxCode < code then (none, flOverflowed)
    else (some code, flRounded inexact tiny)

/-- The sign bit of a format's code. -/
def Fmt.signBit (f : Fmt) (neg : Bool) : Nat := if neg then 2 ^ (f.bits - 1) else 0

/-- Round an exact value to FP32 as every arithmetic result is: to nearest even, overflow to infinity (R68, R86). -/
def toF32 (x : Num) : W32 × Nat :=
  match x with
  | .nan _ => (0x7FC00000#32, 0)
  | .inf n => (BitVec.ofNat 32 (Fmt.signBit .fp32 n + Fmt.infCode .fp32), 0)
  | .fin n m e =>
    match Fmt.roundFin .fp32 m e .rne with
    | (some c, fl) => (BitVec.ofNat 32 (Fmt.signBit .fp32 n + c), fl)
    | (none, fl) => (BitVec.ofNat 32 (Fmt.signBit .fp32 n + Fmt.infCode .fp32), fl)

/-- Round an exact value to BF16 with one rounding to nearest even (R73). -/
def toBf16 (x : Num) : Nat × Nat :=
  match x with
  | .nan _ => (0x7FC0, 0)
  | .inf n => (Fmt.signBit .bf16 n + Fmt.infCode .bf16, 0)
  | .fin n m e =>
    match Fmt.roundFin .bf16 m e .rne with
    | (some c, fl) => (Fmt.signBit .bf16 n + c, fl)
    | (none, fl) => (Fmt.signBit .bf16 n + Fmt.infCode .bf16, fl)

/-- The exact sum of two finite values; an exact zero sum of unlike signs is +0 (IEEE 754 under roundTiesToEven). -/
def addFin (na : Bool) (ma : Nat) (ea : Int) (nb : Bool) (mb : Nat) (eb : Int) : Num :=
  let e := if ea ≤ eb then ea else eb
  let a := ma * 2 ^ (ea - e).toNat
  let b := mb * 2 ^ (eb - e).toNat
  if na = nb then .fin na (a + b) e
  else if b < a then .fin na (a - b) e
  else if a < b then .fin nb (b - a) e
  else .fin false 0 e

/-- INVALID for an operand that is a signalling NaN (R70). -/
def snanFlag (x : Num) : Nat := flIf x.isSnan flInvalid

/-- The exact sum with the IEEE outcome of non-finite operands: the value and the flags it raises. -/
def Num.add (a b : Num) : Num × Nat :=
  let fl := snanFlag a ||| snanFlag b
  match a, b with
  | .nan _, _ => (.nan false, fl)
  | _, .nan _ => (.nan false, fl)
  | .inf x, .inf y => if x = y then (.inf x, 0) else (.nan false, flInvalid)
  | .inf x, _ => (.inf x, 0)
  | _, .inf y => (.inf y, 0)
  | .fin na ma ea, .fin nb mb eb => (addFin na ma ea nb mb eb, 0)

/-- The value with its sign turned. -/
def Num.neg : Num → Num
  | .nan s => .nan s
  | .inf n => .inf (!n)
  | .fin n m e => .fin (!n) m e

/-- The exact product with the IEEE outcome of non-finite operands (R89: infinity × 0 is NaN and raises INVALID). -/
def Num.mul (a b : Num) : Num × Nat :=
  let fl := snanFlag a ||| snanFlag b
  match a, b with
  | .nan _, _ => (.nan false, fl)
  | _, .nan _ => (.nan false, fl)
  | .inf x, .inf y => (.inf (x != y), 0)
  | .inf x, .fin n m _ => if m = 0 then (.nan false, flInvalid) else (.inf (x != n), 0)
  | .fin n m _, .inf y => if m = 0 then (.nan false, flInvalid) else (.inf (n != y), 0)
  | .fin na ma ea, .fin nb mb eb => (.fin (na != nb) (ma * mb) (ea + eb), 0)

/-- a × b + c exactly (R68 fusedMultiplyAdd). -/
def Num.fma (a b c : Num) : Num × Nat :=
  let p := a.mul b
  let q := p.1.add c
  (q.1, p.2 ||| q.2)

/-- Compare two finite or infinite values: some true when a < b, by exact value; −0 equals +0 (R90). -/
def Num.lt (a b : Num) : Bool :=
  match a, b with
  | .nan _, _ => false
  | _, .nan _ => false
  | .inf x, .inf y => x && !y
  | .inf x, .fin _ _ _ => x
  | .fin _ _ _, .inf y => !y
  | .fin na ma ea, .fin nb mb eb =>
    match addFin na ma ea (!nb) mb eb with
    | .fin n m _ => n && decide (m ≠ 0)
    | _ => false

/-- Whether two values are numerically equal. -/
def Num.eqv (a b : Num) : Bool := !a.isNan && !b.isNan && !(a.lt b) && !(b.lt a)

/-- The conversion control (Table 4.9). -/
structure Conv where
  fmt   : Fmt
  scale : Nat
  ovf   : Nat
  sr    : Bool
deriving DecidableEq, Repr

/-- Elements per block of a conversion: 0 when unscaled. -/
def Conv.block (c : Conv) : Nat := if c.scale = 1 then 16 else if c.scale = 2 then 32 else 0

/-- Read a conversion control; none when it makes the descriptor invalid (Tables 4.8, 4.9). -/
def convOf (v : Nat) : Option Conv :=
  match Fmt.ofCode (field v 8 4) with
  | none => none
  | some f =>
    let sc := field v 6 2
    let ov := field v 4 2
    if field v 12 4 ≠ 0 ∨ field v 0 3 ≠ 0 ∨ f = .ki4 ∨ sc = 3 ∨ ov = 3 then none
    else if (f = .k6 ∨ f = .k4) ∧ (sc = 0 ∨ ov = 2) then none
    else if f = .ki8 ∧ ov = 2 then none
    else if (f = .fp32 ∨ f = .fp16 ∨ f = .bf16) ∧ sc ≠ 0 then none
    else some ⟨f, sc, ov, decide (field v 3 1 = 1)⟩

/-- Convert one value to an unscaled element, or to an element already divided by its block's factor: the code and the
flags (R82-R87, R91; Table 4.8). -/
def Conv.element (c : Conv) (x : Num) (r : Rnd) : Nat × Nat :=
  let f := c.fmt
  match x with
  | .nan s => if f = .ki8 then (0, flInvalid) else (f.nanCode, flIf s flInvalid)
  | .inf n =>
    if f = .ki8 then (if n then 256 - 127 else 127, flInvalid)
    else if f = .k8 then (if c.ovf = 2 then 0x7F else f.signBit n + f.maxCode, flInvalid)
    else if f.hasInf then (f.signBit n + f.infCode, 0)
    else (f.signBit n + f.maxCode, flInvalid)
  | .fin n m e =>
    if f = .ki8 then
      let (v, inexact) := roundMag m e 0 r
      if 127 < v then (if n then 256 - 127 else 127, flOverflowed)
      else ((if n then (256 - v) % 256 else v), flIf inexact flInexact)
    else
      match f.roundFin m e r with
      | (some k, fl) => (f.signBit n + k, fl)
      | (none, fl) =>
        if f = .k8 then ((if c.ovf = 2 then 0x7F else f.signBit n + f.maxCode), fl)
        else if f = .k6 ∨ f = .k4 ∨ c.ovf = 1 then (f.signBit n + f.maxCode, fl)
        else (f.signBit n + f.infCode, fl)

/-- emax and P (as a 7-bit fraction times 2^-6) of a block-scaled target (Table 4.7). -/
def scaleConst : Fmt → Int × Nat
  | .k8 => (8, 112) | .k8w => (15, 112) | .k6 => (4, 112) | .k4 => (2, 96) | _ => (6, 127)

/-- The larger of two finite magnitudes (m, e). -/
def maxMag (a b : Nat × Int) : Nat × Int :=
  match addFin false a.1 a.2 true b.1 b.2 with
  | .fin true _ _ => b
  | _ => a

/-- The scale of a block, from the exact source values (R80). -/
def chooseScale (f : Fmt) (xs : List Num) : Nat :=
  if xs.any Num.isNan then 255
  else if f ≠ .k8w ∧ xs.any Num.isInf then 255
  else
    let m := xs.foldl (fun a x => match x with | .fin _ m e => maxMag a (m, e) | _ => a) (0, 0)
    if m.1 = 0 then 0x7F
    else
      let E := topExp m.1 m.2
      let (emax, p) := scaleConst f
      -- M > P, with M = m / 2^E: compare m × 64 against P × 2^(E - e)
      let raised := decide (p * 2 ^ (Nat.log2 m.1) < m.1 * 64)
      let e := 127 + E - emax + (if raised then 1 else 0)
      if e < 0 then 0 else if 254 < e then 254 else e.toNat

/-- Convert one block: its scale, the element codes and the flags (R80, R81, R87); `rs` gives each element's rounding. -/
def Conv.blockOf (c : Conv) (xs : List Num) (rs : List Rnd) : Nat × List Nat × Nat :=
  let e := chooseScale c.fmt xs
  if e = 255 then
    let bad := xs.any Num.isSnan || (decide (c.fmt ≠ .k8w) && xs.any Num.isInf)
    (255, xs.map (fun _ => 0), flIf bad flInvalid)
  else
    let rs := (xs.zip rs).map (fun p => c.element (p.1.shift (127 - (e : Int))) p.2)
    (e, rs.map Prod.fst, rs.foldl (fun a p => a ||| p.2) 0)

/-- Widen a value to FP32: exact but for a scaled element past the FP32 range (R79). -/
def widen (x : Num) : W32 × Nat := toF32 x

/-- The FP32 pattern negated: the sign bit alone changes (R70). -/
def f32Neg (v : W32) : W32 := v ^^^ 0x80000000#32

/-- FP32 addition (R68). -/
def f32Add (a b : W32) : W32 × Nat :=
  let r := (f32 a).add (f32 b)
  let o := toF32 r.1
  (o.1, r.2 ||| o.2)

/-- FP32 subtraction. -/
def f32Sub (a b : W32) : W32 × Nat :=
  let r := (f32 a).add (f32 b).neg
  let o := toF32 r.1
  (o.1, r.2 ||| o.2)

/-- FP32 multiplication. -/
def f32Mul (a b : W32) : W32 × Nat :=
  let r := (f32 a).mul (f32 b)
  let o := toF32 r.1
  (o.1, r.2 ||| o.2)

/-- FP32 fused multiply-add with one rounding. -/
def f32Fma (a b c : W32) : W32 × Nat :=
  let r := Num.fma (f32 a) (f32 b) (f32 c)
  let o := toF32 r.1
  (o.1, r.2 ||| o.2)

/-- The element codes of a packed run of bytes, `n` elements of format `f` (R67). -/
def unpackElems (f : Fmt) (bs : Bytes) (n : Nat) : List Nat :=
  if f.bits = 6 then
    (natsFrom 0 n).map (fun i => byteField bs (3 * (i / 4)) 3 / 2 ^ (6 * (i % 4)) % 64)
  else if f.bits = 4 then
    (natsFrom 0 n).map (fun i => byteField bs (i / 2) 1 / 2 ^ (4 * (i % 2)) % 16)
  else (natsFrom 0 n).map (fun i => byteField bs (i * (f.bits / 8)) (f.bits / 8))

/-- The number whose base-2^w digits, least first, these are. -/
def packDigits (w : Nat) : List Nat → Nat
  | [] => 0
  | d :: r => d + 2 ^ w * packDigits w r

/-- The bytes of a run of element codes (R67): 6-bit elements four to three bytes, 4-bit elements two to a byte. -/
def packElems (f : Fmt) (cs : List Nat) : Bytes :=
  natLe ((cs.length * f.bits + 7) / 8) (packDigits f.bits cs)

/-- Bytes that `n` elements of a format occupy (R67). -/
def Fmt.bytesOf (f : Fmt) (n : Nat) : Nat := (n * f.bits + 7) / 8

end Sys2Proof.Machine
end

