-- ==== Sys2Proof/Machine/Combine.lean ====
section
/-! DEFINITION. The arithmetic of the Combine engine (R185, R186, R88): one element of a round, as contributions are added to it one by one. -/

namespace Sys2Proof.Machine

/-- One step of the compensated recurrence: sum and error term after a contribution. -/
def compStep (st : W32 × W32) (c : W32) : W32 × W32 :=
  let t := (f32Add st.1 c).1
  match f32 t with
  | .fin _ _ _ =>
    let r := (((f32 st.1).add (f32 c)).1.add (f32 t).neg).1
    (t, (toF32 ((f32 st.2).add r).1).1)
  | _ => (t, 0#32)

/-- The running value of one element of a round: its sum; what the Combine engine keeps beside it, the error term of the compensated format
and the sum of its non-finite terms, if any (R88). -/
structure Running where
  sum  : W32
  keep : W32 × Option W32
deriving DecidableEq, Repr

/-- The running value after the first contribution. -/
def Running.first (cfmt : Nat) (c : W32) : Running := ⟨c, 0#32, if cfmt = 1 ∧ !(f32 c).finite then some c else none⟩

/-- The running value after one more contribution (R185). Under the compensated format an element with non-finite terms is the sum of those
alone (R88). -/
def Running.add (cfmt : Nat) (r : Running) (c : W32) : Running :=
  if cfmt = 2 then { r with sum := r.sum + c }
  else if cfmt ≠ 1 then { r with sum := (f32Add r.sum c).1 }
  else
    match r.keep.2, (f32 c).finite with
    | none, true =>
      let st := compStep (r.sum, r.keep.1) c
      ⟨st.1, st.2, none⟩
    | none, false => ⟨c, 0#32, some c⟩
    | some _, true => r
    | some x, false =>
      let y := (toF32 ((f32 x).add (f32 c)).1).1
      ⟨y, 0#32, some y⟩

/-- The result of an element (R185); a NaN is written as the one NaN of its format (Table 4.12). -/
def Running.out (cfmt : Nat) (r : Running) : W32 :=
  if cfmt = 2 then r.sum
  else if cfmt ≠ 1 then (if (f32 r.sum).isNan then 0x7FC00000#32 else r.sum)
  else
    match r.keep.2 with
    | some x => (toF32 (f32 x)).1
    | none => (toF32 ((f32 r.sum).add (f32 r.keep.1)).1).1

/-- The combined value of one element from its contributions in order (R185). -/
def combineElement (cfmt : Nat) (cs : List W32) : W32 :=
  match cs with
  | [] => 0#32
  | c :: r => (r.foldl (Running.add cfmt) (Running.first cfmt c)).out cfmt

/-- The 32-bit words of a payload, little-endian. -/
def toWords : Bytes → List W32
  | a :: b :: c :: d :: r => BitVec.ofNat 32 (leNat [a, b, c, d]) :: toWords r
  | _ => []

/-- The bytes of 32-bit words. -/
def ofWords (ws : List W32) : Bytes := ws.flatMap (fun w => natLe 4 w.toNat)

/-- The 32-bit word `i` of a payload. -/
def wordAt (bs : Bytes) (i : Nat) : W32 := BitVec.ofNat 32 (byteField bs (4 * i) 4)

/-- The payload of a combined result (R185): contributions of one size, combined word by word. -/
def combineRound (cfmt : Nat) (ps : List Bytes) : Bytes :=
  (natsFrom 0 ((ps.headD []).length / 4)).flatMap (fun i => natLe 4 (combineElement cfmt (ps.map (fun p => wordAt p i))).toNat)

end Sys2Proof.Machine
end

