-- ==== Sys2Proof/Machine/CutList.lean ====
section
/-! DEFINITION. The Cut List as software reads it (chapter 02): constant fields, the directory and the digest, and a
revision of the list (R41). -/

namespace Sys2Proof.Machine

/-- The 87 entries in ascending index order: (kind, unit, index) (Table 2.1). -/
def cutEntries : List (Nat × Nat × Nat) :=
  ((natsFrom 0 5).map (fun d => (1, d, 0x1108 + d))) ++ [(2, 0, 0x1110)] ++
  ((natsFrom 0 48).map (fun b => (3, b, 0x1120 + b))) ++ ((natsFrom 0 12).map (fun k => (4, k, 0x1150 + k))) ++
  ((natsFrom 0 10).map (fun n => (5, n, 0x1160 + n))) ++ ((natsFrom 0 10).map (fun n => (6, n, 0x1170 + n))) ++
  [(7, 0, 0x1180)]

/-- The directory word of an entry (Table 2.3). -/
def directoryWord (e : Nat × Nat × Nat) : Nat := e.1 * 2 ^ 24 + e.2.1 * 2 ^ 16 + e.2.2

/-- The two ends of die link n by die code (Table 2.6). -/
def linkEnds : Nat → Nat × Nat
  | 0 => (0, 1)
  | 1 => (1, 3)
  | 2 => (3, 2)
  | 3 => (2, 0)
  | 4 => (4, 0)
  | 5 => (4, 1)
  | 6 => (4, 2)
  | 7 => (4, 3)
  | 8 => (0, 3)
  | _ => (1, 2)

/-- Lanes per direction of optical port n (Table 1.7). -/
def portLanes (n : Nat) : Nat := if n < 6 then 16 else if n < 8 then 4 else if n = 8 then 6 else 1

/-- The physical Bent behind logical Bent b (R33). -/
def physicalBent (f : Fuses) (b : Nat) : Nat :=
  let j := b % 12
  if j < f.spares.getD (b / 12) 0 then j else j + 1

/-- EFFECTIVE_MASK: the bitwise AND of the five capability masks (R37). -/
def effectiveMaskOf (f : Fuses) : Nat :=
  (natsFrom 0 5).foldl (fun m d => m &&& f.masks.getD d 0) (2 ^ 64 - 1)

/-- The entry kind code of a Cut List index (Table 2.1). -/
def cutKind (i : Nat) : Nat :=
  if i < 0x1110 then 1 else if i = 0x1110 then 2 else if i < 0x1150 then 3 else if i < 0x1160 then 4
  else if i < 0x1170 then 5 else if i < 0x1180 then 6 else 7

/-- The constant fields of the Cut List (Tables 2.2, 2.5, 2.7): index `i`, subindex `j`; none for a field that changes. -/
def cutConst (f : Fuses) (i j : Nat) : Option Nat :=
  if i < 0x1102 then none
  else if i = 0x1102 then (cutEntries[j - 1]?).map directoryWord
  else if j = 1 then some (cutKind i)
  else if i < 0x1110 then
    let d := i - 0x1108
    if j = 2 then some d else if j = 3 then some (f.steppings.getD d 0)
    else if j = 4 then some (f.masks.getD d 0) else if j = 6 then some (f.spares.getD d 0xFF) else none
  else if i = 0x1110 then none
  else if i < 0x1150 then
    let b := i - 0x1120
    if j = 2 then some b else if j = 3 then some (b / 12) else if j = 4 then some (physicalBent f b)
    else if j = 5 then some (64 * b) else none
  else if i < 0x1160 then
    let k := i - 0x1150
    if j = 2 then some k else if j = 3 then some (k / 3) else if j = 4 then some (k % 3) else none
  else if i < 0x1170 then
    let n := i - 0x1160
    if j = 2 then some n else if j = 3 then some (linkEnds n).1 else if j = 4 then some (linkEnds n).2
    else if j = 5 then some (if n < 8 then 0 else 1) else none
  else if i < 0x1180 then
    let n := i - 0x1170
    if j = 2 then some n else if j = 3 then some (portLanes n) else if j = 4 then some (2 * portLanes n) else none
  else if i = 0x1180 then
    if j = 2 then some 4 else if j = 3 then some 48 else if j = 4 then some 8 else if j = 5 then some 4
    else if j = 6 then some 1 else none
  else none

/-- The (subindex, width) list of an entry kind, subindex 01 upward (Tables 2.5, 2.7). -/
def cutFields : Nat → List (Nat × Nat)
  | 1 => [(1, 1), (2, 1), (3, 1), (4, 8), (5, 1), (6, 1)]
  | 2 => [(1, 1), (2, 8)]
  | 3 => [(1, 1), (2, 1), (3, 1), (4, 1), (5, 2), (6, 1)]
  | 4 => [(1, 1), (2, 1), (3, 1), (4, 1), (5, 2), (6, 4), (7, 1)]
  | 5 => [(1, 1), (2, 1), (3, 1), (4, 1), (5, 1), (6, 1), (7, 1)]
  | 6 => [(1, 1), (2, 1), (3, 1), (4, 1), (5, 1), (6, 1)]
  | _ => [(1, 1), (2, 1), (3, 1), (4, 1), (5, 1), (6, 1)]

/-- The value of a Cut List field. -/
def State.cutValue (s : State) (i j : Nat) : Nat := (cutConst s.fuses i j).getD (s.rd (i * 256 + j))

/-- The bytes the digest is taken over (R42). -/
def State.cutBytes (s : State) : Bytes :=
  natLe 1 (s.rd O.cutListFormat) ++
  (cutEntries.flatMap (fun e => (cutFields e.1).flatMap (fun p => natLe p.2 (s.cutValue e.2.2 p.1))))

/-- CUT_LIST_DIGEST: 0 while BUILDING, else the CRC-32C of the current content (R42, Table 2.2). -/
def State.cutDigest (s : State) : Nat :=
  if s.rd O.cutListState = 0 then 0 else (crc32c s.cutBytes).toNat

/-- Apply field changes that result from one event: once the list has left BUILDING they are one revision (R41). -/
def State.cutRevise (s : State) (changes : List (Nat × Nat)) : State :=
  let t := s.wrAll changes
  if s.rd O.cutListState = 0 then t
  else if t.objs = s.objs then t
  else t.add O.cutListRevision 1

end Sys2Proof.Machine
end

