-- ==== Sys2Proof/Machine/Faults.lean ====
section
/-! DEFINITION. Fault records and pending reports (R429-R433): the shared operation by which every unit writes a record. -/

namespace Sys2Proof.Machine

/-- Kinds of Table 16.7. -/
def susPackage : Nat := 0
/-- CORE. -/
def susCore : Nat := 1
/-- BENT. -/
def susBent : Nat := 2
/-- DIE. -/
def susDie : Nat := 3
/-- STACK. -/
def susStack : Nat := 4
/-- DIE_LINK. -/
def susLink : Nat := 5
/-- PORT. -/
def susPort : Nat := 6
/-- SLOT. -/
def susSlot : Nat := 7
/-- RELAY. -/
def susRelay : Nat := 8
/-- CHANNEL. -/
def susChannel : Nat := 9
/-- DATA_ENGINE. -/
def susData : Nat := 10
/-- JOB. -/
def susJob : Nat := 15

/-- A suspect id (Table 16.7). -/
def suspectId (pkg kind unit : Nat) : Nat := pkg * 2 ^ 18 + kind * 2 ^ 12 + unit

/-- The suspect id of a unit of this package. -/
def State.suspect (s : State) (kind unit : Nat) : Nat := suspectId s.node.id kind unit

/-- The KIND of a suspect id. -/
def susKind (v : Nat) : Nat := field v 12 6

/-- The UNIT of a suspect id. -/
def susUnit (v : Nat) : Nat := field v 0 12

/-- PHYSICAL of a record (Table 16.6). -/
def State.physical (s : State) (suspect : Nat) : Nat :=
  if susKind suspect = susCore then
    let b := susUnit suspect / 64
    (b / 12) * 2 ^ 24 + physicalBent s.fuses b * 2 ^ 16 + (susUnit suspect % 64) * 2 ^ 8
  else if susKind suspect = susBent then
    let b := susUnit suspect
    (b / 12) * 2 ^ 24 + physicalBent s.fuses b * 2 ^ 16 + 0xFF * 2 ^ 8
  else 0xFFFFFFFF

/-- Whether some slot is not UNUSED: a step is open at the package (log entry 12, DEDUCED). -/
def State.anySlot (s : State) : Bool := (natsFrom 0 16).any (fun i => decide (s.rd (O.stageState i) ≠ 0))

/-- The 64 bytes of a fault record (Table 16.6). -/
def recordBytes (cls rflags attempt step suspect second detail reporters first last t0 t1 physical : Nat) : Bytes :=
  let b := natLe 1 1 ++ natLe 1 cls ++ natLe 1 rflags ++ natLe 1 attempt ++ natLe 4 step ++ natLe 4 suspect ++ natLe 4 second
    ++ natLe 4 detail ++ natLe 4 reporters ++ natLe 2 first ++ natLe 2 last ++ natLe 8 t0 ++ natLe 8 t1 ++ natLe 4 physical
    ++ natLe 12 0
  b ++ natLe 4 (crc32c b).toNat

/-- Fields of a record: CLASS, STEP, SUSPECT make its key (R433). -/
def recClass (r : Bytes) : Nat := byteField r 1 1
/-- STEP. -/
def recStep (r : Bytes) : Nat := byteField r 4 4
/-- SUSPECT. -/
def recSuspect (r : Bytes) : Nat := byteField r 8 4
/-- FIRST_REPORTER. -/
def recFirst (r : Bytes) : Nat := byteField r 24 2

/-- Whether two records have one key (R433). -/
def sameKey (a b : Bytes) : Bool :=
  decide (recClass a = recClass b) && decide (recStep a = recStep b) && decide (recSuspect a = recSuspect b)

/-- Two records of one key merged: `p` is the pending one (R433). -/
def mergeRecords (p r : Bytes) : Bytes :=
  let a := if recFirst r < recFirst p then r else p
  recordBytes (recClass p) (byteField p 2 1 ||| byteField r 2 1) (byteField a 3 1) (recStep p) (recSuspect p) (byteField a 12 4)
    (byteField a 16 4) (byteField p 20 4 + byteField r 20 4) (min (recFirst p) (recFirst r))
    (max (byteField p 26 2) (byteField r 26 2)) (min (byteField p 28 8) (byteField r 28 8))
    (max (byteField p 36 8) (byteField r 36 8)) (byteField a 44 4)

/-- Take a record into the pending reports: merged by key, at most 64, dropped and counted beyond (R433, R434). -/
def State.addReport (s : State) (r : Bytes) : State :=
  if s.faults.reports.any (fun p => sameKey p.record r) then
    let up := s.faults.reports.map (fun p =>
      if sameKey p.record r then { p with record := mergeRecords p.record r, merged := s.now } else p)
    ({ s with faults := { s.faults with reports := up } }).add O.reportsMerged 1
  else if s.faults.reports.length < 64 then
    { s with faults := { s.faults with reports := s.faults.reports ++ [⟨r, s.now, s.now⟩] } }
  else ({ s with faults := { s.faults with overflow := true } }).add O.reportsDropped 1

/-- Write a fault record of this package: into the logs, then as a pending report (R430-R432). -/
def State.record (s : State) (cls suspect second detail rflags : Nat) : State :=
  let step := if s.anySlot then s.rd O.stepNumber else 0xFFFFFFFF
  let r := recordBytes cls rflags (if s.anySlot then s.rd O.stepAttempt else 0) step suspect second detail 1 s.node.id s.node.id s.time s.time
    (s.physical suspect)
  let t := { s with faults := { s.faults with log := takeLast 1024 (s.faults.log ++ [r]),
                                              stored := takeLast 64 (s.faults.stored ++ [r]) } }
  (t.add O.faultLogCount 1).addReport r

/-- An expiry of a timeout level counts and writes a TIMEOUT record for the unit timed (R428). -/
def State.expiry (s : State) (level suspect : Nat) : State :=
  (s.add (O.timeoutExpiries (level - 1)) 1).record 5 suspect 0xFFFFFFFF (level * 2 ^ 24) 0

end Sys2Proof.Machine
end

