-- ==== Sys2Proof/Machine/CoreBase.lean ====
section
/-! DEFINITION. Access to a core's registers, flags, memory and tiles, and to Bent memory: each register has one home and
every read and write of it goes through these. -/

namespace Sys2Proof.Machine

/-- The core with an id; an unlisted core is OFF (Table 5.10). -/
def State.core (s : State) (c : Nat) : Core := s.cores.get Core.off c

/-- The state with a core replaced. -/
def State.setCore (s : State) (c : Nat) (k : Core) : State := { s with cores := s.cores.set Core.off c k }

/-- The state with a core changed by `f`. -/
def State.modCore (s : State) (c : Nat) (f : Core → Core) : State := s.setCore c (f (s.core c))

/-- The logical Bent with a number. -/
def State.bent (s : State) (b : Nat) : Bent := s.bents.get Bent.empty b

/-- The state with a Bent replaced. -/
def State.setBent (s : State) (b : Nat) (k : Bent) : State := { s with bents := s.bents.set Bent.empty b k }

/-- X register `i` (0-15). -/
def Core.xr (k : Core) (i : Nat) : W64 := k.x.get 0#64 i

/-- The core with X register `i` written. -/
def Core.setX (k : Core) (i : Nat) (v : W64) : Core := { k with x := k.x.set 0#64 i v }

/-- Vector register `i` (0-31). -/
def Core.vr (k : Core) (i : Nat) : BitVec 2048 := k.v.get 0#2048 i

/-- The core with vector register `i` written. -/
def Core.setV (k : Core) (i : Nat) (v : BitVec 2048) : Core := { k with v := k.v.set 0#2048 i v }

/-- Lane `l` of a vector register's bits (R145). -/
def vLane (v : BitVec 2048) (l : Nat) : W32 := v.extractLsb' (32 * l) 32

/-- The register whose 64 lanes are these (R145). -/
def ofLanes (ls : List W32) : BitVec 2048 := BitVec.ofNat 2048 (packDigits 32 (ls.map BitVec.toNat))

/-- Tile `t` (0-3). -/
def Core.tile (k : Core) (t : Nat) : Tile := k.tiles.get Tile.empty t

/-- The core with tile `t` written. -/
def Core.setTile (k : Core) (t : Nat) (v : Tile) : Core := { k with tiles := k.tiles.set Tile.empty t v }

/-- Endpoint `e` (0-15). -/
def Core.endp (k : Core) (e : Nat) : Endpoint := k.ends.get Endpoint.none e

/-- The core with endpoint `e` written. -/
def Core.setEndp (k : Core) (e : Nat) (v : Endpoint) : Core := { k with ends := k.ends.set Endpoint.none e v }

/-- The core with status flags raised; they are sticky (R92). -/
def Core.raise (k : Core) (fl : Nat) : Core := { k with fp := k.fp ||| fl }

/-- The core with event flags set. -/
def Core.setFlags (k : Core) (mask : Nat) : Core := { k with flags := k.flags ||| (mask % 65536) }

/-- The core with event flags cleared. -/
def Core.clearFlags (k : Core) (mask : Nat) : Core := { k with flags := k.flags &&& (65535 - mask % 65536) }

/-- Whether a core is in a state in which it runs: RUNNING or WAITING. -/
def Core.runs (k : Core) : Bool := decide (k.state = .running) || decide (k.state = .waiting)

/-- Whether a core is RUNNING, WAITING or STOPPING. -/
def Core.active (k : Core) : Bool := k.runs || decide (k.state = .stopping)

/-- The code of a core state (Table 5.10). -/
def CoreState.code : CoreState → Nat
  | .idle => 0 | .running => 1 | .waiting => 2 | .stopping => 3 | .halted => 4 | .faulted => 5 | .off => 6

/-- Bytes of core memory (R14). -/
def coreMemSize : Nat := 0x80000
/-- First address of the Bent window (Table 5.1). -/
def bentBase : Nat := 0x1000000
/-- Bytes of Bent memory (R15). -/
def bentMemSize : Nat := 0x2000000

/-- Whether `n` bytes from `a` lie in core memory. -/
def inCore (a n : Nat) : Bool := decide (a + n ≤ coreMemSize)

/-- Whether `n` bytes from `a` lie in the Bent window. -/
def inBent (a n : Nat) : Bool := decide (bentBase ≤ a) && decide (a + n ≤ bentBase + bentMemSize)

/-- Whether `n` bytes from `a` lie in core memory or in the Bent window. -/
def inLocal (a n : Nat) : Bool := inCore a n || inBent a n

/-- The `n` bytes at a core's own address `a`: core memory or the Bent window of its Bent (Table 5.1). -/
def State.readLocal (s : State) (c a n : Nat) : Bytes :=
  if inBent a n then (s.bent (c / 64)).mem.bytes 0#8 (a - bentBase) n else (s.core c).mem.bytes 0#8 a n

/-- The state with bytes written at a core's own address. -/
def State.writeLocal (s : State) (c a : Nat) (bs : Bytes) : State :=
  if inBent a bs.length then
    s.setBent (c / 64) { s.bent (c / 64) with mem := (s.bent (c / 64)).mem.setBytes 0#8 (a - bentBase) bs }
  else s.modCore c (fun k => { k with mem := k.mem.setBytes 0#8 a bs })

/-- Apply a step to every listed core's number. -/
def State.eachCore (s : State) (f : State → Nat → State) : State := State.each f s (s.cores.entries.map Prod.fst)

/-- The Bent whose index block an object lies in (R118). -/
def keyBent (k : Nat) : Nat := (keyIndex k - 0x3000) / 0x40
/-- The offset of an object within its Bent's index block. -/
def keyOff (k : Nat) : Nat := (keyIndex k - 0x3000) % 0x40
/-- Whether an object lies in a Bent's index block. -/
def inBentBlock (k : Nat) : Bool := decide (0x3000 ≤ keyIndex k) && decide (keyIndex k < 0x3C00)
/-- Whether an object is a Bent block's at an offset. -/
def isBentObj (off k : Nat) : Bool := inBentBlock k && decide (keyOff k = off)
/-- The core that an ARRAY object of a Bent block belongs to. -/
def keyCore (k : Nat) : Nat := 64 * keyBent k + (keySub k - 1)

end Sys2Proof.Machine
end

