-- ==== Sys2Proof/Machine/Wire.lean ====
section
/-! DEFINITION. What travels between packages, as bytes: management frames (Table 3.4), packets and their header (Table 14.8), flits
(Table 14.2), and the unit payloads that the model gives a layout of its own (log entries 20 and 26, DESIGN CHOICE). -/

namespace Sys2Proof

/-- The 24 header bytes of a frame (Table 3.4). -/
def Frame.header (f : Frame) : Bytes :=
  natLe 1 f.version ++ natLe 1 f.kind ++ natLe 1 f.command ++ natLe 1 f.status ++ natLe 2 f.seq ++ natLe 2 f.session
    ++ natLe 2 f.source ++ natLe 2 f.dest ++ natLe 2 f.index ++ natLe 1 f.sub ++ natLe 1 f.flags ++ natLe 4 f.offset
    ++ natLe 2 f.length ++ natLe 2 0

/-- The payload: LENGTH bytes; what a carrier delivers beyond is not part of the frame (R54). -/
def Frame.body (f : Frame) : Bytes := f.payload.take f.length

/-- CHECK over bytes 0 to 23 + LENGTH (R54). -/
def Frame.checkOf (f : Frame) : W32 := crc32c (f.header ++ f.body)

/-- The frame with its CHECK computed and the bytes it occupies (R54). -/
def Frame.seal (f : Frame) : Frame := { f with check := f.checkOf, carried := 28 + f.length }

/-- Whether the carrier delivered the whole of a frame of legal length, and its CHECK is right (R54, 1 and 2). -/
def Frame.intact (f : Frame) : Bool :=
  decide (f.length ≤ 1024) && decide (28 + f.length ≤ f.carried) && decide (f.check = f.checkOf)

/-- The bytes of a frame (Table 3.4). -/
def Frame.bytes (f : Frame) : Bytes := f.header ++ f.body ++ natLe 4 f.check.toNat

/-- The 32 header bytes of a packet. -/
def Packet.header (p : Packet) : Bytes :=
  natLe 2 p.dest ++ natLe 2 p.source ++ natLe 1 p.cls ++ natLe 1 p.pflags ++ natLe 2 p.flowSeq ++ natLe 4 p.payload.length ++ natLe 1 p.hops
    ++ natLe 1 p.unit ++ natLe 2 0 ++ natLe 8 p.unitTag ++ natLe 8 0

/-- The bytes of a packet. -/
def Packet.bytes (p : Packet) : Bytes := p.header ++ p.payload

/-- The code values of a plane: width, height, then two bytes each. -/
def planeBytes (p : Plane) : Bytes := natLe 4 p.width ++ natLe 4 p.height ++ p.rows.flatten.flatMap (natLe 2)

/-- A slot's result as bytes (R349): planes, PCM words, captions and catalogue fields (log entry 20, DESIGN CHOICE). -/
def SlotPayload.bytes : SlotPayload → Bytes
  | .drop id cause => natLe 4 2 ++ natLe 4 cause ++ natLe 8 id
  | .transferFailed => natLe 4 0
  | .sample p =>
    let audio := p.audio.getD []
    natLe 4 1 ++ natLe 4 p.frames.length ++ natLe 8 p.sampleId ++ natLe 8 p.sourceId
      ++ natLe 1 (p.truncated.toNat + 2 * p.audio.isSome.toNat) ++ natLe 3 p.captions.length ++ natLe 4 p.picturesConcealed
      ++ natLe 4 p.audioConcealed ++ natLe 4 audio.length ++ natLe 4 ((audio.head?.map List.length).getD 0)
      ++ p.frames.flatMap (fun f => natLe 8 f.pts ++ natLe 2 f.depth ++ natLe 2 f.matrix ++ natLe 4 f.fullRange.toNat ++ planeBytes f.luma
          ++ planeBytes f.cb ++ planeBytes f.cr)
      ++ audio.flatten.flatMap (fun w => natLe 4 w.toNat) ++ p.captions

end Sys2Proof

namespace Sys2Proof.Machine

/-! ### Packets (Table 14.8) -/

/-- The packet that bytes hold. -/
def packetOf (b : Bytes) : Packet :=
  { dest := byteField b 0 2, source := byteField b 2 2, cls := byteField b 4 1, pflags := byteField b 5 1, flowSeq := byteField b 6 2,
    hops := byteField b 12 1, unit := byteField b 13 1, unitTag := byteField b 16 8, payload := (b.drop 32).take (byteField b 8 4) }

/-- Pieces of `size` bytes, the last one filled up with zeros. -/
def pieces (size : Nat) (b : Bytes) : List Bytes :=
  (natsFrom 0 ((b.length + size - 1) / size)).map (fun i =>
    let p := (b.drop (size * i)).take size
    p ++ List.replicate (size - p.length) 0#8)

/-- The CRC-32C of each 4 KiB block (R406). -/
def blockChecks (b : Bytes) : Bytes :=
  (natsFrom 0 ((b.length + 4095) / 4096)).flatMap (fun i => natLe 4 (crc32c ((b.drop (4096 * i)).take 4096)).toNat)

/-! ### Flits (Table 14.2) -/

/-- Bytes 0 to 635 of a flit. -/
def flitBytes (f : Flit) : Bytes :=
  natLe 1 f.kind ++ natLe 1 f.vc ++ natLe 2 f.linkSeq ++ natLe 2 f.ackSeq
    ++ ((f.credits ++ List.replicate 11 0).take 11).map (BitVec.ofNat 8) ++ List.replicate 11 0#8
    ++ (f.payload ++ List.replicate 608 0#8).take 608

/-- The 640 bytes of a flit that is sent: with its CHECK (R354). -/
def flitSealed (f : Flit) : Bytes := let b := flitBytes f; b ++ natLe 4 (crc32c b).toNat

/-- Whether a flit came through FEC with a good CHECK. -/
def flitGood (f : Flit) : Bool := f.fecOk && decide (f.check = crc32c (flitBytes f))

/-- The buffer of a flit: 2 × class + virtual channel in the order of Table 14.6. -/
def flitBuffer (vc : Nat) : Nat := 2 * field vc 5 3 + field vc 3 2

/-- The class of a buffer. -/
def bufferClass (v : Nat) : Nat := min (v / 2) 4

/-- Byte VC of a flit of a buffer. -/
def bufferByte (v : Nat) : Nat := 32 * bufferClass v + 8 * (v - 2 * bufferClass v)

/-! ### Unit payloads -/

/-- A notice (log entry 26, DESIGN CHOICE): byte 0 the kind of Table 14.9, byte 1 what it is about (0 a queue, 1 a Lane, 2 a receive area,
3 the bulk class), bytes 4-7 which, bytes 8-9 the generation, byte 10 whether it is closed, bytes 12-13 micro-batches, 14-15 pages. -/
def noticeBytes (kind about which gen : Nat) (closed : Bool) (batches pages : Nat) : Bytes :=
  natLe 1 kind ++ natLe 1 about ++ natLe 2 0 ++ natLe 4 which ++ natLe 2 gen ++ natLe 1 closed.toNat ++ natLe 1 0 ++ natLe 2 batches
    ++ natLe 2 pages

/-- A unit of UNIT 0x04 (log entry 26, DESIGN CHOICE): 1 Relay open, 2 Relay close, 3 Lane open, 4 LINE notice, then its fields of four
bytes. -/
def controlBytes (kind : Nat) (fields : List Nat) : Bytes := natLe 4 kind ++ fields.flatMap (natLe 4)

/-- A bulk transfer (log entry 20, DESIGN CHOICE): its length in all, then its content. -/
def bulkBytes (content : Bytes) : Bytes := natLe 8 (8 + content.length) ++ content

/-- UNIT_TAG of a bulk packet (R371; log entry 20, DESIGN CHOICE): [39:0] the offset of its first byte in the transfer, [47:40] what it is (1 the
request of a version fetch, 2 its content, 3 a slot's result, 4 its repeat request, 5 a cursor, 6 a clip notice), [63:48] the transfer's number. -/
def bulkTag (number kind offset : Nat) : Nat := number % 2 ^ 16 * 2 ^ 48 + kind * 2 ^ 40 + offset

/-- An IEEE 1588 message (R376; its layout from IEEE 1588-2019, log entry 118, PRESUMED): 0 Sync, 1 Follow_Up, 2 Pdelay_Req, 3 Pdelay_Resp,
4 Pdelay_Resp_Follow_Up; the sender's clock identity is open. -/
def ptpBytes (kind domain seq stamp package port : Nat) : Bytes :=
  let type := [0x0, 0x8, 0x2, 0x3, 0xA].getD kind 0
  let size := if kind < 2 then 44 else 54
  natBe 1 type ++ natBe 1 0x12 ++ natBe 2 size ++ natBe 1 domain ++ natBe 1 0 ++ natBe 2 (if kind = 0 ∨ kind = 3 then 0x0200 else 0) ++ natBe 8 0
    ++ natBe 4 0 ++ natBe 8 (Config.clockIdentity package) ++ natBe 2 (port + 1) ++ natBe 2 seq ++ natBe 1 0
    ++ natBe 1 (if kind < 2 then 0xF9 else 0) ++ natBe 6 (stamp / 10 ^ 9) ++ natBe 4 (stamp % 10 ^ 9) ++ List.replicate (size - 44) 0#8

end Sys2Proof.Machine
end

