-- ==== Sys2Proof/Machine/Route.lean ====
section
/-! DEFINITION. Routing over the torus (R367-R374): coordinates, the direction in a dimension, the port and virtual channel of a
packet's next hop, the flit counts of a port, and the one operation by which every unit sends to another package. -/

namespace Sys2Proof.Machine

/-- The size of a dimension of the torus. -/
def State.dimSize (s : State) (d : Nat) : Nat := if d = 0 then s.node.dimX else if d = 1 then s.node.dimY else s.node.dimZ

/-- The coordinate of a package in a dimension (R368). -/
def State.coord (s : State) (p d : Nat) : Nat :=
  if d = 0 then p % s.node.dimX else if d = 1 then p / s.node.dimX % s.node.dimY else p / (s.node.dimX * s.node.dimY)

/-- Packages of the torus. -/
def State.torusSize (s : State) : Nat := s.node.dimX * s.node.dimY * s.node.dimZ

/-- The package at the own coordinates but for `c` in dimension `d`. -/
def State.packageAt (s : State) (d c : Nat) : Nat :=
  let x := fun (e : Nat) => if e = d then c else s.coord s.node.id e
  x 0 + s.node.dimX * (x 1 + s.node.dimY * x 2)

/-- The port of a dimension in the direction + or − (Table 2.6: X+, X−, Y+, Y−, Z+, Z−). -/
def portOf (d : Nat) (plus : Bool) : Nat := 2 * d + (if plus then 0 else 1)

/-- The neighbour that a port joins (R368). -/
def State.neighbour (s : State) (n : Nat) : Nat :=
  let d := n / 2
  let size := s.dimSize d
  let c := s.coord s.node.id d
  s.packageAt d (if n % 2 = 0 then (c + 1) % size else (c + size - 1) % size)

/-- The link of its line that a port is on (R368). -/
def State.portLink (s : State) (n : Nat) : Nat :=
  let d := n / 2
  let size := s.dimSize d
  let c := s.coord s.node.id d
  if n % 2 = 0 then c else (c + size - 1) % size

/-- RING_DOWN of a dimension (R369). -/
def ringDownKey (d : Nat) : Nat := if d = 0 then O.ringDownX else if d = 1 then O.ringDownY else O.ringDownZ

/-- The mask that ordered classes choose by: RING_DOWN with the links that still rejoin (R373). -/
def State.orderedMask (s : State) (d : Nat) : Nat :=
  (s.torus.rejoin.filter (fun r => decide (r.dim = d))).foldl (fun m r => m ||| 2 ^ r.link) (s.rd (ringDownKey d))

/-- Whether no link of the path from coordinate `c` over `n` links in a direction is down. -/
def pathWhole (mask size c : Nat) (plus : Bool) (n : Nat) : Bool :=
  (natsFrom 0 n).all (fun i => !mask.testBit (if plus then (c + i) % size else (c + 2 * size - 1 - i) % size))

/-- The direction at the entry into a dimension (R370): the shorter way, + on a tie, the other when a link of it is down; none when
neither path is whole. -/
def State.direction (s : State) (mask d dest : Nat) : Option Bool :=
  let size := s.dimSize d
  let c := s.coord s.node.id d
  let delta := (s.coord dest d + size - c) % size
  let plus := decide (delta ≤ size - delta)
  let whole := fun (p : Bool) => pathWhole mask size c p (if p then delta else size - delta)
  if whole plus then some plus else if whole (!plus) then some (!plus) else none

/-- Whether a torus port is UP. -/
def State.portUp (s : State) (n : Nat) : Bool := decide (s.rd (O.portLinkState n) = 5)

/-- A torus port at run time. -/
def State.tport (s : State) (n : Nat) : TPort := s.torus.ports.get TPort.idle n

/-- The state with a port replaced. -/
def State.setTport (s : State) (n : Nat) (v : TPort) : State :=
  { s with torus := { s.torus with ports := s.torus.ports.set TPort.idle n v } }

/-- The state with a port changed. -/
def State.modTport (s : State) (n : Nat) (f : TPort → TPort) : State := s.setTport n (f (s.tport n))

/-- Flits of a virtual channel's buffer (R356). -/
def vcBuffer (v : Nat) : Nat := if v < 4 then 64 else 1024

/-- Credit of a virtual channel. -/
def TPort.creditOf (p : TPort) (v : Nat) : Nat := p.credit.get (vcBuffer v) v

/-! ### The flits of a port (R354-R356, R375) -/

/-- Form a flit and put it on a port (Table 14.2): it acknowledges what has come in order and returns the credit that is owed. -/
def State.putFlit (s : State) (n kind vc seq : Nat) (payload : Bytes) : State :=
  let p := s.tport n
  let credits := (natsFrom 0 11).map (fun v => min (p.owed.get 0 v) 255)
  let f : Flit := { fecOk := true, corrected := 0, kind := kind, vc := vc, linkSeq := seq, ackSeq := p.rx, credits := credits,
                    payload := payload, check := 0#32 }
  let owed := (natsFrom 0 11).foldl (fun (m : Map Nat) (v : Nat) => m.set 0 v (m.get 0 v - min (m.get 0 v) 255)) p.owed
  (s.setTport n { p with owed := owed, told := p.rx }).put (.flit n (flitSealed f))

/-- Send a flit that has a LINK_SEQ (R355): it stays in the replay buffer. -/
def State.sendFlit (s : State) (n kind vc : Nat) (payload : Bytes) : State :=
  let p := s.tport n
  let seq := (p.tx + 1) % 65536
  (((s.setTport n { p with tx := seq, window := p.window ++ [⟨kind, vc, seq, payload⟩] }).putFlit n kind vc seq payload).add (O.flitsSent n)
    1).kpc 0x08 n 1

/-- Flits of a buffer are free; their credit is owed (R356). -/
def State.freeFlits (s : State) (n v count : Nat) : State :=
  let p := s.tport n
  let k := min count (p.held.get 0 v)
  if k = 0 then s
  else s.setTport n { p with held := p.held.set 0 v (p.held.get 0 v - k), owed := p.owed.set 0 v (p.owed.get 0 v + k) }

/-- Whether flits of a buffer wait that may be sent: against credit (R356). -/
def TPort.ready (p : TPort) (v : Nat) : Bool := !(p.waiting.get [] v).isEmpty && decide (0 < p.creditOf v)

/-- The virtual channels of a class, as buffers, from the one that is next on (R375). -/
def TPort.channels (p : TPort) (c : Nat) : List Nat :=
  let vs := if c = 4 then [8, 9, 10] else [2 * c, 2 * c + 1]
  let k := p.turns.get 0 c % vs.length
  vs.drop k ++ vs.take k

/-- The buffer of a class that is served next; none where none may send. -/
def TPort.ofClass (p : TPort) (c : Nat) : Option Nat := (p.channels c).find? p.ready

/-- Whether a class has had its 64 flits of the last 1,024 (R375). -/
def TPort.capped (p : TPort) (c : Nat) : Bool := decide (64 ≤ (p.recent.filter (fun r => decide (r = c))).length)

/-- The round of relay, reduction and bulk with weights 4, 3 and 1, from its place on: places and classes. -/
def TPort.roundFrom (p : TPort) : List (Nat × Nat) :=
  let r : List (Nat × Nat) := (natsFrom 0 8).zip [2, 2, 2, 2, 3, 3, 3, 4]
  r.drop (p.round % 8) ++ r.take (p.round % 8)

/-- The buffer that the arbitration of a port serves next and the place of its round after it (R375): management and acknowledge first, each
within its cap; then the round; what is over its cap when nothing else waits, for the arbitration is work conserving. -/
def TPort.pick (p : TPort) : Option (Nat × Nat) :=
  let strict := fun (cap : Bool) => ([0, 1].filter (fun c => !(cap && p.capped c))).findSome? p.ofClass
  match strict true with
  | some v => some (v, p.round)
  | none =>
    match p.roundFrom.findSome? (fun e => (p.ofClass e.2).map (fun v => (v, e.1 + 1))) with
    | some r => some r
    | none => (strict false).map (fun v => (v, p.round))

/-- Send one flit of a port, with room in its replay buffer: a CONTROL record, or what the arbitration picks. -/
def State.sendNext (s : State) (n : Nat) : Option State :=
  let p := s.tport n
  if 4096 ≤ p.window.length then none
  else
    match p.controls, p.pick with
    | c :: r, _ => some ((s.setTport n { p with controls := r }).sendFlit n 3 0 c)
    | [], none => none
    | [], some (v, round) =>
      match p.waiting.get [] v with
      | [] => none
      | q :: r =>
        let c := bufferClass v
        let t := s.setTport n { p with waiting := p.waiting.set [] v r, credit := p.credit.set (vcBuffer v) v (p.creditOf v - 1), round := round,
                                       recent := (c :: p.recent).take 1023, turns := p.turns.set 0 c (v - 2 * c + 1) }
        let t := t.sendFlit n (if q.last then 2 else 1) (bufferByte v) q.payload
        some (match q.origin with
          | some (m, w) => t.freeFlits m w 1
          | none => t)

/-- Send flits of a port while it may. -/
def State.pumpTimes (s : State) (n : Nat) : Nat → State
  | 0 => s
  | k + 1 =>
    match s.sendNext n with
    | none => s
    | some t => State.pumpTimes t n k

/-- Send what waits at a port, as far as credit and its replay buffer allow (R355, R356, R375). -/
def State.pump (s : State) (n : Nat) : State :=
  let p := s.tport n
  s.pumpTimes n (p.controls.length + (p.waiting.entries.map (fun e => e.2.length)).sum)

/-- An IDLE flit of an UP port that has something to tell: flits to acknowledge, credit to return. -/
def State.tellPort (s : State) (n : Nat) : State :=
  let p := s.tport n
  if decide (s.rd (O.portLinkState n) = 5) && (decide (p.told ≠ p.rx) || !p.owed.entries.isEmpty) then s.putFlit n 0 0 0 [] else s

/-- What the ports have to tell goes out. -/
def State.tell (s : State) : State := State.each State.tellPort s (natsFrom 0 6)

/-- The flits of a packet. -/
def queuedFlits (p : Packet) (origin : Option (Nat × Nat)) : List QueuedFlit :=
  let ps := pieces 608 p.bytes
  ((natsFrom 0 ps.length).zip ps).map (fun (x : Nat × Bytes) =>
    ⟨p.header, decide (x.1 = 0), decide (x.1 + 1 = ps.length), x.2, origin⟩)

/-- Hand the flits of a packet to a port on a virtual channel of its class (R367). -/
def State.sendFlits (s : State) (n vc : Nat) (p : Packet) (origin : Option (Nat × Nat)) : State :=
  let v := 2 * p.cls + vc
  (s.modTport n (fun q => { q with waiting := q.waiting.set [] v (q.waiting.get [] v ++ queuedFlits p origin) })).pump n

/-- The packets of a run of queued flits, each from what is still there of it. -/
def queuedPackets : Bytes → List QueuedFlit → List Packet
  | _, [] => []
  | b, q :: r =>
    let b := (if q.first then [] else if b.isEmpty then q.head else b) ++ q.payload
    if q.last then packetOf b :: queuedPackets [] r else queuedPackets b r

/-- The dimensions in which a package's coordinates differ from the own. -/
def State.dimsLeft (s : State) (dest : Nat) : List Nat :=
  [0, 1, 2].filter (fun d => decide (s.coord s.node.id d ≠ s.coord dest d))

/-- Where a packet goes next: port, virtual channel, PFLAGS. -/
structure Hop where
  port   : Nat
  vc     : Nat
  pflags : Nat
deriving DecidableEq, Repr

/-- The direction that a packet keeps in dimension `d` (R370): the one of its PFLAGS in the dimension of the port it came by. -/
def keptDirection (pflags d : Nat) (arrived : Option (Nat × Nat)) : Option Bool :=
  match arrived with
  | none => none
  | some (n, _) => if n / 2 = d ∧ field pflags 2 2 ≠ 0 then some (decide (field pflags 2 2 = 1)) else none

/-- The virtual channel in dimension `d` (R370): 0 until the packet has crossed the dimension's wrap link and 1 afterwards. -/
def State.orderedVc (s : State) (d : Nat) (arrived : Option (Nat × Nat)) : Nat :=
  match arrived with
  | none => 0
  | some (n, vc) => if n / 2 = d ∧ (vc = 1 ∨ s.portLink n + 1 = s.dimSize d) then 1 else 0

/-- The hop of an ordered or escape packet (R370): `arrived` is the port it came by and its virtual channel there; in that port's
dimension it keeps its direction. A bulk packet on the escape path uses a link that rejoins at once (R373). -/
def State.orderedHop (s : State) (dest cls pflags : Nat) (arrived : Option (Nat × Nat)) : Option Hop :=
  match s.dimsLeft dest with
  | [] => none
  | d :: _ =>
    let mask := if cls = 4 then s.rd (ringDownKey d) else s.orderedMask d
    match (keptDirection pflags d arrived).or (s.direction mask d dest) with
    | none => none
    | some plus =>
      let n := portOf d plus
      if !s.portUp n then none
      else some ⟨n, s.orderedVc d arrived, pflags % 4 + 4 * (if plus then 1 else 2)⟩

/-- The direction that a bulk packet took at its first hop in a dimension (R371): the package lies on the way that it has taken from its
source's coordinate; none before that hop. -/
def State.takenDirection (s : State) (source dest d : Nat) : Option Bool :=
  let size := s.dimSize d
  let a := s.coord source d
  if a = s.coord s.node.id d then none
  else some (decide ((s.coord s.node.id d + size - a) % size < (s.coord dest d + size - a) % size))

/-- The ports on which a bulk packet may leave on virtual channel 2 (R371). -/
def State.bulkHops (s : State) (source dest pflags : Nat) : List Hop :=
  (s.dimsLeft dest).filterMap (fun d =>
    match (s.takenDirection source dest d).or (s.direction (s.rd (ringDownKey d)) d dest) with
    | none => none
    | some plus =>
      let p := s.tport (portOf d plus)
      if s.portUp (portOf d plus) && decide ((p.waiting.get [] 10).length < p.creditOf 10) then
        some ⟨portOf d plus, 2, pflags % 4 + 4 * (if plus then 1 else 2)⟩
      else none)

/-- The next hop of a packet: which of several free ports a bulk packet takes is open (R371, log entry 4, DESIGN CHOICE). -/
def State.nextHop (s : State) (source dest cls pflags : Nat) (arrived : Option (Nat × Nat)) : Option Hop × State :=
  if cls = 4 ∧ pflags.testBit 1 = false then
    match s.bulkHops source dest pflags with
    | [] =>
      let h := s.orderedHop dest cls (pflags % 4 ||| 2) none
      (h, if h.isSome then s.add O.escapeHops 1 else s)
    | [h] => (some h, s)
    | h :: r =>
      let (v, t) := s.free
      (some ((h :: r).getD (v % (r.length + 1)) h), t)
  else
    let h := s.orderedHop dest cls pflags arrived
    (h, if cls = 4 ∧ h.isSome = true then s.add O.escapeHops 1 else s)

/-- The torus port by which what a package sends arrives: the last dimension that its route takes. -/
def State.arrivalPort (s : State) (source : Nat) : Nat :=
  match ((natsFrom 0 3).filter (fun d => decide (s.coord source d ≠ s.coord s.node.id d))).getLast? with
  | none => 0
  | some d =>
    let k := s.dimSize d
    let delta := (s.coord s.node.id d + k - s.coord source d) % k
    portOf d (!decide (2 * delta ≤ k))

/-- Whether a package can be reached over the torus. -/
def State.reachable (s : State) (dest : Nat) : Bool :=
  decide (dest < s.torusSize) && (decide (dest = s.node.id) || (s.orderedHop dest 0 0 none).isSome)

/-- The packets of a reduction frame (R276): UNIT_TAG and unit payload; each repeats the frame's header, then its segment and the check values
of the segment. -/
def reductionUnits (header payload : Bytes) : List (Nat × Bytes) :=
  if payload.isEmpty then [(0, header)]
  else
    (natsFrom 0 ((payload.length + 65535) / 65536)).map (fun i =>
      let p := (payload.drop (65536 * i)).take 65536
      (65536 * i, header ++ p ++ blockChecks p))

/-- The pages of a micro-batch and its Baton (R212): each page with its check values. -/
def laneUnits (lane : Nat) (pages : List Bytes) (baton : Bytes) : List (Nat × Bytes) :=
  ((natsFrom 0 pages.length).zip pages).map (fun (x : Nat × Bytes) => (lane + 2 ^ 16 * x.1, x.2 ++ blockChecks x.2))
    ++ [(lane + 2 ^ 16 * pages.length, baton)]

/-- The packets of a bulk transfer: at most 65,536 bytes each. -/
def bulkUnits (number kind : Nat) (content : Bytes) : List (Nat × Bytes) :=
  let b := bulkBytes content
  (natsFrom 0 ((b.length + 65535) / 65536)).map (fun i => (bulkTag number kind (65536 * i), (b.drop (65536 * i)).take 65536))

/-- What is sent to another package (Table 14.9): destination, class, UNIT, and the UNIT_TAG and unit payload of each of its packets. -/
structure Units where
  toPkg : Nat
  cls   : Nat
  unit  : Nat
  parts : List (Nat × Bytes)

/-- A unit of one packet. -/
def oneUnit (toPkg cls unit tag : Nat) (b : Bytes) : Option Units := some ⟨toPkg, cls, unit, [(tag, b)]⟩

/-- The packets of what is put out (layouts of the model's own: log entries 20 and 26, DESIGN CHOICE); `number` is that of a bulk transfer. -/
def Output.units (number : Nat) : Output → Option Units
  | .frame .torus toPkg f => oneUnit toPkg 0 0x01 0 f.bytes
  | .commit toPkg b => oneUnit toPkg 0 0x02 0 b
  | .relayOpen toPkg link own direction tag => oneUnit toPkg 0 0x04 0 (controlBytes 1 [link, own, direction, tag])
  | .relayClose toPkg link => oneUnit toPkg 0 0x04 0 (controlBytes 2 [link])
  | .laneOpen toPkg n fields => oneUnit toPkg 0 0x04 0 (controlBytes 3 (n :: fields))
  | .channelMessage toPkg queue h p => oneUnit toPkg 2 0x10 queue (h ++ p)
  | .lane toPkg n pages b => some ⟨toPkg, 2, 0x11, laneUnits n pages b⟩
  | .ring toPkg stage step attempt mb key b =>
    oneUnit toPkg 2 0x12 (stage + 2 ^ 16 * mb) (natLe 4 step ++ natLe 1 attempt ++ natLe 1 key.kind ++ natLe 2 key.hop ++ natLe 4 key.block
      ++ natLe 4 0 ++ b ++ blockChecks b)
  | .reduction toPkg _ h p => some ⟨toPkg, 3, 0x20, reductionUnits h p⟩
  | .versionFetch toPkg fields => some ⟨toPkg, 4, 0x30, bulkUnits number 1 (fields.flatMap (natLe 4))⟩
  | .versionContent toPkg slot b => some ⟨toPkg, 4, 0x30, bulkUnits number 2 (natLe 8 slot ++ b)⟩
  | .slotResult toPkg u p => some ⟨toPkg, 4, 0x30, bulkUnits number 3 (natLe 8 u ++ p.bytes)⟩
  | .slotAgain toPkg u => some ⟨toPkg, 4, 0x30, bulkUnits number 4 (natLe 8 u)⟩
  | .cursor toPkg sink at_ => some ⟨toPkg, 4, 0x30, bulkUnits number 5 (natLe 8 sink ++ natLe 8 at_)⟩
  | .clipNotice toPkg decoder id epoch => some ⟨toPkg, 4, 0x30, bulkUnits number 6 (natLe 8 decoder ++ natLe 8 id ++ natLe 8 epoch)⟩
  | .genNotice toPkg queue gen closed => oneUnit toPkg 1 0x40 0 (noticeBytes 4 0 queue gen closed 0 0)
  | .creditReturn toPkg queue => oneUnit toPkg 1 0x40 0 (noticeBytes 6 0 queue 0 false 1 0)
  | .laneCredit toPkg n batches pages => oneUnit toPkg 1 0x40 0 (noticeBytes 6 1 n 0 false batches pages)
  | .laneNotice toPkg n gen closed => oneUnit toPkg 1 0x40 0 (noticeBytes 4 1 n gen closed 0 0)
  | .areaCredit toPkg channel => oneUnit toPkg 1 0x40 0 (noticeBytes 6 2 channel 0 false 1 0)
  | .bulkCredit toPkg packets => oneUnit toPkg 1 0x40 0 (noticeBytes 6 3 packets 0 false 0 0)
  | .epochRefusal toPkg channel => oneUnit toPkg 1 0x40 0 (noticeBytes 5 2 channel 0 false 0 0)
  | .keepalive toPkg => oneUnit toPkg 1 0x40 0 (noticeBytes 1 0 0 0 false 0 0)
  | .unreachable toPkg p => oneUnit toPkg 1 0x40 0 (noticeBytes 2 0 p.dest 0 false 0 0 ++ p.header ++ p.payload.take 128)
  | .flowReset toPkg cls => oneUnit toPkg 1 0x40 0 (noticeBytes 3 0 cls 0 false 0 0)
  | _ => none

/-- Send one packet of this package by a port: with its FLOW_SEQ. -/
def State.launch (s : State) (h : Hop) (p : Packet) : State := (s.put (.packetSent h.port h.vc p)).sendFlits h.port h.vc p none

/-- A packet of this package: PFLAGS SYNC and FLOW_SEQ from its flow (R374), which goes on. -/
def State.flowed (s : State) (p : Packet) : Packet × State :=
  let k := 8 * p.dest + p.cls
  let fl := s.torus.flowsOut.get Flow.fresh k
  let s := { s with torus := { s.torus with sentTo := s.torus.sentTo.set 0 p.dest s.now } }
  if p.cls = 4 then (p, s)
  else ({ p with flowSeq := fl.next, pflags := p.pflags ||| fl.mark.toNat },
        { s with torus := { s.torus with flowsOut := s.torus.flowsOut.set Flow.fresh k ⟨(fl.next + 1) % 65536, false⟩ } })

/-- Send one packet of this package: its FLOW_SEQ, its hop, its flits; discarded with an UNREACHABLE notice to itself where it finds
no path, but for a notice (R370, R372, R374). -/
def State.sendPacket (s : State) (p : Packet) : State :=
  let (p, s) := s.flowed p
  let (hop, t) := s.nextHop s.node.id p.dest p.cls p.pflags none
  match (if p.dest < s.torusSize then hop else none) with
  | some h => t.launch h { p with pflags := h.pflags }
  | none =>
    let t := t.add O.unreachable 1
    if p.unit = 0x40 then t else t.put (.unreachable s.node.id p)

/-- Packets of the bulk class that may be on their way to a package without CREDIT (R375; the windows are not given, log entry 117,
DESIGN CHOICE). -/
def bulkWindow : Nat := 16

/-- Send a packet of a unit: of the bulk class only within the window that its destination has granted (R375). -/
def State.sendUnit (s : State) (p : Packet) : State :=
  if p.cls ≠ 4 then s.sendPacket p
  else if s.torus.bulkSent.get 0 p.dest < bulkWindow ∧ s.torus.bulkWait.all (fun w => decide (w.dest ≠ p.dest)) = true then
    { s with torus := { s.torus with bulkSent := s.torus.bulkSent.set 0 p.dest (s.torus.bulkSent.get 0 p.dest + 1) } }.sendPacket p
  else { s with torus := { s.torus with bulkWait := s.torus.bulkWait ++ [p] } }

/-- Send what waits for the window of a package. -/
def State.sendWaiting (s : State) (dest : Nat) : Nat → State
  | 0 => s
  | n + 1 =>
    match s.torus.bulkWait.find? (fun w => decide (w.dest = dest)) with
    | none => s
    | some p =>
      if s.torus.bulkSent.get 0 dest < bulkWindow then
        State.sendWaiting ({ s with torus := { s.torus with bulkWait := s.torus.bulkWait.erase p,
                                                            bulkSent := s.torus.bulkSent.set 0 dest (s.torus.bulkSent.get 0 dest + 1) } }.sendPacket p)
          dest n
      else s

/-- CREDIT of the bulk class has come back from a package. -/
def State.bulkCreditIn (s : State) (dest packets : Nat) : State :=
  { s with torus := { s.torus with bulkSent := s.torus.bulkSent.set 0 dest (s.torus.bulkSent.get 0 dest - packets) } }.sendWaiting dest
    s.torus.bulkWait.length

/-- The state with something put on the boundary; what goes to another package travels as its packets (R367). -/
def State.emit (s : State) (o : Output) : State :=
  let t := s.put o
  let number (p : Nat) : Nat := s.torus.bulkNext.get 0 p
  match o.units 0 with
  | none => t
  | some u =>
    if u.toPkg = s.node.id then t
    else
      let t := if u.cls = 4 then { t with torus := { t.torus with bulkNext := t.torus.bulkNext.set 0 u.toPkg (number u.toPkg + 1) } } else t
      let parts := if u.cls = 4 then ((o.units (number u.toPkg)).map Units.parts).getD [] else u.parts
      State.each (fun (t : State) (x : Nat × Bytes) => t.sendUnit ⟨u.toPkg, s.node.id, u.cls, 0, 0, 0, u.unit, x.1, x.2⟩) t parts

/-- A packet is discarded and its source told (R372): a notice is never answered. -/
def State.discardPacket (s : State) (counter : Nat) (p : Packet) : State :=
  let t := s.add counter 1
  if p.unit = 0x40 then t else t.emit (.unreachable p.source p)

/-! ### RING_DOWN (R369, R373) -/

/-- A bit of RING_DOWN changes: a link that is up again is avoided by ordered classes for ROUTE_REJOIN_HOLD (R373). -/
def State.setRing (s : State) (d link : Nat) (down : Bool) : State :=
  let k := ringDownKey d
  let m := s.rd k
  if m.testBit link = down then s
  else
    let others := s.torus.rejoin.filter (fun r => decide (r.dim ≠ d) || decide (r.link ≠ link))
    let t := s.wr k (if down then m + 2 ^ link else m - 2 ^ link)
    { t with torus := { t.torus with rejoin := if down then others else others ++ [⟨d, link, t.now⟩] } }

/-- A port is not UP (R369, R377, R384): its link's bit is set, no partner is named, and a parent port that was UP leaves the time in
HOLDOVER with its last rate. -/
def State.portGone (s : State) (n : Nat) : State :=
  let t := s.wr (O.partnerId n) 0xFFFF
  let t := if 1 < s.dimSize (n / 2) then t.setRing (n / 2) (s.portLink n) true else t
  if s.portUp n ∧ s.rd O.timeParent = n then t.wr O.timeState 3 else t

/-- Flaps of the last FLAP_WINDOW (R362). -/
def State.recentFlaps (s : State) (n : Nat) : List Nat :=
  (s.tport n).flaps.filter (fun t => decide (s.now < t + s.rd O.flapWindow * 1000000))

end Sys2Proof.Machine
end

