-- ==== Sys2Proof/Machine/Queues.lean ====
section
/-! DEFINITION. Queues and bindings (chapter 08): the configuration word, the state of a binding, credit, the events of
Table 8.3, broadcast readers leaving, and the messages that a queue holds in Bent memory. -/

namespace Sys2Proof.Machine

/-- KIND of a queue configuration word (Table 8.2): 0 PLAIN, 1 COMBINING, 2 BROADCAST. -/
def qKind (w : Nat) : Nat := field w 62 2
/-- PLANE: true for the return plane. -/
def qReturn (w : Nat) : Bool := w.testBit 61
/-- ARRIVAL. -/
def qArrival (w : Nat) : Bool := w.testBit 60
/-- CFMT: 0 FP32, 1 FP32 compensated, 2 INT32. -/
def qFmt (w : Nat) : Nat := field w 58 2
/-- READER: core index in the Bent. -/
def qReader (w : Nat) : Nat := field w 52 6
/-- SENDERS. -/
def qSenders (w : Nat) : Nat := field w 45 7
/-- DEPTH. -/
def qDepth (w : Nat) : Nat := field w 37 8
/-- MSG_MAX in granules. -/
def qMsgMax (w : Nat) : Nat := field w 26 11
/-- BASE in units of 64 bytes. -/
def qBase (w : Nat) : Nat := field w 0 19

/-- PACKAGE of a queue name (Table 8.1). -/
def namePkg (n : Nat) : Nat := field n 16 14
/-- The queue within its package, 64 × BENT + QUEUE. -/
def nameQueue (n : Nat) : Nat := 64 * field n 8 6 + field n 0 6
/-- The name of a queue of a package (Table 8.1). -/
def queueName (pkg q : Nat) : Nat := pkg * 65536 + (q / 64) * 256 + q % 64

/-- The queue with a number, 64 × Bent + queue. -/
def State.queue (s : State) (q : Nat) : Queue := s.queues.get Queue.unused q

/-- The state with a queue replaced. -/
def State.setQueue (s : State) (q : Nat) (v : Queue) : State := { s with queues := s.queues.set Queue.unused q v }

/-- The configuration word of a queue. -/
def State.qword (s : State) (q : Nat) : Nat := s.rd (O.queueConfig (q / 64) (q % 64))

/-- Whether a queue name lies on this package. -/
def State.ownQueue (s : State) (name : Nat) : Bool := decide (namePkg name = s.node.id)

/-- The status of a binding (Table 8.4): 0x00 live, 0x22 stale, 0x23 closed. A remote binding has what a notice said. -/
def State.bindStatus (s : State) (e : Endpoint) : Nat :=
  if e.kind = 0 then 0
  else if e.notice ≠ 0 then e.notice
  else if s.ownQueue e.queue then
    (if (s.queue (nameQueue e.queue)).gen ≠ e.gen then 0x22
     else if (s.queue (nameQueue e.queue)).state = 2 then 0x23 else 0)
  else 0

/-- Every endpoint of every core, with its core and number. -/
def State.endpoints (s : State) : List (Nat × Nat × Endpoint) :=
  s.cores.entries.flatMap (fun c => c.2.ends.entries.map (fun e => (c.1, e.1, e.2)))

/-- The bindings of a queue of this package that are not stale. -/
def State.bindingsOf (s : State) (q : Nat) : List (Nat × Nat × Endpoint) :=
  s.endpoints.filter (fun x => decide (x.2.2.kind ≠ 0) && s.ownQueue x.2.2.queue && decide (nameQueue x.2.2.queue = q)
    && decide (s.bindStatus x.2.2 ≠ 0x22))

/-- The reader bindings of a queue that are not stale, by core and endpoint. -/
def State.boundReaders (s : State) (q : Nat) : List (Nat × Nat) :=
  ((s.bindingsOf q).filter (fun x => decide (x.2.2.kind = 3))).map (fun x => (x.1, x.2.1))

/-- The live readers of a queue, by core and endpoint. -/
def State.liveReaders (s : State) (q : Nat) : List (Nat × Nat) :=
  ((s.bindingsOf q).filter (fun x => decide (x.2.2.kind = 3) && decide (s.bindStatus x.2.2 = 0))).map (fun x => (x.1, x.2.1))

/-- Whether the wait condition of a core's next descriptor holds for its flags (R99, Table 5.5): any of the mask for
a WAIT in ANY mode, all of it otherwise. -/
def Core.waitMet (k : Core) : Bool :=
  let d := k.mem.bytes 0#8 k.dptr 16
  let mask := byteField d 2 2
  if byteField d 0 1 = 2 ∧ byteField d 8 1 = 1 then decide (mask = 0) || decide (k.flags &&& mask ≠ 0)
  else decide (k.flags &&& mask = mask)

/-- Set event flags of a core; one that was WAITING and whose wait condition now holds is RUNNING again (R103, R112). -/
def State.setFlags (s : State) (c mask : Nat) : State :=
  let k := (s.core c).setFlags mask
  s.setCore c (if k.state = .waiting ∧ k.waitMet then { k with state := .running, waitDue := none } else k)

/-- An event of an endpoint: with FLAG.EN its event flag is set (R180). -/
def State.notify (s : State) (c ep : Nat) : State :=
  let e := (s.core c).endp ep
  if e.flag.testBit 7 then s.setFlags c (2 ^ (e.flag % 16)) else s

/-- Change one endpoint. -/
def State.modEndp (s : State) (c ep : Nat) (f : Endpoint → Endpoint) : State :=
  s.modCore c (fun k => k.setEndp ep (f (k.endp ep)))

/-- Whether a binding belongs to the return plane: its queue's, or for a queue on another package a binding made without credit (Table 8.4,
R205). -/
def State.returnPlane (s : State) (e : Endpoint) : Bool :=
  if s.ownQueue e.queue then qReturn (s.qword (nameQueue e.queue)) else decide (e.credits = 0)

/-- A slot's credit goes back to the binding that filled it (R179): the flag follows when it rises from 0 (R180). The return
plane has no standing credit (R189). -/
def State.returnCredit (s : State) (q : Nat) (o : Origin) : State :=
  match o with
  | .remote pkg => s.emit (.creditReturn pkg (queueName s.node.id q))
  | .endpoint c ep gen =>
    let e := (s.core c).endp ep
    if decide (e.kind = 0) || decide (e.gen ≠ gen) || decide (s.bindStatus e = 0x22) || qReturn (s.qword q) then s
    else
      let t := s.modEndp c ep (fun e => { e with credit := e.credit + 1 })
      if e.credit = 0 then t.notify c ep else t

/-- The generation after `g`: plus 1 modulo 65,536, skipping 0xFFFF (R172). -/
def nextGen (g : Nat) : Nat := if (g + 1) % 65536 = 65535 then 0 else (g + 1) % 65536

/-- Messages and contributions that a queue holds. -/
def Queue.held (v : Queue) : Nat := v.messages.length + (v.rounds.map (fun r => r.parts.length)).sum

/-- The lowest-numbered UP Relay link to a package: the one that channel bindings ride. -/
def State.relayTo (s : State) (p : Nat) : Option Nat :=
  (natsFrom 0 32).find? (fun r => decide (s.rd (O.relayState r) = 2) && decide (s.rd (O.relayRemote r) = p))

/-- The packages that a generation notice of a queue goes to (R193): those that have sent to it, and every package at the other end of an UP
Relay link, since the binding of a remote sender that has not sent yet is not known here (log entry 57). -/
def State.noticed (s : State) (q : Nat) : List Nat :=
  let joined := ((natsFrom 0 32).filter (fun r => decide (s.rd (O.relayState r) = 2))).map (fun r => s.rd (O.relayRemote r))
  (s.queue q).remotes ++ (distinct joined).filter (fun p => !((s.queue q).remotes.contains p))

/-- Send the generation notice of a queue to a package (R193). -/
def State.noticeTo (s : State) (p q : Nat) : State :=
  s.emit (.genNotice p (queueName s.node.id q) (s.queue q).gen (decide ((s.queue q).state ≠ 1)))

/-- Move a queue's generation into a state (R172): contents discarded and counted, every binding stale with no credit and no
reservation and woken, every remote sender told (R191, R193). -/
def State.moveGen (s : State) (q newState : Nat) : State :=
  let v := s.queue q
  let bound := s.bindingsOf q
  let t := (s.setQueue q { state := newState, gen := nextGen v.gen, messages := [], rounds := [], remotes := [] }).add
    (O.queueDropped (q / 64) (q % 64)) v.held
  let t := State.each (fun t p => t.noticeTo p q) t (s.noticed q)
  State.each (fun (t : State) (x : Nat × Nat × Endpoint) =>
    (t.modEndp x.1 x.2.1 (fun e => { e with credit := 0, reserved := 0 })).notify x.1 x.2.1) t bound

/-- Close a queue: its contents stay, its bindings are woken (Table 8.3, R180). -/
def State.closeQueue (s : State) (q : Nat) : State :=
  let v := s.queue q
  let t := s.setQueue q { v with state := 2 }
  let t := State.each (fun t p => t.noticeTo p q) t (s.noticed q)
  State.each (fun (t : State) (x : Nat × Nat × Endpoint) => t.notify x.1 x.2.1) t (s.bindingsOf q)

/-- Release the broadcast messages of a queue that no live reader is still to take: their slots return credit (R187). -/
def State.releaseTaken (s : State) (q : Nat) : State :=
  let v := s.queue q
  let gone := v.messages.filter (fun m => m.readers.isEmpty)
  let t := s.setQueue q { v with messages := v.messages.filter (fun m => !m.readers.isEmpty) }
  State.each (fun t o => t.returnCredit q o) t (gone.flatMap Message.origins)

/-- READER_LEFT: a broadcast reader's binding ends (R187): messages held only for it are released; the sender learns it with its
next SEND; when it was the last live reader the generation moves. The binding reads stale until it is rebound. -/
def State.readerLeft (s : State) (c ep : Nat) : State :=
  let e := (s.core c).endp ep
  let q := nameQueue e.queue
  let v := s.queue q
  let t := (s.modEndp c ep (fun e => { e with notice := 0x22 })).notify c ep
  let t := (t.setQueue q { v with messages := v.messages.map (fun m => { m with readers := m.readers.erase (c, ep) }) })
  if (t.boundReaders q).isEmpty then t.moveGen q v.state
  else
    let t := State.each (fun (t : State) (x : Nat × Nat × Endpoint) =>
      if x.2.2.kind = 1 then t.modEndp x.1 x.2.1 (fun e => { e with left := true }) else t) t (t.bindingsOf q)
    t.releaseTaken q

/-- The broadcast reader bindings of a core that are live, by endpoint. -/
def State.broadcastReads (s : State) (c : Nat) : List Nat :=
  ((s.core c).ends.entries.filter (fun x => decide (x.2.kind = 3) && s.ownQueue x.2.queue && decide (s.bindStatus x.2 ≠ 0x22)
    && decide (qKind (s.qword (nameQueue x.2.queue)) = 2))).map Prod.fst

/-- Every broadcast reader of a core leaves. -/
def State.leaveAll (s : State) (c : Nat) : State := State.each (fun t ep => t.readerLeft c ep) s (s.broadcastReads c)

/-- The queues that a core reads as READER of a PLAIN or COMBINING queue and that are not UNUSED. -/
def State.readQueues (s : State) (c : Nat) : List Nat :=
  (natsFrom (64 * (c / 64)) 64).filter (fun q =>
    decide ((s.queue q).state ≠ 0) && decide (qKind (s.qword q) ≠ 2) && decide (qReader (s.qword q) = c % 64))

/-- The reader core enters HALTED or FAULTED: its open queues close, its broadcast readers leave (Table 8.3, R187). -/
def State.readerStops (s : State) (c : Nat) : State :=
  State.leaveAll (State.each (fun t q => if (t.queue q).state = 1 then t.closeQueue q else t) s (s.readQueues c)) c

/-- The reader core receives START: its closed queues reopen with a new generation (Table 8.3). -/
def State.readerStarts (s : State) (c : Nat) : State :=
  State.each (fun t q => if (t.queue q).state = 2 then t.moveGen q 1 else t) s (s.readQueues c)

/-- The reader core receives RESET: its queues are open with a new generation; its broadcast readers leave (Table 8.3, R187). -/
def State.readerResets (s : State) (c : Nat) : State :=
  State.leaveAll (State.each (fun t q => t.moveGen q 1) s (s.readQueues c)) c

/-- Whether a queue is a COMBINING queue in deterministic mode. -/
def qRounds (w : Nat) : Bool := decide (qKind w = 1) && !qArrival w

/-- Bytes of one slot of a queue's storage (R171): a header, and room for one message or for a contribution of every sender. -/
def qSlotBytes (w : Nat) : Nat := if qRounds w then 128 + qSenders w * 64 * qMsgMax w else 128 + 64 * qMsgMax w

/-- Bytes of storage of a queue (R171). -/
def qStorage (w : Nat) : Nat := qDepth w * qSlotBytes w

/-- Whether the storage of two configuration words overlaps. -/
def qOverlap (a b : Nat) : Bool :=
  decide (64 * qBase a < 64 * qBase b + qStorage b) && decide (64 * qBase b < 64 * qBase a + qStorage a)

/-- Whether CREATE accepts a configuration word (R171). -/
def State.queueFits (s : State) (q : Nat) : Bool :=
  let w := s.qword q
  decide (qKind w ≠ 3) && decide (qFmt w ≠ 3) && decide (1 ≤ qSenders w) && decide (qSenders w ≤ 64)
    && decide (1 ≤ qDepth w) && decide (1 ≤ qMsgMax w) && decide (qMsgMax w ≤ 1024) && decide (field w 19 7 = 0)
    && (decide (qKind w = 1) || (!qArrival w && decide (qFmt w = 0)))
    && !(decide (qKind w = 2) && qReturn w)
    && decide (64 * qBase w + qStorage w ≤ 0x2000000)
    && (natsFrom (64 * (q / 64)) 64).all (fun p =>
          decide (p = q) || decide ((s.queue p).state = 0) || !qOverlap w (s.qword p))

/-- Whether a binding is not the one that an endpoint had. -/
def Origin.notOf (c ep : Nat) (o : Origin) : Bool :=
  match o with
  | .endpoint a b _ => !(decide (a = c) && decide (b = ep))
  | .remote _ => true

/-- A round without what an ended binding contributed; a contribution already in a running sum stays in it (R179, R186; log entry 57). -/
def Round.without (r : Round) (arrival : Bool) (c ep : Nat) : Round :=
  { r with parts :=
      if arrival then r.parts.map (fun x => { x with origins := x.origins.filter (Origin.notOf c ep) })
      else r.parts.filter (fun x => x.origins.all (Origin.notOf c ep)) }

/-- A binding of an endpoint to a queue ends (R179): its undelivered messages and contributions are gone and their slots free; nothing returns
credit to it any more. A combined result stays. -/
def State.dropOrigins (s : State) (q c ep : Nat) : State :=
  let v := s.queue q
  let w := s.qword q
  let messages :=
    if qKind w = 1 then v.messages.map (fun m => { m with origins := m.origins.filter (Origin.notOf c ep) })
    else v.messages.filter (fun m => m.origins.all (Origin.notOf c ep))
  let rounds := (v.rounds.map (fun r => r.without (qArrival w) c ep)).filter (fun r => !r.parts.isEmpty)
  let t := s.setQueue q { v with messages := messages, rounds := rounds }
  { t with cores := t.cores.change (fun k =>
      { k with inflight := k.inflight.map (fun i => { i with credit := i.credit.filter (Origin.notOf c ep) }) }) }

/-- End an endpoint's binding (R179): a live broadcast reader leaves; the endpoint is unbound. -/
def State.endBinding (s : State) (c ep : Nat) : State :=
  let e := (s.core c).endp ep
  let t := if (s.broadcastReads c).contains ep then s.readerLeft c ep else s
  let t := if (decide (e.kind = 1) || decide (e.kind = 2)) && t.ownQueue e.queue then t.dropOrigins (nameQueue e.queue) c ep else t
  t.modCore c (fun k => k.setEndp ep Endpoint.none)

/-! ### Messages in Bent memory (R169, R171, R176) -/

/-- Where a slot of a queue's storage starts in Bent memory. -/
def qSlotAt (w slot : Nat) : Nat := 64 * qBase w + slot * qSlotBytes w

/-- Bytes of a slot of a queue, from an offset in it. -/
def State.slotBytes (s : State) (q slot off n : Nat) : Bytes :=
  (s.bent (q / 64)).mem.bytes 0#8 (qSlotAt (s.qword q) slot + off) n

/-- Write bytes of a slot of a queue, from an offset in it. -/
def State.writeSlot (s : State) (q slot off : Nat) (bs : Bytes) : State :=
  let b := s.bent (q / 64)
  s.setBent (q / 64) { b with mem := b.mem.setBytes 0#8 (qSlotAt (s.qword q) slot + off) bs }

/-- The header of the message in a slot (Table 8.5). -/
def State.slotHeader (s : State) (q slot : Nat) : Bytes := s.slotBytes q slot 0 128

/-- SIZE of a message header, in granules. -/
def hSize (h : Bytes) : Nat := byteField h 0 2
/-- SENDER. -/
def hSender (h : Bytes) : Nat := byteField h 2 1
/-- MFLAGS. -/
def hFlags (h : Bytes) : Nat := byteField h 3 1
/-- The first `n` words of CHECKS. -/
def hChecks (h : Bytes) (n : Nat) : List W32 := (natsFrom 0 n).map (fun i => BitVec.ofNat 32 (byteField h (64 + 4 * i) 4))

/-- The payload of the message in a slot, as long as its header says. -/
def State.slotPayload (s : State) (q slot : Nat) : Bytes := s.slotBytes q slot 128 (64 * hSize (s.slotHeader q slot))

/-- The lowest slot of a queue that holds no message and no round (log entry 99, DESIGN CHOICE). -/
def State.freeSlotOf (s : State) (q : Nat) : Option Nat :=
  let v := s.queue q
  (natsFrom 0 (qDepth (s.qword q))).find? (fun n => !(v.messages.any (fun m => decide (m.slot = n)) || v.rounds.any (fun r => decide (r.slot = n))))

/-- Check values of a payload: one CRC-32C for each 4 KiB and for a shorter last part (R176). -/
def partChecks (bs : Bytes) : Nat → List W32
  | 0 => []
  | n + 1 => if bs.isEmpty then [] else crc32c (bs.take 4096) :: partChecks (bs.drop 4096) n

/-- Check values of a message payload. -/
def payloadChecks (bs : Bytes) : List W32 := partChecks bs 16

/-- The message that a reader takes next: the head, or for BROADCAST the first still to be taken by it. -/
def State.headFor (s : State) (q c ep : Nat) : Option Message :=
  if qKind (s.qword q) = 2 then (s.queue q).messages.find? (fun m => m.readers.contains (c, ep))
  else (s.queue q).messages.head?

/-- Remove from a list the first element that satisfies `p`. -/
def eraseFirst {α : Type} (p : α → Bool) : List α → List α
  | [] => []
  | a :: r => if p a then r else a :: eraseFirst p r

/-- Change the first element that satisfies `p`. -/
def modFirst {α : Type} (p : α → Bool) (f : α → α) : List α → List α
  | [] => []
  | a :: r => if p a then f a :: r else a :: modFirst p f r

/-- A reader takes its next message (R183): the message leaves a PLAIN or COMBINING queue; a BROADCAST message leaves with its
last live reader. Answers the origins whose credit the removal returns at retirement (R179). -/
def State.takeHead (s : State) (q c ep : Nat) : State × List Origin :=
  let v := s.queue q
  if qKind (s.qword q) = 2 then
    match s.headFor q c ep with
    | none => (s, [])
    | some m =>
      let left := m.readers.erase (c, ep)
      let mine := fun (m : Message) => m.readers.contains (c, ep)
      if left.isEmpty then (s.setQueue q { v with messages := eraseFirst mine v.messages }, m.origins)
      else (s.setQueue q { v with messages := modFirst mine (fun m => { m with readers := left }) v.messages }, [])
  else (s.setQueue q { v with messages := v.messages.drop 1 }, ((v.messages.head?).elim [] Message.origins))

/-- The endpoints of a core that drive an awaited flag, ascending (R194). -/
def Core.awaited (k : Core) : List (Nat × Endpoint) :=
  let mask := byteField (k.mem.bytes 0#8 k.dptr 16) 2 2
  k.ends.entries.filter (fun e => decide (e.2.kind ≠ 0) && e.2.flag.testBit 7 && mask.testBit (e.2.flag % 16)
    && !(k.flags.testBit (e.2.flag % 16)))

/-- A core in WAITING times its wait while a flag that a channel endpoint drives is awaited: from that moment on (R194). -/
def State.rearmWait (s : State) (c : Nat) : State :=
  let k := s.core c
  if k.state ≠ .waiting then s
  else if k.awaited.isEmpty then s.setCore c { k with waitDue := none }
  else if k.waitDue.isSome then s
  else s.setCore c { k with waitDue := some (s.now + s.rd (O.chWaitLimit (c / 64))) }

/-- The 16 bytes of an endpoint as they read (Table 8.4). -/
def State.endpointBytes (s : State) (e : Endpoint) : Bytes :=
  natLe 1 e.kind ++ natLe 1 e.flag ++ natLe 1 e.sender ++ natLe 1 e.credits ++ natLe 4 e.queue ++ natLe 2 e.gen ++ natLe 2 0
    ++ natLe 2 e.reserved ++ natLe 1 (s.bindStatus e) ++ natLe 1 0

/-- The endpoint table of a core. -/
def State.endpointTable (s : State) (c : Nat) : Bytes := (natsFrom 0 16).flatMap (fun e => s.endpointBytes ((s.core c).endp e))

/-- Header bytes of a message (Table 8.5). -/
def messageHeader (size sender mflags gen seq count : Nat) (checks : List W32) : Bytes :=
  natLe 2 size ++ natLe 1 sender ++ natLe 1 mflags ++ natLe 2 gen ++ natLe 2 seq ++ natLe 4 count ++ List.replicate 52 0#8
    ++ (checks ++ List.replicate (16 - checks.length) 0#32).flatMap (fun v => natLe 4 v.toNat)

end Sys2Proof.Machine
end

