-- ==== Sys2Proof/Machine/Operands.lean ====
section
/-! DEFINITION. The fields of a 64-byte descriptor (R97): the common header, X selectors, signed offsets, reserved bytes, and
the operand forms that several units share. -/

namespace Sys2Proof.Machine

/-- OPCODE. -/
def dOp (d : Bytes) : Nat := byteField d 0 1
/-- FLAGS. -/
def dFlags (d : Bytes) : Nat := byteField d 1 1
/-- FLAGS FENCE. -/
def dFence (d : Bytes) : Bool := (dFlags d).testBit 7
/-- FLAGS TAG_ELIGIBLE. -/
def dTag (d : Bytes) : Bool := (dFlags d).testBit 6
/-- FLAGS CLEAR_WAIT. -/
def dClear (d : Bytes) : Bool := (dFlags d).testBit 5
/-- WAIT_MASK. -/
def dWait (d : Bytes) : Nat := byteField d 2 2
/-- SIGNAL_MASK. -/
def dSignal (d : Bytes) : Nat := byteField d 4 2
/-- SEQ. -/
def dSeq (d : Bytes) : Nat := byteField d 6 2

/-- Whether the bytes from `a` up to (not including) `b` are 0. -/
def zeroBytes (d : Bytes) (a b : Nat) : Bool := ((d.drop a).take (b - a)).all (fun x => decide (x = 0#8))

/-- Whether a selector byte sets no reserved bit (R105). -/
def selOk (b : Nat) : Bool := decide (field b 4 3 = 0)
/-- Whether a selector names a register. -/
def selUse (b : Nat) : Bool := b.testBit 7
/-- The register a selector names. -/
def selReg (b : Nat) : Nat := b % 16
/-- What a selector contributes: its X register with USE, else 0 (R105). -/
def selVal (x : Map W64) (b : Nat) : Nat := if selUse b then (x.get 0#64 (selReg b)).toNat else 0

/-- A two's complement number of `w` bits. -/
def signed (w v : Nat) : Int := if v < 2 ^ (w - 1) then (v : Int) else (v : Int) - 2 ^ w

/-- An address field plus its selector: 64-bit arithmetic (R100). -/
def addrOf (x : Map W64) (field selector : Nat) : Nat := (field + selVal x selector) % 2 ^ 64

/-- Whether an opcode is reserved (Tables 5.4, 6.1, 7.3, 8.6). -/
def opReserved (o : Nat) : Bool :=
  !(decide (o ≤ 0x08) || decide (o = 0x10) || (decide (0x18 ≤ o) && decide (o ≤ 0x1A)) || (decide (0x30 ≤ o) && decide (o ≤ 0x52))
    || (decide (0x60 ≤ o) && decide (o ≤ 0x63)) || (decide (0x70 ≤ o) && decide (o ≤ 0x73)))

/-- The unit that executes an opcode (Table 5.4): 0 sequencer, 1 matrix, 2 vector, 3 move, 4 channel. RNG_CTX completes at
issue like a control descriptor (R164). -/
def opUnit (o : Nat) : Nat :=
  if o < 0x10 then 0 else if o < 0x30 then 1 else if o = 0x50 then 0 else if o < 0x60 then 2 else if o < 0x70 then 3 else 4

/-- ENDPOINT of a channel descriptor. -/
def chEp (d : Bytes) : Nat := byteField d 8 1 % 16

/-- The vector register a U16 operand field names, when its KIND is VREG (Table 7.2). -/
def opdKind (o : Nat) : Nat := field o 14 2
/-- COL. -/
def opdCol (o : Nat) : Bool := o.testBit 13
/-- TILE. -/
def opdTile (o : Nat) : Nat := field o 11 2
/-- REG_OR_PAIR. -/
def opdReg (o : Nat) : Nat := field o 0 5
/-- Whether an operand field sets only the bits its KIND assigns (Table 7.2). -/
def opdOk (o : Nat) : Bool :=
  decide (field o 5 6 = 0) &&
  (match opdKind o with
   | 0 => decide (field o 11 3 = 0)
   | 1 => decide (field o 0 14 = 0)
   | 2 => decide (opdReg o < 16)
   | _ => false)

end Sys2Proof.Machine
end

