-- ==== Sys2Proof/Machine/CoreLife.lean ====
section
/-! DEFINITION. The life of a core (R112-R117): tags, abandoning descriptors, entering HALTED and FAULTED, starting, stopping,
resetting, retirement, and a Bent switching off and on. -/

namespace Sys2Proof.Machine

/-- DIE_CYCLES of a core's die (R471). -/
def State.coreCycles (s : State) (c : Nat) : Nat := s.rd (O.dieCycles (c / 768)) % 2 ^ 48

/-- The tag state a core takes from TAG_SEED (R469). -/
def tagInit (seed c : Nat) : Nat :=
  let v := (seed ^^^ (c * 0x9E3779B9)) % 2 ^ 32
  if v = 0 then 1 else v

/-- One step of the tag state (R469). -/
def tagNext (v : Nat) : Nat := if v % 2 = 1 then (v / 2) ^^^ 0x80200003 else v / 2

/-- The bytes of a tag record (Table 18.6); points not reached read 0 (R473). FETCH and OPERAND_READY carry the time of
issue (log entry 13, DESIGN CHOICE). -/
def tagRecord (s : State) (c tflags : Nat) (t : Tag) (retire : Nat) : Bytes :=
  let e := t.ended.getD 0
  let b := natLe 1 1 ++ natLe 1 tflags ++ natLe 2 c ++ natLe 1 t.opcode ++ natLe 1 0 ++ natLe 2 t.seq ++ natLe 4 t.dptr
    ++ natLe 4 t.step ++ natLe 6 t.issue ++ natLe 6 t.issue ++ natLe 6 t.issue ++ natLe 6 e ++ natLe 6 e ++ natLe 6 retire
    ++ natLe 8 s.time
  b ++ natLe 4 (crc32c b).toNat

/-- TAG_RECORD: write a record into the Bent's ring of 64 (R472). -/
def State.putTag (s : State) (c tflags : Nat) (t : Tag) (retire : Nat) : State :=
  let b := c / 64
  let n := s.rd (O.tagRecords b)
  let u := s.setBent b { s.bent b with tags := (s.bent b).tags.set [] (n % 64) (tagRecord s c tflags t retire) }
  u.add (O.tagRecords b) 1

/-- Whether a core's Bent belongs to a slot that is ARMED, RUNNING or STOPPING (R173). -/
def State.inSlot (s : State) (c : Nat) : Bool :=
  let p := s.rd (O.pacerStage (c / 64))
  decide (p ≠ 0xFF) && (decide (s.rd (O.stageState p) = 1) || decide (s.rd (O.stageState p) = 2)
    || decide (s.rd (O.stageState p) = 3))

/-- Whether two origins name one endpoint. -/
def Origin.sameEnd (a b : Origin) : Bool :=
  match a, b with
  | .endpoint c e _, .endpoint c' e' _ => decide (c = c') && decide (e = e')
  | _, _ => false

/-- The credit or the reservation of a message that was not accepted goes back to its binding. -/
def State.ungive (s : State) (q c ep gen : Nat) : State :=
  if qReturn (s.qword q) then
    (if ((s.core c).endp ep).gen = gen ∧ s.bindStatus ((s.core c).endp ep) ≠ 0x22 then
      s.modEndp c ep (fun e => { e with reserved := e.reserved + 1 })
     else s)
  else s.returnCredit q (.endpoint c ep gen)

/-- The credit or reservation that an abandoned SEND or CONTRIBUTE has taken and not used goes back to its binding (R197). -/
def State.unpay (s : State) (c ep : Nat) : State :=
  let e := (s.core c).endp ep
  if e.kind = 0 ∨ s.bindStatus e = 0x22 then s
  else if s.returnPlane e then s.modEndp c ep (fun e => { e with reserved := e.reserved + 1 })
  else
    let t := s.modEndp c ep (fun e => { e with credit := e.credit + 1 })
    if e.credit = 0 then t.notify c ep else t

/-- Undo the flight of an abandoned SEND or CONTRIBUTE: the last of its endpoint (R182, R197: it sends nothing). -/
def State.dropFlight (s : State) (c ep : Nat) : State :=
  let mine := fun (f : Flight) => f.origin.sameEnd (.endpoint c ep 0)
  match s.flights.reverse.find? mine with
  | none => s
  | some f => ({ s with flights := (eraseFirst mine s.flights.reverse).reverse }).ungive f.queue c ep f.gen

/-- The buffer of a partner that holds a core's sample is empty again: the MM goes with it (R417). -/
def State.dropSample (s : State) (p : Nat) : State := s.modCore p (fun k => { k with sample := none })

/-- Abandon one issued descriptor: a message not accepted is not sent, the credit of a removed message returns, a sampled MM
loses its sample, a tag ends with its record (R116, R473). -/
def State.abandon (s : State) (c : Nat) (powered faulted : Bool) (i : Issued) : State :=
  let op := dOp i.desc
  let t := if (decide (op = 0x70) || decide (op = 0x72)) && decide (i.stage = .begun) then s.dropFlight c (chEp i.desc) else s
  let t := if i.paid && decide (i.stage = .queued) then t.unpay c (chEp i.desc) else t
  let t := State.each (fun t o => t.returnCredit (nameQueue ((t.core c).endp (chEp i.desc)).queue) o) t i.credit
  let t := match i.sample with
    | some p => t.dropSample p
    | none => t
  let t := if i.asked.isSome then t.disown c else t
  match i.tag with
  | some g => if powered then t.putTag c (1 + 2 * faulted.toNat) g 0 else t
  | none => t

/-- The tile an MM writes goes back to its shadow (R134). -/
def Core.restoreShadow (k : Core) (i : Issued) : Core :=
  match i.shadow with
  | some v => if i.stage = .complete then k else k.setTile (byteField i.desc 34 1 % 4) v
  | none => k

/-- Abandon every issued descriptor of a core from position `pos` on, the latest first; `faulted` names the first of them. -/
def State.abandonFrom (s : State) (c pos : Nat) (powered faulted : Bool) : State :=
  let l := (s.core c).inflight
  let gone := l.drop pos
  let t := s.modCore c (fun k =>
    { (gone.reverse.foldl Core.restoreShadow k) with inflight := l.take pos })
  let n := gone.length
  (gone.reverse.foldl (fun (p : State × Nat) i => (p.1.abandon c powered (faulted && decide (p.2 = n - 1)) i, p.2 + 1)) (t, 0)).1

/-- A core enters HALTED with a code: a reader event unless it ends a work item of a slot core (R114, R173). -/
def State.enterHalted (s : State) (c code : Nat) : State :=
  let t := s.modCore c (fun k => { k with state := .halted, haltCode := code, waitDue := none })
  if t.inSlot c && decide (code ≤ 0x7F) then t else t.readerStops c

/-- A core enters FAULTED: DPTR at the faulting descriptor, CORE_FAULT, the fault log record of class 0x06 (R116, Table 16.8). -/
def State.enterFaulted (s : State) (c : Nat) (f : PendingFault) : State :=
  let w := f.code * 2 ^ 24 + f.opcode * 2 ^ 16 + f.seq
  let t := s.modCore c (fun k =>
    { k with state := .faulted, dptr := f.addr, fault := w, pending := none, waitDue := none })
  (t.record 0x06 (t.suspect susCore c) 0xFFFFFFFF w 0).readerStops c

/-- Once every issued descriptor has retired, a pending fault puts the core in FAULTED and a stop in HALTED with 0xFF
(R114, R116). -/
def State.finishStop (s : State) (c : Nat) : State :=
  let k := s.core c
  if !k.inflight.isEmpty then s
  else
    match k.pending with
    | some f => s.enterFaulted c f
    | none => if k.state = .stopping then s.enterHalted c 0xFF else s

/-- The issued descriptor at a position faults: it and every later one are abandoned, earlier ones are still to retire (R116). Until then
the core reads the state it was in (log entry 110, DESIGN CHOICE). -/
def State.faultIssued (s : State) (c pos code : Nat) : State :=
  match (s.core c).inflight[pos]? with
  | none => s
  | some i =>
    let t := s.abandonFrom c pos true true
    (t.modCore c (fun k => { k with pending := some ⟨code, dOp i.desc, dSeq i.desc, i.addr⟩, dptr := i.addr })).finishStop c

/-- The descriptor about to issue faults (R98, R116): it has no effect. -/
def State.faultNext (s : State) (c code : Nat) (d : Bytes) : State :=
  (s.modCore c (fun k =>
    { k with pending := some ⟨code, dOp d, dSeq d, k.dptr⟩,
             state := if k.state = .waiting then .running else k.state, waitDue := none })).finishStop c

/-- START at an entry (R114): X0 the core id, X1 the logical Bent, X2 to X15 zero, flags unchanged. `readers` says whether it is a
reader event (R173). -/
def State.startCore (s : State) (c entry : Nat) (readers : Bool) : State :=
  let x := ((Map.empty : Map W64).set 0#64 0 (BitVec.ofNat 64 c)).set 0#64 1 (BitVec.ofNat 64 (c / 64))
  let t := s.modCore c (fun k => { k with state := .running, dptr := entry, x := x, waitDue := none, pending := none })
  if readers then t.readerStarts c else t

/-- STOP (R114): no further issue; HALTED with 0xFF once every issued descriptor has retired. -/
def State.stopCore (s : State) (c : Nat) : State :=
  (s.modCore c (fun k => { k with state := .stopping, waitDue := none })).finishStop c

/-- Fields of an MM that its completion depends on: whether it sends its tile on (Table 6.2). -/
def chainsOut (d : Bytes) : Bool := (byteField d 34 1).testBit 5

/-- A descriptor's effects are complete (R102): its tag notes the time. -/
def Issued.finish (i : Issued) (cycles : Nat) : Issued :=
  { i with stage := .complete, tag := i.tag.map (fun g => { g with ended := some cycles }) }

/-- The comparison of the MM whose sample partner `p` held is over: without CHAIN_OUT its effects are complete (R417). -/
def State.sampleDone (s : State) (owner p : Nat) : State :=
  let cy := s.coreCycles owner
  s.modCore owner (fun k => { k with inflight := k.inflight.map (fun i =>
    if i.sample = some p then (if chainsOut i.desc then { i with sample := none } else { i with sample := none }.finish cy) else i) })

/-- The recompute that waits in a core's buffer is abandoned and counted (R418). -/
def State.abandonSample (s : State) (c : Nat) : State :=
  match (s.core c).sample with
  | none => s
  | some r => ((s.dropSample c).add O.recomputeAbandoned 1).sampleDone r.owner c

/-- RESET (R114): abandons issued descriptors, clears registers, flags, vector registers, tiles, chain buffer, status flags, the
fault and the random context; keeps core memory, endpoints, counters and the tag state; the core is IDLE. CORE_DPTR,
CORE_HALT_CODE and CORE_SIGNALS_LOST keep their values (log entry 110, DESIGN CHOICE). -/
def State.resetCore (s : State) (c : Nat) : State :=
  let t := (s.abandonFrom c 0 true false).abandonSample c
  let t := t.modCore c (fun k =>
    { k with state := .idle, fault := 0, x := Map.empty, flags := 0, v := Map.empty, fp := 0, tiles := Map.empty,
             chain := none, rng := ⟨0, 0, 0, 0, 0⟩, inflight := [], pending := none, waitDue := none, retired := 0 })
  t.readerResets c

/-- The next descriptor in program order that is complete retires: its SIGNAL_MASK flags are set, it counts, credit returns and
its endpoint's flag follows, its tag is recorded (R102, R179, R180, R472). -/
def State.retireHead (s : State) (c : Nat) : State :=
  match (s.core c).inflight with
  | [] => s
  | i :: r =>
    if i.stage ≠ .complete then s
    else
      let t := s.modCore c (fun k => { k with inflight := r, retired := k.retired + 1 })
      let t := (t.setFlags c (dSignal i.desc)).pc c 0x03 1
      let op := dOp i.desc
      let ep := chEp i.desc
      let e := (t.core c).endp ep
      let q := nameQueue e.queue
      let t := State.each (fun t o => t.returnCredit q o) t i.credit
      let t := if op = 0x71 ∧ e.kind = 3 ∧ t.bindStatus e ≠ 0x22 ∧ (t.headFor q c ep).isSome then t.notify c ep else t
      let t := if (op = 0x70 ∨ op = 0x72) ∧ (e.kind = 1 ∨ e.kind = 2) ∧ 0 < e.credit + e.reserved then t.notify c ep else t
      let t := match i.tag with
        | some g => t.putTag c 0 g (t.coreCycles c)
        | none => t
      t.finishStop c

/-- Whether an object of a Bent's block is state of its cores that the store holds: CORE_ENTRY and the counters by core of Tables 6.9 and 7.7. -/
def coreHeld (b k : Nat) : Bool :=
  inBentBlock k && decide (keyBent k = b) && [0x02, 0x14, 0x15, 0x16, 0x1E, 0x1F].contains (keyOff k)

/-- The Bent of a logical number loses its power: its cores enter OFF and lose all but core memory, which the return to ON
clears; its queues are UNUSED with a new generation; its memory is lost (R115, Table 8.3, R473). -/
def State.bentLost (s : State) (b : Nat) : State :=
  let mine := natsFrom (64 * b) 64
  let t := State.each (fun t c => ((t.abandonFrom c 0 false false).abandonSample c).leaveAll c) s mine
  let t := State.each (fun t c => State.each (fun t ep => t.endBinding c ep) t (((t.core c).ends.entries).map Prod.fst)) t mine
  let t := State.each (fun t c => t.setCore c { Core.off with mem := (t.core c).mem }) t mine
  let t := State.each (fun t q => t.moveGen q 0) t (natsFrom (64 * b) 64)
  ({ t with objs := t.objs.keep (fun k => !coreHeld b k) }).setBent b Bent.empty

/-- The Bent's domain reaches ON again: its cores are IDLE with core memory cleared and the tag state seeded (R115, R469). -/
def State.bentReady (s : State) (b : Nat) : State :=
  State.each (fun t c => t.setCore c { Core.off with state := .idle, tagState := tagInit (t.rd O.tagSeed) c }) s
    (natsFrom (64 * b) 64)

end Sys2Proof.Machine
end

