-- ==== Sys2Proof/Machine/Frames.lean ====
section
/-! DEFINITION. Management frames: their bytes and CHECK, the judgement of a received frame, sending a frame on a
carrier, the response slots and the event slots of the host window (R54-R56, R65). -/

namespace Sys2Proof

/-- The key of the object a frame names. -/
def Frame.key (f : Frame) : Nat := f.index * 256 + f.sub

/-- The package id in DEST, bits [13:0] (Table 3.4). -/
def Frame.target (f : Frame) : Nat := f.dest % 16384

/-- FLAGS bit LAST. -/
def Frame.isLast (f : Frame) : Bool := f.flags.testBit 0

/-- FLAGS bit PROXIED. -/
def Frame.isProxied (f : Frame) : Bool := f.flags.testBit 2

end Sys2Proof

namespace Sys2Proof.Machine

/-- A frame's header recorded in FRAME_TRACE (R65): the last 64 are kept. -/
def State.trace (s : State) (f : Frame) : State :=
  { s with mgmt := { s.mgmt with trace := takeLast 64 (s.mgmt.trace ++ [f.header]) } }

/-- The Ethernet framing of a frame that leaves by the Tally port for the station that `ether` names as its source (Table 3.6, R65): from the
own MAC address, tagged while TALLY_VLAN is not 0. -/
def State.tallyFraming (s : State) (f : Frame) : Frame :=
  { f with ether := { dst := f.ether.src, src := s.fuses.tallyMac, type := 0x88B6,
                      tag := if s.rd O.tallyVlan = 0 then none else some (s.rd O.tallyPriority * 8192 + s.rd O.tallyVlan) } }

/-- A frame of the package's own is carried by its session, whose idle time begins anew (R57). -/
def State.carries (s : State) (f : Frame) : State :=
  if f.source = s.node.id ∧ f.kind ≠ 1 then
    { s with mgmt := { s.mgmt with sessions := s.mgmt.sessions.map (fun e => if e.id = f.session then { e with lastFrame := s.now } else e) } }
  else s

/-- An MSI-X message on a vector, at most one per vector in any 2 µs, and only while enabled (R380). -/
def State.msi (s : State) (v : Nat) : State :=
  if s.mgmt.msiEnabled && (s.mgmt.msiLast.all (fun p => decide (p.1 ≠ v) || decide (p.2 + 2 ≤ s.now))) then
    let e : MsixEntry := s.mgmt.host.table.getD v ⟨0, 0, false⟩
    if s.mgmt.host.functionMask || e.masked then { s with mgmt := { s.mgmt with msiPending := v :: s.mgmt.msiPending.erase v } }
    else
      { s with out := s.out ++ [.msi v e.address e.data],
               mgmt := { s.mgmt with msiLast := (v, s.now) :: s.mgmt.msiLast.filter (fun p => decide (p.1 ≠ v)) } }
  else s

/-- The lowest of the 16 slots that a slot list leaves free (log entry 94, DESIGN CHOICE). -/
def freeSlot (l : List (Nat × Frame)) : Option Nat :=
  (natsFrom 0 16).find? (fun i => l.all (fun p => decide (p.1 ≠ i)))

/-- Place a frame in a response slot, or hold it while all are full (R56). -/
def State.placeResponse (s : State) (f : Frame) : State :=
  match freeSlot s.mgmt.responses with
  | some i =>
    let t := { s with mgmt := { s.mgmt with responses := s.mgmt.responses ++ [(i, { f with slot := i })] } }
    (((t.trace f).add O.framesSent 1).carries f).msi 0
  | none => { s with mgmt := { s.mgmt with held := s.mgmt.held ++ [f] } }

/-- Send a frame on a carrier (R55, R56); `to` is the package a torus frame goes to. -/
def State.send (s : State) (c : Carrier) (toPkg : Nat) (f : Frame) : State :=
  match c with
  | .host => s.placeResponse f
  | .tally => (((s.emit (.frame .tally toPkg (s.tallyFraming f))).trace f).add O.framesSent 1).carries f
  | .torus => (((s.emit (.frame .torus toPkg f)).trace f).add O.framesSent 1).carries f

/-- The answer frame to a request (R54, R55): KIND `kind`, the request's COMMAND, SEQUENCE, SESSION, INDEX, SUBINDEX
and PROXIED flag, SOURCE the own id, DEST the requester. -/
def answerFrame (s : State) (kind : Nat) (f : Frame) (session status : Nat) (payload : Bytes) : Frame :=
  Frame.seal { f with version := 1, kind := kind, status := status, session := session, source := s.node.id,
                      dest := f.source, flags := if f.isProxied then 4 else 0, offset := 0,
                      length := payload.length, payload := payload, slot := 0 }

/-- Send the response to a request (R51). -/
def State.respond (s : State) (f : Frame) (session status : Nat) (payload : Bytes) : State :=
  s.send f.carrier f.source (answerFrame s 2 f session status payload)

/-- The segments of a READ_DOMAIN answer (R58): 1,024 bytes each except the last, in ascending offset; STATUS OK in the
first, LAST in the last. `fuel` bounds their number. -/
def segments (s : State) (f : Frame) (off : Nat) (content : Bytes) : Nat → List Frame
  | 0 => []
  | fuel + 1 =>
    let part := content.take 1024
    let rest := content.drop 1024
    let fl := (if f.isProxied then 4 else 0) + (if rest.isEmpty then 1 else 0)
    let g := Frame.seal { f with version := 1, kind := 5, status := 0, source := s.node.id, dest := f.source, flags := fl,
                                 offset := off, length := part.length, payload := part, slot := 0 }
    if rest.isEmpty then [g] else g :: segments s f (off + 1024) rest fuel

/-- Move held responses into response slots that have become free (R56). -/
def State.refillResponses (s : State) : Nat → State
  | 0 => s
  | n + 1 =>
    match s.mgmt.held with
    | [] => s
    | f :: r =>
      match freeSlot s.mgmt.responses with
      | none => s
      | some _ => State.refillResponses (State.placeResponse { s with mgmt := { s.mgmt with held := r } } f) n

/-- Move queued events of host sessions into free event slots, session by session in the order in
which they opened (log entry 94, DESIGN CHOICE); the first after a drop carries OVERFLOW (R56, R62). -/
def State.refillEvents (s : State) : Nat → State
  | 0 => s
  | n + 1 =>
    match freeSlot s.mgmt.events, s.mgmt.sessions.find? (fun e => decide (e.carrier = .host) && !e.queue.isEmpty) with
    | some i, some e =>
      match e.queue with
      | [] => s
      | f :: r =>
        let up := fun (x : Session) => if x.id = e.id then { x with queue := r, overflow := false } else x
        let f := if e.overflow then Frame.seal { f with flags := 2 } else f
        let t := { s with mgmt := { s.mgmt with events := s.mgmt.events ++ [(i, { f with slot := i })],
                                                sessions := s.mgmt.sessions.map up } }
        State.refillEvents ((((t.trace f).add O.framesSent 1).carries f).msi 1) n
    | _, _ => s

end Sys2Proof.Machine
end

