-- ==== Sys2Proof/Machine/Functions.lean ====
section
/-! DEFINITION. The functions of the vector engine (R154): each the FP32 value nearest the exact function value, ties to even, with
the special values and flags of Table 7.4. An irrational value is held as a 256-bit fixed-point enclosure whose last bit is
set so that the one rounding sees it as inexact (log entry 14, DEDUCED). -/

namespace Sys2Proof.Machine

/-- Fraction bits of the working precision. -/
def fxBits : Nat := 256
/-- 1 in fixed point. -/
def fxOne : Nat := 2 ^ 256
/-- ln 2 in fixed point, truncated. -/
def fxLn2 : Nat := 0xb17217f7d1cf79abc9e3b39803f2f6af40f343267298b62d8a0d175b8baafa2b

/-- Sum of y^k/k! from the term `t` = y^k/k! on. -/
def expTerms (y t k : Nat) : Nat → Nat
  | 0 => 0
  | n + 1 => if t = 0 then 0 else t + expTerms y (t * y / fxOne / (k + 1)) (k + 1) n

/-- 2^f in fixed point for f in [0, 1). -/
def fxExp2 (f : Nat) : Nat := expTerms (f * fxLn2 / fxOne) fxOne 0 80

/-- Sum of z^(2k+1)/(2k+1) from the power `p` = z^(2k+1) on. -/
def atanhTerms (z2 p k : Nat) : Nat → Nat
  | 0 => 0
  | n + 1 => if p = 0 then 0 else p / (2 * k + 1) + atanhTerms z2 (p * z2 / fxOne) (k + 1) n

/-- log2 of m / 2^b in fixed point for 2^b ≤ m < 2^(b+1). -/
def fxLog2 (m b : Nat) : Nat :=
  let z := (m - 2 ^ b) * fxOne / (m + 2 ^ b)
  2 * atanhTerms (z * z / fxOne) z 0 100 * fxOne / fxLn2

/-- The largest r with r × r ≤ v, given that it is below 2^n. -/
def isqrt (v acc : Nat) : Nat → Nat
  | 0 => acc
  | n + 1 => if (acc + 2 ^ n) * (acc + 2 ^ n) ≤ v then isqrt v (acc + 2 ^ n) n else isqrt v acc n

/-- An inexact value near v × 2^-256 × 2^e: its last bit is set. -/
def sticky (neg : Bool) (v : Nat) (e : Int) : Num := .fin neg (2 * v + 1) (e - (fxBits : Int) - 1)

/-- The quiet result of a NaN input: INVALID for a signalling one (R70, R86). -/
def nanIn (s : Bool) : W32 × Nat := (0x7FC00000#32, flIf s flInvalid)

/-- A canonical NaN with INVALID. -/
def invalidNan : W32 × Nat := (0x7FC00000#32, flInvalid)

/-- m × 2^e as an integer, where it is one; none otherwise. -/
def wholeOf (m : Nat) (e : Int) : Option Nat :=
  if 0 ≤ e then some (m * 2 ^ e.toNat) else if m % 2 ^ (-e).toNat = 0 then some (m / 2 ^ (-e).toNat) else none

/-- The value of 2^a for a finite a: exact for an integer a. -/
def exp2Value (neg : Bool) (m : Nat) (e : Int) : Num :=
  if 12 < topExp m e ∧ m ≠ 0 then (if neg then .fin false 1 (-5000) else .fin false 1 5000)
  else
    match wholeOf m e with
    | some v => if neg then .fin false 1 (-(v : Int)) else .fin false 1 v
    | none =>
      -- |a| in fixed point: every FP32 value of this size is a multiple of 2^-149
      let v := m * 2 ^ ((fxBits : Int) + e).toNat
      let i := v / fxOne
      let f := v % fxOne
      if neg then sticky false (fxExp2 (fxOne - f)) (-(i : Int) - 1) else sticky false (fxExp2 f) i

/-- VEXP2 (R154, Table 7.4). -/
def fExp2 (a : W32) : W32 × Nat :=
  match f32 a with
  | .nan s => nanIn s
  | .inf n => (if n then 0#32 else 0x7F800000#32, 0)
  | .fin n m e => toF32 (exp2Value n m e)

/-- An integer as a value. -/
def intNum (v : Int) : Num := .fin (decide (v < 0)) v.natAbs 0

/-- VLOG2 (R154, Table 7.4). -/
def fLog2 (a : W32) : W32 × Nat :=
  match f32 a with
  | .nan s => nanIn s
  | .inf n => if n then invalidNan else (0x7F800000#32, 0)
  | .fin n m e =>
    if m = 0 then (0xFF800000#32, flDivZero)
    else if n then invalidNan
    else
      let b := Nat.log2 m
      let E := topExp m e
      if m = 2 ^ b then toF32 (intNum E)
      else
        let v : Int := E * (fxOne : Int) + (fxLog2 m b : Int)
        toF32 (if v < 0 then .fin true (2 * v.natAbs - 1) (-(fxBits : Int) - 1) else sticky false v.toNat 0)

/-- 1/a for a finite non-zero a. -/
def rcpValue (n : Bool) (m : Nat) (e : Int) : Num :=
  let q := 2 ^ 96 / m
  if m * q = 2 ^ 96 then .fin n q (-e - 96) else .fin n (2 * q + 1) (-e - 97)

/-- VRCP (R154, Table 7.4). -/
def fRcp (a : W32) : W32 × Nat :=
  match f32 a with
  | .nan s => nanIn s
  | .inf n => (BitVec.ofNat 32 (Fmt.signBit .fp32 n), 0)
  | .fin n m e =>
    if m = 0 then (BitVec.ofNat 32 (Fmt.signBit .fp32 n + Fmt.infCode .fp32), flDivZero) else toF32 (rcpValue n m e)

/-- 1/√a for a finite positive a. -/
def rsqrtValue (m : Nat) (e : Int) : Num :=
  let m' := if e % 2 = 0 then m else 2 * m
  let e' := if e % 2 = 0 then e else e - 1
  let q := 2 ^ 160 / m'
  let r := isqrt q 0 81
  if r * r * m' = 2 ^ 160 then .fin false r (-(e' / 2) - 80) else .fin false (2 * r + 1) (-(e' / 2) - 81)

/-- VRSQRT (R154, Table 7.4). -/
def fRsqrt (a : W32) : W32 × Nat :=
  match f32 a with
  | .nan s => nanIn s
  | .inf n => if n then invalidNan else (0#32, 0)
  | .fin n m e =>
    if m = 0 then (BitVec.ofNat 32 (Fmt.signBit .fp32 n + Fmt.infCode .fp32), flDivZero)
    else if n then invalidNan
    else toF32 (rsqrtValue m e)

/-- tanh a for a finite non-zero a. -/
def tanhValue (n : Bool) (m : Nat) (e : Int) : Num :=
  let t := topExp m e
  if t < -20 then .fin n (m * 2 ^ 100 - 1) (e - 100)
  else if 4 < t then .fin n (2 ^ 100 - 1) (-100)
  else
    -- e^(2|a|) = 2^y, y = 2|a| / ln 2
    let v := 2 * (m * 2 ^ ((fxBits : Int) + e).toNat)
    let y := v * fxOne / fxLn2
    let p := fxExp2 (y % fxOne) * 2 ^ (y / fxOne)
    sticky n (fxOne - 2 * fxOne * fxOne / (p + fxOne)) 0

/-- VTANH (R154, Table 7.4). -/
def fTanh (a : W32) : W32 × Nat :=
  match f32 a with
  | .nan s => nanIn s
  | .inf n => (BitVec.ofNat 32 (Fmt.signBit .fp32 n + 0x3F800000), 0)
  | .fin n m e => if m = 0 then (a, 0) else toF32 (tanhValue n m e)

/-- The correctly rounded FP32 quotient of two FP32 values (R251). -/
def fDiv (a b : W32) : W32 :=
  match f32 a, f32 b with
  | .fin na ma ea, .fin nb mb eb =>
    if mb = 0 then (if ma = 0 then 0x7FC00000#32 else BitVec.ofNat 32 (Fmt.signBit .fp32 (na != nb) + Fmt.infCode .fp32))
    else
      let q := ma * 2 ^ 200 / mb
      if q * mb = ma * 2 ^ 200 then (toF32 (.fin (na != nb) q (ea - eb - 200))).1
      else (toF32 (.fin (na != nb) (2 * q + 1) (ea - eb - 201))).1
  | .fin na _ _, .inf nb => BitVec.ofNat 32 (Fmt.signBit .fp32 (na != nb))
  | .inf na, .fin nb _ _ => BitVec.ofNat 32 (Fmt.signBit .fp32 (na != nb) + Fmt.infCode .fp32)
  | _, _ => 0x7FC00000#32

/-- The correctly rounded FP32 square root (R251). -/
def fSqrt (a : W32) : W32 :=
  match f32 a with
  | .nan _ => 0x7FC00000#32
  | .inf n => if n then 0x7FC00000#32 else a
  | .fin n m e =>
    if m = 0 then a
    else if n then 0x7FC00000#32
    else
      let m' := if e % 2 = 0 then m * 2 ^ 100 else m * 2 ^ 101
      let e' := if e % 2 = 0 then e - 100 else e - 101
      let r := isqrt m' 0 70
      if r * r = m' then (toF32 (.fin false r (e' / 2))).1 else (toF32 (.fin false (2 * r + 1) (e' / 2 - 1))).1

/-- Whether a value is above zero. -/
def Num.pos : Num → Bool
  | .nan _ => false
  | .inf n => !n
  | .fin n m _ => !n && decide (m ≠ 0)

/-- The FP32 sum without its flags. -/
def addF (a b : W32) : W32 := (f32Add a b).1
/-- The FP32 product without its flags. -/
def mulF (a b : W32) : W32 := (f32Mul a b).1
/-- The FP32 difference without its flags. -/
def subF (a b : W32) : W32 := (f32Sub a b).1

/-- SIGMOID (Table 6.6). -/
def actSigmoid (x : W32) : W32 := mulF 0x3F000000#32 (addF 0x3F800000#32 (fTanh (mulF 0x3F000000#32 x)).1)

/-- The activations of Table 6.6 on an FP32 value; NaN in gives NaN out (R140). -/
def activate (code : Nat) (p x : W32) : W32 :=
  let v := f32 x
  if v.isNan then 0x7FC00000#32
  else
    match code with
    | 0 => x
    | 1 => if v.pos then x else 0#32
    | 2 => if v.pos || v.isZero then x else mulF x p
    | 3 =>
      if (f32 p).lt v then p else if v.lt (f32 (f32Neg p)) then f32Neg p else x
    | 4 => if v.pos then mulF x x else 0#32
    | 5 => actSigmoid x
    | 6 => (fTanh x).1
    | 7 => if x = 0xFF800000#32 then 0x80000000#32 else mulF x (actSigmoid x)
    | _ =>
      if x = 0xFF800000#32 then 0x80000000#32
      else
        let u := addF x (mulF 0x3D372713#32 (mulF (mulF x x) x))
        let w := mulF 0x3F4C422A#32 u
        mulF (mulF 0x3F000000#32 x) (addF 0x3F800000#32 (fTanh w).1)

end Sys2Proof.Machine
end

