-- ==== Sys2Proof/Machine/Timeouts.lean ====
section
/-! DEFINITION. The timeout hierarchy (R425, R426): the maxima of the lower levels and the effective values of the upper ones. Every
timer of the state holds the microsecond at which it expires, taken with the limit in force when it started. -/

namespace Sys2Proof.Machine

/-- The largest of an object over the Bents whose BENT_STATE is ENABLED. -/
def State.bentMax (s : State) (k : Nat → Nat) : Nat :=
  (((natsFrom 0 48).filter (fun b => decide (s.rd (O.bentState b) = 0))).map (fun b => s.rd (k b))).foldl max 0

/-- The deadline of a work item of a micro-batch of T tokens at a slot, in µs (R223). -/
def State.deadlineOf (s : State) (i tokens : Nat) : Nat :=
  let q := s.rd (O.seqShare i)
  s.rd (O.stageTimeBase i) + ((tokens + q - 1) / q * s.rd (O.stageTimePerToken i) + 999) / 1000

/-- M4: the largest stage deadline over the slots that are not UNUSED. -/
def State.stageMax (s : State) : Nat :=
  (((natsFrom 0 16).filter (fun i => decide (s.rd (O.stageState i) ≠ 0))).map (fun i => s.deadlineOf i (s.rd O.pipeMaxTokens))).foldl max 0

/-- A configured value when it exceeds the sum of the levels below, and that sum plus 100,000 µs otherwise (R426). -/
def above (configured sum : Nat) : Nat := if sum < configured then configured else sum + 100000

/-- S5. -/
def State.sum5 (s : State) : Nat := s.bentMax O.wdLimit + s.bentMax O.chWaitLimit + s.bentMax O.bentTimeout + s.stageMax
/-- The effective value of level 5. -/
def State.level5 (s : State) : Nat := above (s.rd O.dieTimeout) s.sum5
/-- The effective value of level 6. -/
def State.level6 (s : State) : Nat := above (s.rd O.packageTimeout) (s.sum5 + s.level5)
/-- S7. -/
def State.sum7 (s : State) : Nat := s.sum5 + s.level5 + s.level6
/-- The effective value of RC_HOP_LIMIT. -/
def State.hopDue (s : State) : Nat := above (s.rd O.rcHopLimit * 1000) s.sum7
/-- The effective value of COMMIT_WAIT_LIMIT. -/
def State.commitWaitDue (s : State) : Nat := above (s.rd O.commitWaitLimit * 1000000) s.sum7

/-- TIMEOUT_EFFECTIVE (Table 16.11): M1 to M4, levels 5 and 6, RC_HOP_LIMIT, COMMIT_WAIT_LIMIT. -/
def State.effectiveTimeout (s : State) : Nat → Nat
  | 0 => s.bentMax O.wdLimit
  | 1 => s.bentMax O.chWaitLimit
  | 2 => s.bentMax O.bentTimeout
  | 3 => s.stageMax
  | 4 => s.level5
  | 5 => s.level6
  | 6 => s.hopDue
  | _ => s.commitWaitDue

end Sys2Proof.Machine
end

