-- ==== Sys2Proof/Machine/Tensor.lean ====
section
/-! DEFINITION. Tensor memory (R230-R238): HBM frames and where the allocator takes them, reservations, the page map, reading
and writing tensor bytes, and the resident copies of the page mover. -/

namespace Sys2Proof.Machine

/-- The key of frame `n` of stack `k`. -/
def frameKey (k n : Nat) : Nat := k * 2 ^ 32 + n
/-- The stack of a frame. -/
def frameStack (f : Nat) : Nat := f / 2 ^ 32
/-- Bytes of a tensor page (R230). -/
def pageSize : Nat := 0x10000
/-- First page of the Pacer window (R234). -/
def pacerPage : Nat := 0xF0000000
/-- First page of a slot's part of the Pacer window (R234). -/
def slotPage (i : Nat) : Nat := pacerPage + i * 0x1000000

/-- A frame of HBM. -/
def State.frame (s : State) (f : Nat) : HFrame := s.frames.get HFrame.free f

/-- The state with a frame replaced. -/
def State.setFrame (s : State) (f : Nat) (v : HFrame) : State := { s with frames := s.frames.set HFrame.free f v }

/-- A frame is written whole: no other die keeps a line of it (R393). -/
def State.frameWritten (s : State) (f : Nat) : State :=
  (State.each (fun (t : State) (b : Nat) => t.blockWritten 4 (16 * f + b)) s (natsFrom 0 16)).kpc 0x04 (frameStack f) pageSize

/-- A tensor page. -/
def State.page (s : State) (p : Nat) : Page := s.pages.get Page.none p

/-- The state with a page replaced. -/
def State.setPage (s : State) (p : Nat) (v : Page) : State := { s with pages := s.pages.set Page.none p v }

/-- Whether a page is mapped. -/
def State.mapped (s : State) (p : Nat) : Bool := decide ((s.page p).pool ≠ 255)

/-- The frames of a stack that are in use, by number and content, ascending. -/
def State.framesOf (s : State) (k : Nat) : List (Nat × HFrame) :=
  (s.frames.entries.filter (fun e => decide (frameStack e.1 = k))).map (fun e => (e.1 % 2 ^ 32, e.2))

/-- Whether the HBM channel of a stack is ON (Table 17.6, domains 0x34-0x3F). -/
def State.stackOn (s : State) (k : Nat) : Bool := s.domainOn (0x34 + k)

/-- Frames of a stack that are neither mapped nor retired (R230). -/
def State.stackFree (s : State) (k : Nat) : Nat :=
  if s.stackOn k then s.rd (O.pageFrames k) - ((s.framesOf k).filter (fun e => decide (e.2.use ≠ 2))).length else 0

/-- Free frames of a stack that a reservation holds (R233). -/
def State.stackReserved (s : State) (k : Nat) : Nat :=
  if s.stackOn k then ((s.framesOf k).filter (fun e => decide (e.2.use = 2))).length else 0

/-- Free unreserved frames of a stack. -/
def State.stackOpen (s : State) (k : Nat) : Nat := s.stackFree k - s.stackReserved k

/-- Free unreserved frames of a die. -/
def State.dieOpen (s : State) (d : Nat) : Nat := s.stackOpen (3 * d) + s.stackOpen (3 * d + 1) + s.stackOpen (3 * d + 2)

/-- Free unreserved frames of the package. -/
def State.framesOpen (s : State) : Nat := s.dieOpen 0 + s.dieOpen 1 + s.dieOpen 2 + s.dieOpen 3

/-- The lowest number from `n` up that a list of rising numbers leaves out. -/
def lowestGap (n : Nat) : List Nat → Nat
  | [] => n
  | u :: r => if u < n then lowestGap n r else if u = n then lowestGap (n + 1) r else n

/-- The stacks of a die in the order page `i` tries them (R232). -/
def stackOrder (d i : Nat) : List Nat :=
  (3 * d + i % 3) :: ([3 * d, 3 * d + 1, 3 * d + 2].filter (fun m => decide (m ≠ 3 * d + i % 3)))

/-- The die with the most free unreserved frames, the lower code on ties (R232). -/
def State.bestDie (s : State) : Nat :=
  (natsFrom 1 3).foldl (fun b d => if s.dieOpen b < s.dieOpen d then d else b) 0

/-- The home die of page `i` of a run: 0xFF spreads over the four (R232). -/
def homeDie (home i : Nat) : Nat := if home = 0xFF then i % 4 else home

/-- Take a frame for page `i` of a run by the order of R232, the lowest free one of its stack (log entry 15, DESIGN CHOICE). -/
def State.takeFrame (s : State) (home i use owner : Nat) : Option (Nat × State) :=
  match (stackOrder (homeDie home i) i ++ stackOrder s.bestDie i).find? (fun k => decide (0 < s.stackOpen k)) with
  | none => none
  | some k =>
    let f := frameKey k (lowestGap 0 ((s.framesOf k).map Prod.fst))
    some (f, s.setFrame f { HFrame.free with use := use, owner := owner })

/-- Take `n` frames for the pages of a run from page `i` on: all or none. -/
def State.takeFrames (s : State) (home use owner i : Nat) : Nat → Option (List Nat × State)
  | 0 => some ([], s)
  | n + 1 =>
    match s.takeFrame home i use owner with
    | none => none
    | some (f, t) => (State.takeFrames t home use owner (i + 1) n).map (fun p => (f :: p.1, p.2))

/-- The frames that a reservation holds, ascending. -/
def State.reservedOf (s : State) (owner : Nat) : List Nat :=
  (s.frames.entries.filter (fun e => decide (e.2.use = 2) && decide (e.2.owner = owner))).map Prod.fst

/-- The die that holds most of some frames, the lower code on ties (R232). -/
def mostFrames (fs : List Nat) : Nat :=
  let held := fun (d : Nat) => (fs.filter (fun f => decide (frameStack f / 3 = d))).length
  (natsFrom 1 3).foldl (fun b d => if held b < held d then d else b) 0

/-- The frames among `fs`, ascending, that pages `i` to `i + n - 1` of a run take by the order of R232; fewer when there are fewer. -/
def pickFrames (home : Nat) : Nat → Nat → List Nat → List Nat
  | _, 0, _ => []
  | i, n + 1, fs =>
    match (stackOrder home i ++ stackOrder (mostFrames fs) i).findSome? (fun k => fs.find? (fun f => decide (frameStack f = k))) with
    | none => []
    | some f => f :: pickFrames home (i + 1) n (fs.filter (fun g => decide (g ≠ f)))

/-- Turn frames of a reservation into mapped frames of a new owner for the `n` pages of a run with a home die (R232, R233). -/
def State.drawFrames (s : State) (owner home n newOwner : Nat) : List Nat × State :=
  let fs := pickFrames home 0 n (s.reservedOf owner)
  (fs, State.each (fun t f => t.setFrame f { HFrame.free with use := 1, owner := newOwner }) s fs)

/-- Every Bent but `except` drops its resident copy of a frame (R238). -/
def State.dropResident (s : State) (f except : Nat) : State :=
  State.each (fun (t : State) (e : Nat × Bent) =>
    if e.1 ≠ except ∧ e.2.resident.contains f then
      t.setBent e.1 { e.2 with resident := e.2.resident.filter (fun g => decide (g ≠ f)) }
    else t) s s.bents.entries

/-- A frame becomes free and its content is lost (R231). -/
def State.freeFrame (s : State) (f : Nat) : State := (s.setFrame f HFrame.free).dropResident f 255

/-- A frame goes back to a reservation. -/
def State.returnFrame (s : State) (f owner : Nat) : State :=
  (s.setFrame f { HFrame.free with use := 2, owner := owner }).dropResident f 255

/-- Free every frame of an owner, reserved or not. -/
def State.freeOwner (s : State) (owner : Nat) : State :=
  State.each (fun t f => t.freeFrame f) s
    ((s.frames.entries.filter (fun e => decide (e.2.owner = owner) && decide (e.2.use ≠ 3))).map Prod.fst)

/-- Map pages from `p` on onto frames. -/
def State.mapPages (s : State) (p pool : Nat) : List Nat → State
  | [] => s
  | f :: r => State.mapPages (s.setPage p ⟨pool, f⟩) (p + 1) pool r

/-- The frames of `n` pages from `p` on. -/
def State.pageFramesOf (s : State) (p n : Nat) : List Nat := (natsFrom p n).map (fun q => (s.page q).frame)

/-- Unmap `n` pages from `p` on; their frames go where `f` says. -/
def State.unmapPages (s : State) (f : State → Nat → State) (p n : Nat) : State :=
  State.each (fun (t : State) (q : Nat) =>
    if t.mapped q then f (t.setPage q Page.none) (t.page q).frame else t) s (natsFrom p n)

/-- Owners of reservations and of frames that have an owner (R233): a slot's versions, its stash allotment, its ring areas, a Lane's
ring, a slot's buckets, a re-shard's buckets, the data engine. -/
def ownVersions (i : Nat) : Nat := 0x100 + i
/-- A slot's stash allotment. -/
def ownStash (i : Nat) : Nat := 0x200 + i
/-- A slot's ring areas. -/
def ownRing (i : Nat) : Nat := 0x300 + i
/-- A Lane's page ring. -/
def ownLane (n : Nat) : Nat := 0x400 + n
/-- A slot's buckets. -/
def ownBuckets (i : Nat) : Nat := 0x500 + i
/-- A re-shard. -/
def ownReshard : Nat := 0x600
/-- The data engine. -/
def ownData : Nat := 0x700

/-! ### Slots, versions and the windows (R240-R242) -/

/-- The stage slot with a number. -/
def State.slot (s : State) (i : Nat) : Slot := s.slots.get Slot.unused i

/-- The state with a slot replaced. -/
def State.setSlot (s : State) (i : Nat) (v : Slot) : State := { s with slots := s.slots.set Slot.unused i v }

/-- The state with a slot changed. -/
def State.modSlot (s : State) (i : Nat) (f : Slot → Slot) : State := s.setSlot i (f (s.slot i))

/-- STAGE_STATE of a slot (Table 9.1): 0 UNUSED, 1 ARMED, 2 RUNNING, 3 STOPPING, 4 STOPPED, 5 FAULTED. -/
def State.stage (s : State) (i : Nat) : Nat := s.rd (O.stageState i)

/-- The slots, ascending. -/
def allSlots : List Nat := natsFrom 0 16

/-- The slots that hold a plan. -/
def State.planned (s : State) : List Nat := allSlots.filter (fun i => decide (s.stage i ≠ 0))

/-- First page of a slot's weight window. -/
def State.weightPage (s : State) (i : Nat) : Nat := s.rd (O.weightBase i) / pageSize
/-- First page of a slot's optimizer window. -/
def State.optPage (s : State) (i : Nat) : Nat := s.rd (O.optBase i) / pageSize

/-- Whether a page lies in a slot's weight window. -/
def State.inWeights (s : State) (i p : Nat) : Bool :=
  decide (s.weightPage i ≤ p) && decide (p < s.weightPage i + s.rd (O.weightPages i))
/-- Whether a page lies in a slot's optimizer window. -/
def State.inOptimizer (s : State) (i p : Nat) : Bool :=
  decide (s.optPage i ≤ p) && decide (p < s.optPage i + s.rd (O.optPages i))

/-- Whether a page lies in a window of a slot that is not UNUSED. -/
def State.inWindow (s : State) (p : Nat) : Bool := s.planned.any (fun i => s.inWeights i p || s.inOptimizer i p)

/-- The live version of a slot with a number (R242). -/
def Slot.version? (v : Slot) (n : Nat) : Option Version := v.versions.find? (fun x => decide (x.number = n))

/-- The frame that a page resolves to for a work item of a slot at a version (R240): none when it is not mapped. -/
def State.resolve (s : State) (item : Option (Nat × Nat)) (p : Nat) : Option Nat :=
  if !s.mapped p then none
  else
    match item with
    | none => some (s.page p).frame
    | some (i, v) =>
      if s.inWeights i p then
        match (s.slot i).version? v with
        | some x => some (x.weights.getD (p - s.weightPage i) (s.page p).frame)
        | none => some (s.page p).frame
      else some (s.page p).frame

/-! ### Tensor bytes -/

/-- `n` bytes at a tensor address under a resolution of its pages. -/
def State.tensorBytes (s : State) (item : Option (Nat × Nat)) (a : Nat) : Nat → Bytes
  | 0 => []
  | n + 1 =>
    (match s.resolve item (a / pageSize) with
     | some f => (s.frame f).bytes.get 0#8 (a % pageSize)
     | none => 0#8) :: State.tensorBytes s item (a + 1) n

/-- The blocks of a page that bytes `lo` to `hi - 1` of it cover whole. -/
def wholeBlocks (lo hi : Nat) : List Nat := (natsFrom 0 16).filter (fun b => decide (lo ≤ b * 4096) && decide (b * 4096 + 4096 ≤ hi))

/-- Write bytes into a frame for a die: a write of a whole block ends its poison (R412); lines of the blocks elsewhere are invalid (R393). -/
def State.writeFrameBy (s : State) (writer f off : Nat) (bs : Bytes) : State :=
  let v := s.frame f
  let s := State.each (fun (t : State) (b : Nat) => t.blockWritten writer (16 * f + b)) s
    (natsFrom (off / 4096) ((off + bs.length + 4095) / 4096 - off / 4096))
  (s.kpc 0x04 (frameStack f) bs.length).setFrame f
    { v with bytes := v.bytes.setBytes 0#8 off bs,
             poison := v.poison.filter (fun b => !(wholeBlocks off (off + bs.length)).contains b) }

/-- Write bytes into a frame by a unit of the IOD, die 4. -/
def State.writeFrame (s : State) (f off : Nat) (bs : Bytes) : State := s.writeFrameBy 4 f off bs

/-- Write bytes at a tensor address for a die, page by page; an unmapped page takes none. -/
def State.writeTensorBy (s : State) (writer : Nat) (item : Option (Nat × Nat)) (a : Nat) (bs : Bytes) : Nat → State
  | 0 => s
  | n + 1 =>
    if bs.isEmpty then s
    else
      let m := min bs.length (pageSize - a % pageSize)
      let t := match s.resolve item (a / pageSize) with
        | some f => s.writeFrameBy writer f (a % pageSize) (bs.take m)
        | none => s
      State.writeTensorBy t writer item (a + m) (bs.drop m) n

/-- Write bytes at a tensor address by a unit of the IOD, die 4. -/
def State.writeTensor (s : State) (item : Option (Nat × Nat)) (a : Nat) (bs : Bytes) (n : Nat) : State := s.writeTensorBy 4 item a bs n

/-- The pages that `n` bytes at a tensor address touch, ascending. -/
def pagesOf (a n : Nat) : List Nat := natsFrom (a / pageSize) ((a + n + pageSize - 1) / pageSize - a / pageSize)

/-- The blocks that `n` bytes at a tensor address touch, by address / 4,096. -/
def blocksOf (a n : Nat) : List Nat := natsFrom (a / 4096) ((a + n + 4095) / 4096 - a / 4096)

/-! ### Residency (R236-R238) -/

/-- The slot that holds a Bent; 255 for none (PACER_STAGE). -/
def State.bentSlot (s : State) (b : Nat) : Nat := s.rd (O.pacerStage b)

/-- PM_LIMIT of a Bent (R236). -/
def State.pmLimit (s : State) (b : Nat) : Nat := if s.bentSlot b = 0xFF then 0 else s.rd (O.residentPages (s.bentSlot b))

/-- Whether a frame's page is resident in a Bent. -/
def State.isResident (s : State) (b f : Nat) : Bool := (s.bent b).resident.contains f

/-- A read of a resident page makes it the last used. -/
def State.touch (s : State) (b f : Nat) : State :=
  let k := s.bent b
  if k.resident.contains f then s.setBent b { k with resident := k.resident.filter (fun g => decide (g ≠ f)) ++ [f] } else s

/-- Count the pages a MOVE_TENSOR reads, each once (R238). -/
def State.countReads (s : State) (b : Nat) (fs : List Nat) : State :=
  State.each (fun (t : State) (f : Nat) =>
    if t.isResident b f then ((t.add (O.pmHits b) 1).bpc b 0x03 1).touch b f
    else (t.add (O.pmMisses b) 1).bpc b 0x04 1) s fs

/-- The address in Bent memory of a place in the resident area (R236). -/
def State.placeAt (s : State) (b n : Nat) : Nat := 0x2000000 - pageSize * s.pmLimit b + pageSize * n

/-- The lowest place of a Bent's resident area that no resident page has (log entry 97, DESIGN CHOICE). -/
def Bent.freePlace (k : Bent) (n : Nat) : Nat :=
  ((natsFrom 0 n).find? (fun i => !(k.places.any (fun p => decide (p.2 = i) && k.resident.contains p.1)))).getD 0

/-- A page becomes resident: its content is copied from its frame to a free place (R236, R238), block by block from its home (R390, R392). -/
def State.makeResident (s : State) (b f : Nat) : State :=
  let s := State.each (fun (t : State) (i : Nat) => t.engineRead (b / 12) (16 * f + i)) s (natsFrom 0 16)
  let k := s.bent b
  let n := k.freePlace (s.pmLimit b)
  let t := s.setBent b { k with mem := k.mem.setRange (s.placeAt b n) pageSize (s.frame f).bytes, resident := k.resident ++ [f],
                                places := k.places.filter (fun p => decide (p.1 ≠ f) && k.resident.contains p.1) ++ [(f, n)] }
  (t.add (O.pmPrefetched b) 1).bpc b 0x05 pageSize

/-- A write of a frame by a Bent's own MOVE_TENSOR writes the Bent's resident copy too (R238). -/
def State.writeResident (s : State) (b f off : Nat) (bs : Bytes) : State :=
  let k := s.bent b
  if k.resident.contains f then
    match k.places.find? (fun p => decide (p.1 = f)) with
    | some p => s.setBent b { k with mem := k.mem.setBytes 0#8 (s.placeAt b p.2 + off) bs }
    | none => s
  else s

/-- Fetch a page into a Bent (R237, R238): `keep` are the frames of the running and of the lookahead item. None when it would
evict one of them. -/
def State.fetchPage (s : State) (b f : Nat) (keep : List Nat) : Option State :=
  let k := s.bent b
  if k.resident.contains f then some s
  else if k.resident.length < s.pmLimit b then some (s.makeResident b f)
  else
    match k.resident.find? (fun g => !keep.contains g) with
    | none => none
    | some g =>
      some (((s.setBent b { k with resident := k.resident.filter (fun x => decide (x ≠ g)) }).makeResident b f).add (O.pmEvicted b) 1)

end Sys2Proof.Machine
end

