-- ==== Sys2Proof/Machine/Bindings.lean ====
section
/-! DEFINITION. The endpoint table (R174, R175): the forward-plane graph (R188), the checks of a new binding, and the write of the table that
ends and makes bindings. -/

namespace Sys2Proof.Machine

/-- The job stage of a vertex (R188, R199). -/
def State.vertexStage (s : State) (c : Nat) : Nat := if s.bentSlot (c / 64) = 0xFF then 0 else s.rd (O.jobStage (s.bentSlot (c / 64)))

/-- The readers of a queue of this package as vertices (R188). -/
def State.readersOf (s : State) (q : Nat) : List Nat :=
  if qKind (s.qword q) = 2 then (s.liveReaders q).map Prod.fst else [64 * (q / 64) + qReader (s.qword q)]

/-- The edges of the forward-plane graph (R188). -/
def State.forwardEdges (s : State) : List (Nat × Nat) :=
  (s.endpoints.filter (fun x => (decide (x.2.2.kind = 1) || decide (x.2.2.kind = 2)) && s.ownQueue x.2.2.queue
    && decide (s.bindStatus x.2.2 = 0) && !(qReturn (s.qword (nameQueue x.2.2.queue))))).flatMap (fun x =>
      (s.readersOf (nameQueue x.2.2.queue)).map (fun r => (x.1, r)))

/-- Vertices reached from `seen` along edges, after at most `n` rounds. -/
def reachAll (edges : List (Nat × Nat)) (seen : List Nat) : Nat → List Nat
  | 0 => seen
  | n + 1 =>
    let new := distinct ((edges.filter (fun e => seen.contains e.1 && !(seen.contains e.2))).map Prod.snd)
    if new.isEmpty then seen else reachAll edges (seen ++ new) n

/-- The edges that a new binding adds. -/
def State.newEdges (s : State) (c : Nat) (e : Endpoint) : List (Nat × Nat) :=
  let q := nameQueue e.queue
  if !(s.ownQueue e.queue) || qReturn (s.qword q) then []
  else if e.kind = 3 then
    (if qKind (s.qword q) = 2 then
      ((s.bindingsOf q).filter (fun x => decide (x.2.2.kind = 1) && decide (s.bindStatus x.2.2 = 0))).map (fun x => (x.1, c))
     else [])
  else (s.readersOf q).map (fun r => (c, r))

/-- Whether an edge may not be added (R188): to itself, closing a cycle, or to a lower pipeline stage. -/
def State.edgeRefused (s : State) (e : Nat × Nat) : Bool :=
  decide (e.1 = e.2) || decide (s.vertexStage e.2 < s.vertexStage e.1)
    || (reachAll s.forwardEdges [e.2] (s.cores.entries.length + 1)).contains e.1

/-- The endpoint that a 16-byte entry describes. -/
def entryEndpoint (b : Bytes) (gen : Nat) (forward : Bool) : Endpoint :=
  let kind := byteField b 0 1
  { kind := kind, flag := byteField b 1 1, sender := byteField b 2 1, credits := byteField b 3 1, queue := byteField b 4 4, gen := gen,
    credit := if forward && (decide (kind = 1) || decide (kind = 2)) then byteField b 3 1 else 0, reserved := 0, accepted := 0,
    left := false, notice := 0 }

/-- The generation that an entry binds for (R174): the remote generation that an entry does not name is not known here, and is open. -/
def State.entryGen (s : State) (b : Bytes) : Nat × State :=
  if byteField b 8 2 ≠ 0xFFFF then (byteField b 8 2, s)
  else if s.ownQueue (byteField b 4 4) then ((s.queue (nameQueue (byteField b 4 4))).gen, s)
  else
    let (v, t) := s.free
    (v % 65535, t)

/-- Whether an entry's bytes lie in their ranges whatever the queue (Table 8.4). -/
def entryShape (b : Bytes) : Bool :=
  decide (byteField b 0 1 ≤ 3) && decide (field (byteField b 1 1) 4 3 = 0) && zeroBytes b 10 16

/-- The status of the checks 2 to 7 of R175 for a new binding, in a state in which the bindings that end are gone; the last component
counts bindings that CH_CYCLE_OVERRIDE lets pass, by the sender's Bent (R190). -/
def State.entryCheck (s : State) (c : Nat) (b : Bytes) : Nat × List Nat :=
  let kind := byteField b 0 1
  let name := byteField b 4 4
  let q := nameQueue name
  let w := s.qword q
  let v := s.queue q
  let gen := byteField b 8 2
  let credits := byteField b 3 1
  let sender := byteField b 2 1
  let live := (s.bindingsOf q).filter (fun x => decide (s.bindStatus x.2.2 = 0))
  let no := fun (st : Nat) => (st, ([] : List Nat))
  if !entryShape b then no stRange
  else if kind = 0 then no stOk
  else if !(s.ownQueue name) then
    (if kind = 3 then no stRange
     else
       match s.relayTo (namePkg name) with
       | none => no stRange
       | some r => if credits ≠ 0 ∧ s.rd (O.relayDirection r) ≠ 0 then no stCycle else no stOk)
  else if 48 ≤ field name 8 6 ∨ field name 6 2 ≠ 0 ∨ field name 14 2 ≠ 0 ∨ field name 30 2 ≠ 0 ∨ v.state = 0 then no stRange
  else if gen ≠ 0xFFFF ∧ gen ≠ v.gen then no stStale
  else if v.state = 2 then no stClosed
  else
    let fits := if kind = 1 then decide (qKind w ≠ 1) else if kind = 2 then decide (qKind w = 1) else true
    let readers := (live.filter (fun x => decide (x.2.2.kind = 3))).length
    let readerOk :=
      if kind ≠ 3 then true
      else if qKind w = 2 then decide (readers < qSenders w)
      else decide (c = 64 * (q / 64) + qReader w) && decide (readers = 0)
    let second := decide (kind = 1) && decide (qKind w = 2) && live.any (fun x => decide (x.2.2.kind = 1))
    if !fits || !readerOk || second then no stRange
    else
      let senders := live.filter (fun x => decide (x.2.2.kind ≠ 3))
      let indexOk := if kind = 3 then decide (sender = 0)
        else decide (sender < qSenders w) && !(senders.any (fun x => decide (x.2.2.sender = sender)))
      let given := (senders.map (fun x => if x.2.2.kind = 1 then x.2.2.credits else 0)).sum
      let creditOk :=
        if kind = 3 ∨ qReturn w then decide (credits = 0)
        else if kind = 1 then decide (1 ≤ credits) && decide (given + credits ≤ qDepth w)
        else decide (1 ≤ credits) && decide (credits ≤ qDepth w)
      if !indexOk || !creditOk then no stRange
      else
        let e := entryEndpoint b v.gen (!(qReturn w))
        let bad := (s.newEdges c e).filter s.edgeRefused
        if bad.isEmpty then no stOk
        else if bad.all (fun x => decide (s.rd (O.chCycleOverride (x.1 / 64)) = 1)) then (stOk, [((bad.headD (0, 0)).1) / 64])
        else no stCycle

/-- Check the changed entries of a table in order (R175): the status of the lowest that fails, and the overrides. -/
def State.tableCheck (s : State) (c : Nat) (issued : List Nat) : List (Nat × Bytes) → Nat × List Nat
  | [] => (stOk, [])
  | (e, b) :: r =>
    if issued.contains e then (stState, [])
    else
      let (st, o) := s.entryCheck c b
      if st ≠ stOk then (st, [])
      else
        let name := byteField b 4 4
        let g := if byteField b 8 2 = 0xFFFF then (s.queue (nameQueue name)).gen else byteField b 8 2
        let fwd := !(s.ownQueue name && qReturn (s.qword (nameQueue name)))
        let t := if byteField b 0 1 = 0 then s else s.modCore c (fun k => k.setEndp e (entryEndpoint b g fwd))
        let (st', o') := State.tableCheck t c issued r
        (st', o ++ o')

/-- Make the binding of an entry: with credit it is an event of the endpoint (R179, R180). -/
def State.bindEntry (s : State) (c e : Nat) (b : Bytes) : State :=
  if byteField b 0 1 = 0 then s
  else
    let name := byteField b 4 4
    let fwd := !(s.ownQueue name && qReturn (s.qword (nameQueue name)))
    let (g, t) := s.entryGen b
    let n := entryEndpoint b g fwd
    let t := t.modCore c (fun k => k.setEndp e n)
    if 0 < n.credit then t.notify c e else t

/-- Apply an endpoint table of 256 bytes to a core, or answer the status of the lowest failing entry (R175). -/
def State.writeTable (s : State) (c : Nat) (bs : Bytes) : Nat × State :=
  let k := s.core c
  let entry := fun (e : Nat) => (bs.drop (16 * e)).take 16
  let changed := (natsFrom 0 16).filter (fun e => decide ((entry e).take 10 ≠ (s.endpointBytes (k.endp e)).take 10))
  let issued := (k.inflight.filter (fun i => decide (opUnit (dOp i.desc) = 4))).map (fun i => chEp i.desc)
  let bare := s.modCore c (fun k => changed.foldl (fun k e => k.setEndp e Endpoint.none) k)
  let (st, raised) := bare.tableCheck c issued (changed.map (fun e => (e, entry e)))
  if st ≠ stOk then (st, s)
  else
    let t := State.each (fun t e => t.endBinding c e) s changed
    let t := State.each (fun (t : State) e => t.bindEntry c e (entry e)) t changed
    (stOk, (State.each (fun t b => t.add (O.chCycleOverridden b) 1) t raised).rearmWait c)

end Sys2Proof.Machine
end

