-- ==== Sys2Proof/Machine/Lanes.lean ====
section
/-! DEFINITION. Lane ends (R207-R212): page counts, credit and reservations, a reader's page ring, and the Lane controls. -/

namespace Sys2Proof.Machine

/-- Count bytes that ride a Relay link (Table 9.15; log entry 21, DEDUCED). -/
def State.relaySent (s : State) (r n : Nat) : State := if r < 32 then s.add (O.relayBytesSent r) n else s

/-- Count bytes that arrived on a Relay link. -/
def State.relayGot (s : State) (r n : Nat) : State := if r < 32 then s.add (O.relayBytesReceived r) n else s

/-- A Lane end. -/
def State.lane (s : State) (n : Nat) : LaneEnd := s.lanes.get LaneEnd.unused n

/-- The state with a Lane end replaced. -/
def State.setLane (s : State) (n : Nat) (v : LaneEnd) : State := { s with lanes := s.lanes.set LaneEnd.unused n v }

/-- The state with a Lane end changed. -/
def State.modLane (s : State) (n : Nat) (f : LaneEnd → LaneEnd) : State := s.setLane n (f (s.lane n))

/-- LANE_STATE: 0 UNUSED, 1 OPEN, 2 CLOSED. -/
def State.laneOpen (s : State) (n : Nat) : Bool := decide (s.rd (O.laneState n) = 1)

/-- Slice tokens ⌈T / SEQ_SHARE⌉ of a slot (R209). -/
def State.sliceTokens (s : State) (i t : Nat) : Nat := (t + s.rd (O.seqShare i) - 1) / s.rd (O.seqShare i)

/-- p(T, b) of R209, with SEQ_SHARE of a slot. -/
def State.pagesFor (s : State) (i t b : Nat) : Nat := (s.sliceTokens i t * b + pageSize - 1) / pageSize

/-- Whether a Lane end is a reader end. -/
def State.laneReads (s : State) (n : Nat) : Bool := decide (s.rd (O.laneRole n) = 1)
/-- Whether a Lane belongs to the return plane. -/
def State.laneReturn (s : State) (n : Nat) : Bool := decide (s.rd (O.lanePlane n) = 1)
/-- Whether the peer end lies on this package. -/
def State.laneLocal (s : State) (n : Nat) : Bool := decide (s.rd (O.laneRelay n) = 0xFF)
/-- The package of a remote peer end. -/
def State.lanePackage (s : State) (n : Nat) : Nat := s.rd (O.relayRemote (s.rd (O.laneRelay n)))

/-- The die of a slot's lead Bent (R232). -/
def State.slotHome (s : State) (i : Nat) : Nat := s.rd (O.firstBent i) / 12

/-- Pages that a reader's Lane end holds. -/
def LaneEnd.pagesHeld (e : LaneEnd) : Nat := (e.held.map Parcel.pages).sum

/-- The first tensor page of a new reader's Lane window: below those of the slot's other open Lanes, from the end of the lower half
of the slot's Pacer window downward; a window is twice the ring, so that a micro-batch always finds consecutive pages
(R202, R234, log entry 16, DESIGN CHOICE). -/
def State.laneBase (s : State) (n : Nat) : Nat :=
  let i := s.rd (O.laneStage n)
  let open_ := (natsFrom 0 64).filter (fun m =>
    decide (m ≠ n) && decide (s.rd (O.laneState m) ≠ 0) && s.laneReads m && decide (s.rd (O.laneStage m) = i))
  (open_.map (fun m => (s.lane m).base)).foldl min (slotPage i + 0x800000) - 2 * s.rd (O.lanePages n)

/-- The checks of OPEN (R208): none when all pass. -/
def State.laneRefused (s : State) (n : Nat) : Bool :=
  let i := s.rd (O.laneStage n)
  let own := s.rd (O.jobStage i)
  let up := decide (s.rd (O.lanePeerStage n) = own + 1)
  let down := decide (s.rd (O.lanePeerStage n) + 1 = own)
  decide (s.rd (O.lanePages n) < s.pagesFor i (s.rd (O.laneMaxTokens n)) (s.rd (O.laneTokenBytes n)))
    || (s.laneReturn n && (decide (s.rd (O.laneDepth n) ≠ s.rd O.retLaneDepth) || decide (s.rd (O.lanePages n) ≠ s.rd O.retLanePages)
        || decide (s.rd (O.laneTokenBytes n) ≠ s.rd O.retTokenBytes)))
    || !(if s.laneReads n = s.laneReturn n then up else down)

/-- The tensor pages of a reader's Lane window. -/
def State.laneWindow (s : State) (n : Nat) : List Nat := natsFrom (s.lane n).base (2 * s.rd (O.lanePages n))

/-- Whether a tensor page belongs to a micro-batch that a Lane end holds. -/
def LaneEnd.holds (e : LaneEnd) (p : Nat) : Bool := e.held.any (fun h => decide (h.page ≤ p) && decide (p < h.page + h.pages))

/-- The frames of a Lane's ring that hold no micro-batch, ascending. -/
def State.ringFree (s : State) (n : Nat) : List Nat :=
  let used := (s.lane n).held.flatMap (fun p => s.pageFramesOf p.page p.pages)
  ((s.frames.entries.filter (fun e => decide (e.2.owner = ownLane n) && decide (e.2.use = 1))).map Prod.fst).filter
    (fun f => !used.contains f)

/-- The ring's pages stay mapped from OPEN to DELETE (Table 10.1): those that hold no micro-batch lie on the lowest pages of the window that none
holds (log entry 16, DESIGN CHOICE). -/
def State.layRing (s : State) (n : Nat) : State :=
  let open_ := (s.laneWindow n).filter (fun p => !(s.lane n).holds p)
  let idle := s.ringFree n
  let t := State.each (fun (t : State) (p : Nat) => t.setPage p Page.none) s open_
  State.each (fun (t : State) (x : Nat × Nat) => t.setPage x.1 ⟨4, x.2⟩) t (open_.zip idle)

/-- LANE_OPEN takes effect at this end: the generation moves, a forward sender holds its credit, a reader takes its page ring
(R207, R210). None when frames are short. -/
def State.startLane (s : State) (n : Nat) : Option State :=
  let gen := nextGen (s.rd (O.laneGen n))
  let pages := s.rd (O.lanePages n)
  let t := s.wrAll [(O.laneState n, 1), (O.laneGen n, gen)]
  if s.laneReads n then
    (if s.framesOpen < pages then none
     else (t.takeFrames (s.slotHome (s.rd (O.laneStage n))) 1 (ownLane n) 0 pages).map
       (fun p => (p.2.setLane n { LaneEnd.unused with base := s.laneBase n }).layRing n))
  else if s.laneReturn n then some (t.setLane n LaneEnd.unused)
  else some (t.setLane n { LaneEnd.unused with credit := s.rd (O.laneDepth n), pages := pages })

/-- The five fields that both ends must hold equal (R208). -/
def State.laneShape (s : State) (n : Nat) : List Nat :=
  [s.rd (O.laneDepth n), s.rd (O.lanePlane n), s.rd (O.lanePages n), s.rd (O.laneMaxTokens n), s.rd (O.laneTokenBytes n)]

/-- A sender's end whose binding is stale: its credit is gone (R193). -/
def LaneEnd.stale (e : LaneEnd) : LaneEnd := { e with status := 0x22, credit := 0, pages := 0, away := 0, awayPages := 0 }

/-- The peer's sender binding learns that a reader's end closed or moved its generation (R193): at once on this package, by a
notice otherwise. -/
def State.tellSender (s : State) (n status : Nat) : State :=
  let m := s.rd (O.lanePeerLane n)
  if !s.laneReads n then s
  else if s.laneLocal n then
    (if s.rd (O.laneState m) = 0 then s
     else s.modLane m (fun e => if status = 0x22 then e.stale else { e with status := status }))
  else s.emit (.laneNotice (s.lanePackage n) m (s.rd (O.laneGen n)) (decide (status = 0x23)))

/-- Micro-batch credit and page credit go back to the sender of a Lane (R210). The return plane holds no standing credit: what comes back to another
package frees room for the reservations of its sender (R211; log entry 66, DEDUCED). -/
def State.laneCreditBack (s : State) (n : Nat) (p : Parcel) : State :=
  let m := s.rd (O.lanePeerLane n)
  if s.laneLocal n then
    (if s.laneReturn n then s
     else if s.rd (O.laneGen m) = p.gen ∧ (s.lane m).status ≠ 0x22 ∧ s.rd (O.laneState m) ≠ 0 then
      s.modLane m (fun e => { e with credit := e.credit + 1, pages := e.pages + p.pages })
     else s)
  else s.emit (.laneCredit (s.lanePackage n) m 1 p.pages)

/-- The pages of parcels that have left a Lane end are free in its ring again. -/
def State.freeParcels (s : State) (n : Nat) (ps : List Parcel) : State :=
  let clear := fun (t : State) (f : Nat) => (t.setFrame f { HFrame.free with use := 1, owner := ownLane n }).dropResident f 255
  (State.each (fun (t : State) (p : Parcel) => t.unmapPages clear p.page p.pages) s ps).layRing n

/-- A micro-batch that has arrived is discarded and counted in LANE_DROPPED; its credit returns. -/
def State.dropBaton (s : State) (n : Nat) (p : Parcel) : State := (s.add (O.laneDropped n) 1).laneCreditBack n p

/-- The parcel of a micro-batch leaves a reader's Lane end: its pages are free again and its credit returns (R210). -/
def State.consume (s : State) (n id : Nat) : State :=
  match (s.lane n).held.find? (fun p => decide (p.id = id)) with
  | none => s
  | some p =>
    ((s.modLane n (fun e => { e with held := e.held.filter (fun q => decide (q ≠ p)) })).freeParcels n [p]).laneCreditBack n p

/-- Land a micro-batch's pages in a reader's ring at consecutive tensor pages (R212): none when the ring has no room. -/
def State.landParcel (s : State) (n id gen : Nat) (contents : List (Map Byte)) : Option State :=
  let e := s.lane n
  let k := contents.length
  let ring := 2 * s.rd (O.lanePages n)
  let fs := (s.ringFree n).take k
  if s.rd (O.laneDepth n) ≤ e.held.length ∨ fs.length < k then none
  else
    let at_ := if e.pos + k ≤ ring then e.pos else 0
    let t := s.mapPages (e.base + at_) 4 fs
    let t := State.each (fun (t : State) (x : Nat × Map Byte) =>
        (t.setFrame x.1 { HFrame.free with use := 1, owner := ownLane n, bytes := x.2 }).frameWritten x.1)
      t (fs.zip contents)
    some ((t.setLane n { e with held := e.held ++ [⟨id, e.base + at_, k, gen⟩], pos := at_ + k }).layRing n)

/-- Discard what a Lane end holds, counted in LANE_DROPPED. -/
def State.dropHeld (s : State) (n : Nat) : State :=
  let e := s.lane n
  ((s.setLane n { e with held := [], early := [] }).freeParcels n e.held).add (O.laneDropped n) e.held.length

/-- LANE_CLOSE as Table 8.3 closes a queue. -/
def State.closeLane (s : State) (n : Nat) : State := (s.wr (O.laneState n) 2).tellSender n 0x23

/-- LANE_REOPEN: the generation moves, the contents are discarded; a sender's end holds new credit. -/
def State.reopenLane (s : State) (n : Nat) : State :=
  let t := ((s.dropHeld n).wrAll [(O.laneState n, 1), (O.laneGen n, nextGen (s.rd (O.laneGen n)))]).tellSender n 0x22
  let credit := !s.laneReads n && !s.laneReturn n
  t.modLane n (fun e => { e with status := 0, cut := false, away := 0, awayPages := 0, credit := if credit then s.rd (O.laneDepth n) else 0,
                                 pages := if credit then s.rd (O.lanePages n) else 0 })

/-- LANE_DELETE: UNUSED, the generation moves, the page ring goes back to the allocator (Table 10.1). -/
def State.deleteLane (s : State) (n : Nat) : State :=
  let t := ((s.dropHeld n).wrAll [(O.laneState n, 0), (O.laneGen n, nextGen (s.rd (O.laneGen n)))]).tellSender n 0x22
  let t := if s.laneReads n then State.each (fun (t : State) (p : Nat) => t.setPage p Page.none) t (s.laneWindow n) else t
  (t.freeOwner (ownLane n)).setLane n LaneEnd.unused

end Sys2Proof.Machine
end

