-- ==== Sys2Proof/Machine/Versions.lean ====
section
/-! DEFINITION. The version store (R240-R245): adopting a slot's windows, starting, pinning, committing and discarding versions,
and the learning rate's switch (R250). -/

namespace Sys2Proof.Machine

/-- Version states of Table 10.4. -/
def verPending : Nat := 1
/-- CURRENT. -/
def verCurrent : Nat := 2
/-- RETIRED. -/
def verRetired : Nat := 3

/-- The current version of a slot. -/
def Slot.current (v : Slot) : Option Version := v.versions.find? (fun x => decide (x.state = verCurrent))
/-- The pending version of a slot. -/
def Slot.pending (v : Slot) : Option Version := v.versions.find? (fun x => decide (x.state = verPending))
/-- The number of the current version. -/
def Slot.currentNumber (v : Slot) : Nat := v.current.elim 0 Version.number

/-- Change the version of a slot with a number. -/
def State.modVersion (s : State) (i n : Nat) (f : Version → Version) : State :=
  s.modSlot i (fun v => { v with versions := v.versions.map (fun x => if x.number = n then f x else x) })

/-- Frames go back to a slot's reserved versions. -/
def State.returnAll (s : State) (i : Nat) (fs : List Nat) : State := State.each (fun t f => t.returnFrame f (ownVersions i)) s fs

/-- A RETIRED version with no pins becomes FREE and its weight-window frames return (R243). -/
def State.reapVersions (s : State) (i : Nat) : State :=
  let dead := (s.slot i).versions.filter (fun x => decide (x.state = verRetired) && decide (x.pins = 0))
  let t := s.modSlot i (fun v => { v with versions := v.versions.filter (fun x => !(decide (x.state = verRetired) && decide (x.pins = 0))) })
  State.each (fun t x => t.returnAll i x.weights) t dead

/-- A micro-batch pins a version (R243). -/
def State.pin (s : State) (i n : Nat) : State := s.modVersion i n (fun x => { x with pins := x.pins + 1 })

/-- A pin is released (R243). -/
def State.unpin (s : State) (i n : Nat) : State := (s.modVersion i n (fun x => { x with pins := x.pins - 1 })).reapVersions i

/-- Frames that ARM reserves for a slot's versions: further copies of the weight window and one of the optimizer window (R241). -/
def State.versionReserve (s : State) (i : Nat) : Nat :=
  (s.rd (O.vsReservedVersions i) - 1) * s.rd (O.weightPages i) + s.rd (O.optPages i)

/-- Whether every page of both windows of a slot is mapped (R240). -/
def State.windowsMapped (s : State) (i : Nat) : Bool :=
  (natsFrom (s.weightPage i) (s.rd (O.weightPages i))).all s.mapped && (natsFrom (s.optPage i) (s.rd (O.optPages i))).all s.mapped

/-- ARM adopts the mapped frames as the current version (R241). -/
def State.adopt (s : State) (i : Nat) : State :=
  s.modSlot i (fun v => { v with
    versions := [{ number := s.rd (O.vsInitialVersion i), state := verCurrent, pins := 0,
                   weights := s.pageFramesOf (s.weightPage i) (s.rd (O.weightPages i)),
                   opt := s.pageFramesOf (s.optPage i) (s.rd (O.optPages i)) }] })

/-- Give up a slot's reserved versions (R233): the current version's frames stay mapped and belong to no reservation. -/
def State.releaseVersions (s : State) (i : Nat) : State :=
  let keep := (s.slot i).current.elim [] (fun x => x.weights ++ x.opt)
  let t := State.each (fun (t : State) (f : Nat) => t.setFrame f { t.frame f with owner := 0 }) s keep
  (t.freeOwner (ownVersions i)).modSlot i (fun v => { v with versions := [] })

/-- Copy the content of frames onto others, one by one, with what is poisoned (R407, R412). -/
def State.copyFrames (s : State) : List Nat → List Nat → State
  | a :: as, b :: bs => State.copyFrames ((s.setFrame b { s.frame b with bytes := (s.frame a).bytes, poison := (s.frame a).poison }).frameWritten b) as bs
  | _, _ => s

/-- Start the pending version of a slot, unless it has one (R242, R245): it waits, and is counted, while the slot holds all the
versions it may. The new frames begin with the current version's bytes (log entry 17, DEDUCED). -/
def State.startPending (s : State) (i : Nat) : Option State :=
  let v := s.slot i
  if v.pending.isSome then some s
  else if s.rd (O.vsReservedVersions i) ≤ v.versions.length then none
  else
    let (w, t) := s.drawFrames (ownVersions i) (s.slotHome i) (s.rd (O.weightPages i)) (ownVersions i)
    let (o, t) := t.drawFrames (ownVersions i) (s.slotHome i) (s.rd (O.optPages i)) (ownVersions i)
    let cur := v.current
    let t := (t.copyFrames (cur.elim [] Version.weights) w).copyFrames (cur.elim [] Version.opt) o
    some (t.modSlot i (fun v => { v with versions := v.versions ++
      [{ number := (v.currentNumber + 1) % 256, state := verPending, pins := 0, weights := w, opt := o }] }))

/-- The windows' pages show the current version (R240). -/
def State.showCurrent (s : State) (i : Nat) : State :=
  match (s.slot i).current with
  | none => s
  | some x => (s.mapPages (s.weightPage i) 1 x.weights).mapPages (s.optPage i) 2 x.opt

/-- COMMIT at a slot (R244, R248): the pending version is CURRENT, the former one RETIRED, its optimizer frames return; the powers
of the updated layers advance. -/
def State.commitVersion (s : State) (i : Nat) : State :=
  let old := (s.slot i).current
  let t := s.modSlot i (fun v =>
    { v with versions := v.versions.map (fun x =>
               if x.state = verCurrent then { x with state := verRetired, opt := [] }
               else if x.state = verPending then { x with state := verCurrent } else x),
             powers := v.newPowers.entries.foldl (fun m p => m.set 0x3F800000 p.1 p.2) v.powers,
             newPowers := Map.empty, layers := [], watch := [], gaveUp := [] })
  let t := t.showCurrent i
  (t.returnAll i (old.elim [] Version.opt)).reapVersions i

/-- ABORT at a slot (R244): the pending version becomes FREE and its frames return. -/
def State.abortVersion (s : State) (i : Nat) : State :=
  let p := (s.slot i).pending
  let t := s.modSlot i (fun v => { v with versions := v.versions.filter (fun x => decide (x.state ≠ verPending)),
                                          newPowers := Map.empty, layers := [], watch := [], gaveUp := [] })
  t.returnAll i (p.elim [] (fun x => x.weights ++ x.opt))

/-- The learning rate of a step (R250). -/
def State.lrGlobal (s : State) (step : Nat) : Nat := if step < s.rd O.optLrStep then s.rd O.optLr else s.rd O.optLrNext

end Sys2Proof.Machine
end

