-- ==== Sys2Proof/Machine/Pacer.lean ====
section
/-! DEFINITION. A stage slot's pages and micro-batches (R202, R209, R215, R221), the ledger, and what ABORTED does to a slot
(R173, R227). -/

namespace Sys2Proof.Machine

/-- The Bents of a slot (R198). -/
def State.slotBents (s : State) (i : Nat) : List Nat := natsFrom (s.rd (O.firstBent i)) (s.rd (O.bentCount i))

/-- The cores of a slot. -/
def State.slotCores (s : State) (i : Nat) : List Nat := natsFrom (64 * s.rd (O.firstBent i)) (64 * s.rd (O.bentCount i))

/-- JOB_STAGE. -/
def State.jobStageOf (s : State) (i : Nat) : Nat := s.rd (O.jobStage i)

/-- Whether a slot serves the last job stage. -/
def State.lastStage (s : State) (i : Nat) : Bool := decide (s.jobStageOf i + 1 = s.rd (O.jobStages i))

/-- Pages of a micro-batch on the slot's F output Lane: 0 without one (R222). -/
def State.outPages (s : State) (i t : Nat) : Nat :=
  if s.rd (O.outLane i) = 0xFF then 0 else s.pagesFor i t (s.rd (O.laneTokenBytes (s.rd (O.outLane i))))

/-- Pages of a micro-batch on the slot's B output Lane: 0 without one (R222). -/
def State.backPages (s : State) (i t : Nat) : Nat := if s.rd (O.retOutLane i) = 0xFF then 0 else s.pagesFor i t (s.rd O.retTokenBytes)

/-- Stash pages of a micro-batch (R221). -/
def State.stashPages (s : State) (i t : Nat) : Nat := s.pagesFor i t (s.rd (O.stashBytesPerToken i))

/-- Micro-batches that hold stash at most (R222). -/
def State.stashHolders (s : State) (i : Nat) : Nat := s.rd (O.inFlightMax i) + s.rd (O.wPendingMax i)

/-- The worst-case footprint of a slot (R222). -/
def State.stashWorst (s : State) (i : Nat) : Nat :=
  let t := s.rd O.pipeMaxTokens
  s.stashHolders i * s.stashPages i t + 2 * (s.outPages i t + s.backPages i t)

/-- First page of a micro-batch's stash (R202, R234; log entry 16, DESIGN CHOICE). -/
def State.stashAt (s : State) (i mb : Nat) : Nat :=
  slotPage i + (mb % max 1 (s.stashHolders i)) * s.stashPages i (s.rd O.pipeMaxTokens)

/-- First page of a micro-batch's F output staging. -/
def State.outAt (s : State) (i mb : Nat) : Nat :=
  slotPage i + s.stashHolders i * s.stashPages i (s.rd O.pipeMaxTokens) + (mb % 2) * s.outPages i (s.rd O.pipeMaxTokens)

/-- First page of a micro-batch's B output staging. -/
def State.backAt (s : State) (i mb : Nat) : Nat :=
  let t := s.rd O.pipeMaxTokens
  slotPage i + s.stashHolders i * s.stashPages i t + 2 * s.outPages i t + (mb % 2) * s.backPages i t

/-- Map pages of a slot's allotment at an address (R221, R233). -/
def State.mapAllotted (s : State) (i p n pool : Nat) : State :=
  let (fs, t) := s.drawFrames (ownStash i) (s.slotHome i) n (ownStash i)
  t.mapPages p pool fs

/-- Unmap pages of a slot's allotment; the frames return to it. -/
def State.unmapAllotted (s : State) (i p n : Nat) : State := s.unmapPages (fun t f => t.returnFrame f (ownStash i)) p n

/-- Fields of a Baton (Table 9.5). -/
def batonStep (b : Bytes) : Nat := byteField b 4 4
/-- VERSION. -/
def batonVersion (b : Bytes) : Nat := byteField b 8 1
/-- TOKENS. -/
def batonTokens (b : Bytes) : Nat := byteField b 12 4
/-- MICRO_BATCH. -/
def batonId (b : Bytes) : Nat := byteField b 2 2 % 4096

/-- The 64 bytes of a Baton (Table 9.5). -/
def batonBytes (dir id step version flags epoch tokens stage replica slice pages samples position dataEpoch : Nat) : Bytes :=
  let b := natLe 1 1 ++ natLe 1 dir ++ natLe 2 id ++ natLe 4 step ++ natLe 1 version ++ natLe 1 flags ++ natLe 2 epoch ++ natLe 4 tokens
    ++ natLe 2 stage ++ natLe 2 replica ++ natLe 1 slice ++ natLe 3 0 ++ natLe 4 pages ++ natLe 4 samples ++ natLe 8 position
    ++ natLe 4 dataEpoch ++ natLe 16 0
  b ++ natLe 4 (crc32c b).toNat

/-- A Baton with another DIR, FROM_STAGE and PAGES (R213). -/
def batonOut (b : Bytes) (dir stage pages : Nat) : Bytes :=
  batonBytes dir (byteField b 2 2) (batonStep b) (batonVersion b) (byteField b 9 1) (byteField b 10 2) (batonTokens b) stage
    (byteField b 18 2) (byteField b 20 1) pages (byteField b 28 4) (byteField b 32 8) (byteField b 40 4)

/-- A micro-batch of a slot. -/
def Slot.micro? (v : Slot) (id : Nat) : Option Micro := v.mbs.find? (fun m => decide (m.id = id))

/-- Change a micro-batch of a slot. -/
def State.modMicro (s : State) (i id : Nat) (f : Micro → Micro) : State :=
  s.modSlot i (fun v => { v with mbs := v.mbs.map (fun m => if m.id = id then f m else m) })

/-- Micro-batches in flight at a slot: from the dispatch of F to the completion of B (R217). -/
def Slot.inFlight (v : Slot) : Nat := (v.mbs.filter (fun m => decide (1 ≤ m.f) && decide (m.b ≠ 3))).length

/-- Pending Ws (R217). -/
def Slot.pendingW (v : Slot) : List Micro := v.mbs.filter (fun m => decide (m.w = 1))

/-- A reservation on a return Lane's sender end is released (R211). -/
def State.unreserve (s : State) (n pages : Nat) : State :=
  s.modLane n (fun e => { e with credit := e.credit - 1, pages := e.pages - pages })

/-- Discard a micro-batch of a slot (R227): stash, staging and Lane pages return, its pin is released. -/
def State.discardMicro (s : State) (i : Nat) (m : Micro) : State :=
  let t := batonTokens m.baton
  let u := s.unmapAllotted i (s.stashAt i m.id) (s.stashPages i t)
  let u := if m.f ≠ 0 ∧ m.fSent = false then u.unmapAllotted i (s.outAt i m.id) (s.outPages i t) else u
  let u := if 2 ≤ m.b ∧ m.bSent = false then u.unmapAllotted i (s.backAt i m.id) (s.backPages i t) else u
  let u := if s.rd (O.inLane i) = 0xFF then u else u.consume (s.rd (O.inLane i)) m.id
  let u := if s.rd (O.retInLane i) = 0xFF then u else u.consume (s.rd (O.retInLane i)) m.id
  if m.w = 3 then u else u.unpin i (batonVersion m.baton)

/-- Credit the whole ledger of a JOB_STAGE 0 slot (R215). -/
def State.fillLedger (s : State) (i : Nat) : State :=
  if s.jobStageOf i = 0 then s.wrAll [(O.ledgerSlots i, s.rd O.retLaneDepth), (O.ledgerPages i, s.rd O.retLanePages)] else s

/-- The schedule starts anew at entry 1 with nothing dispatched (R216). -/
def State.restartSchedule (s : State) (i : Nat) : State :=
  s.modSlot i (fun v => { v with ptr := 1, cnt := 0, mbs := [], item := none, fOut := 0, bOut := 0, admitted := 0, starve := none,
                                 stepDone := false })

/-- Every ring area of a slot is unwritten and unlanded (R313). -/
def State.clearRings (s : State) (i : Nat) : State := s.modSlot i (fun v => { v with landed := [], sent := [] })

/-- The endpoint table that binds a core anew after its slot's RESET: stale entries that name a queue of a Bent of the slot ask for that queue's
new generation, the others stand as they are (R173). -/
def State.rebindTable (s : State) (bents : List Nat) (c : Nat) : Bytes :=
  (natsFrom 0 16).flatMap (fun x =>
    let e := (s.core c).endp x
    let anew := decide (s.bindStatus e = 0x22) && s.ownQueue e.queue && bents.contains (nameQueue e.queue / 64)
    (s.endpointBytes (if anew then { e with gen := 0xFFFF } else e)).take 10 ++ List.replicate 6 0#8)

/-- Rebind, for the new generations, every endpoint of a slot's cores whose binding named a queue of a Bent of the slot, by one endpoint table
write per core (R173, R175). -/
def State.rebindSlot (s : State) (i : Nat) : State :=
  State.each (fun (t : State) (c : Nat) => (t.writeTable c (t.rebindTable (t.slotBents i) c)).2) s (s.slotCores i)

/-- The micro-batches that a slot's ABORT discards, latest first. -/
def State.discardAll (s : State) (i : Nat) : State := State.each (fun t m => t.discardMicro i m) s (s.slot i).mbs.reverse

/-- ABORTED at a slot (R227): cores reset, the step's Batons and pages discarded, the ledger credited and the reservations released,
STAGE_FAULT cleared, RUNNING again unless it has been stopped or the package drains. -/
def State.abortSlot (s : State) (i : Nat) : State :=
  let t := State.each (fun t c => if (t.core c).state = .off then t else t.resetCore c) s (s.slotCores i)
  let t := (t.discardAll i).rebindSlot i
  let t := if s.rd (O.retOutLane i) = 0xFF then t else t.modLane (s.rd (O.retOutLane i)) (fun e => { e with credit := 0, pages := 0 })
  let t := (((t.fillLedger i).restartSchedule i).clearRings i).wr (O.stageFault i) 0
  let st := s.stage i
  let stopped := t.modSlot i (fun v => { v with stopDue := none })
  if st = 5 then
    (if (s.slot i).stopDue.isNone ∧ s.rd O.drainState = 0 then t.wr (O.stageState i) 2 else stopped.wr (O.stageState i) 4)
  else if st = 3 then stopped.wr (O.stageState i) 4
  else if st = 2 ∧ s.rd O.drainState ≠ 0 then t.wr (O.stageState i) 4
  else t

/-- A slot whose STOP is requested is STOPPED once no work item runs (Table 9.2). -/
def State.settleStop (s : State) (i : Nat) : State :=
  if s.stage i = 3 ∧ (s.slot i).item.isNone then (s.modSlot i (fun v => { v with stopDue := none })).wr (O.stageState i) 4 else s

/-- A STOP of a slot (Table 9.2). -/
def State.stopSlot (s : State) (i : Nat) : State := 
  ((s.modSlot i (fun v => { v with stopDue := some (s.now + s.level6) })).wr (O.stageState i) 3).settleStop i

end Sys2Proof.Machine
end

