-- ==== Sys2Proof/Machine/Reduction.lean ====
section
/-! DEFINITION. The reduction layout (R262-R265, R273, R289-R293): groups, bucket tables, shards and channels in either bank,
activating a group, the opening and the end of an attempt, and the switch of the layout. -/

namespace Sys2Proof.Machine

/-- An object of the current bank (0) or of the next bank (1), at the index plus 0x0400 (R289). -/
def inBank (bank k : Nat) : Nat := k + bank * 0x40000

/-- Layers of a slot's layer table that are in use (Table 10.5). -/
def State.layerEntry (s : State) (i l : Nat) : Bytes := (s.dom (O.optLayers i)).bytes 0#8 (32 * l) 32

/-- The used layers of a slot. -/
def State.usedLayers (s : State) (i : Nat) : List Nat := (natsFrom 0 128).filter (fun l => decide (byteField (s.layerEntry i l) 0 4 ≠ 0))

/-- A group's D in a bank. -/
def State.rgD (s : State) (bank i : Nat) : Nat := s.rd (inBank bank (O.rgMembers i))
/-- A group's m in a bank. -/
def State.rgM (s : State) (bank i : Nat) : Nat := s.rd (inBank bank (O.rgIndex i))

/-- An entry of a bucket table (Table 11.1). -/
def State.bucketEntry (s : State) (bank i b : Nat) : Bytes := (s.dom (inBank bank (O.bucketTable i))).bytes 0#8 (16 * b) 16
/-- First page of a bucket. -/
def bePage (e : Bytes) : Nat := byteField e 0 8 / pageSize
/-- Pages of a bucket (R263). -/
def bePages (e : Bytes) : Nat := if byteField e 8 4 = 0 then 512 else byteField e 8 4
/-- BUCKET_CHANNEL. -/
def beChannel (e : Bytes) : Nat := byteField e 12 1
/-- BUCKET_BENT. -/
def beBent (e : Bytes) : Nat := byteField e 13 1
/-- Row length c of the low-rank view. -/
def beCols (e : Bytes) : Nat := 32 * byteField e 14 1
/-- USED. -/
def beUsed (e : Bytes) : Bool := decide (byteField e 15 1 % 2 = 1)

/-- The used buckets of a slot, ascending. -/
def State.usedBuckets (s : State) (bank i : Nat) : List Nat := (natsFrom 0 64).filter (fun b => beUsed (s.bucketEntry bank i b))

/-- First block of shard `j` of a bucket of `pages` pages among `d` members (R264). -/
def shardStart (pages d j : Nat) : Nat := j * (16 * pages) / d

/-- Elements of shard `j`. -/
def shardElems (pages d j : Nat) : Nat := 1024 * (shardStart pages d (j + 1) - shardStart pages d j)

/-- Whether a group is ACTIVE. -/
def State.rgActive (s : State) (i : Nat) : Bool := decide (s.rd (O.rgState i) = 1)

/-- The slots whose group is ACTIVE. -/
def State.activeGroups (s : State) : List Nat := allSlots.filter s.rgActive

/-- The channels that serve a slot, in a bank. -/
def State.channelsOf (s : State) (bank i : Nat) : List Nat :=
  (natsFrom 0 32).filter (fun c => decide (s.rd (inBank bank (O.rcSlot c)) = i))

/-- Whether an entry of a bucket table is well formed for its slot and bank (R263, R273, R278). -/
def State.entryOk (s : State) (bank i : Nat) (e : Bytes) : Bool :=
  let c := beChannel e
  decide (byteField e 0 2 = 0) && (decide (bePage e + bePages e ≤ pacerPage)) && decide (byteField e 15 1 = 1)
    && (decide (byteField e 8 4 = 0) || (decide (64 ≤ byteField e 8 4) && decide (byteField e 8 4 ≤ 2048)))
    && decide (c ≤ 31) && decide (s.rd (inBank bank (O.rcSlot c)) = i) && (s.slotBents i).contains (beBent e)
    && decide (1 ≤ byteField e 14 1) && decide (byteField e 14 1 ≤ 128)
    && (decide (s.rd (inBank bank (O.rcMode c)) ≠ 1) || decide (s.rd (inBank bank (O.rcRank c)) ≤ beCols e))

/-- Whether the pages of two entries share one. -/
def entriesMeet (a b : Bytes) : Bool :=
  decide (bePage a < bePage b + bePages b) && decide (bePage b < bePage a + bePages a)

/-- Whether a list of entries has two that share a page. -/
def anyMeet : List Bytes → Bool
  | [] => false
  | e :: r => r.any (entriesMeet e) || anyMeet r

/-- The entries of a slot's used buckets in a bank. -/
def State.usedEntries (s : State) (bank i : Nat) : List Bytes := (s.usedBuckets bank i).map (s.bucketEntry bank i)

/-- Whether a slot's layout in a bank keeps R263, R264, R273 and R278. -/
def State.layoutOk (s : State) (bank i : Nat) : Bool :=
  let used := s.usedBuckets bank i
  decide (1 ≤ s.rgD bank i) && decide (s.rgM bank i < s.rgD bank i) && decide (used = natsFrom 0 used.length)
    && (s.usedEntries bank i).all (s.entryOk bank i) && !anyMeet (s.usedEntries bank i)

/-- The member index of a slot (R262). -/
def State.memberIndex (s : State) (i : Nat) : Nat := s.rd (O.replica i) * s.rd (O.seqShare i) + s.rd (O.seqSlice i)

/-- Whether every layer of a slot lies inside one bucket of a bank (R265). -/
def State.layersInside (s : State) (bank i : Nat) : Bool :=
  (s.usedLayers i).all (fun l =>
    let e := s.layerEntry i l
    let first := 32 * byteField e 28 3
    (s.usedBuckets bank i).contains (byteField e 31 1)
      && decide (first + byteField e 0 4 ≤ 16384 * bePages (s.bucketEntry bank i (byteField e 31 1))))

/-- Whether the bucket pages of a slot in a bank are free of other mapped pages; `reuse` lets bucket pages be replaced (R292). -/
def State.bucketsFree (s : State) (bank i : Nat) (reuse : Bool) : Bool :=
  (s.usedEntries bank i).all (fun e =>
    (natsFrom (bePage e) (bePages e)).all (fun p => !s.mapped p || (reuse && decide ((s.page p).pool = 7))))

/-- Frames of thinning state and receive areas of a bucket (R276, R282; log entry 18, DESIGN CHOICE): error memory and warm-start matrices in two
copies for a thinned hop, two areas for the largest frame of a channel. -/
def State.bucketExtra (s : State) (bank i b : Nat) : Nat :=
  let e := s.bucketEntry bank i b
  let mode := s.rd (inBank bank (O.rcMode (beChannel e)))
  let d := s.rgD bank i
  let warm := if mode = 1 then (2 * d * beCols e * s.rd (inBank bank (O.rcRank (beChannel e))) * 4 + pageSize - 1) / pageSize else 0
  (if mode = 0 then 0 else 2 * bePages e) + warm

/-- The longest payload of a frame of a shard of `n` elements with rows of `c` elements: PAIR, or LOWRANK of the highest rank that R278 lets the
sender choose. -/
def longestFrame (n c : Nat) : Nat := max (8 * n) (8 + 4 * min 64 c * ((n + c - 1) / c + c))

/-- Frames of the two receive areas of each of a slot's channels (R276). -/
def State.areaFrames (s : State) (bank i : Nat) : Nat :=
  let d := s.rgD bank i
  ((s.channelsOf bank i).map (fun c =>
    let es := (s.usedEntries bank i).filter (fun e => decide (beChannel e = c))
    2 * ((es.map (fun e => (longestFrame (shardElems (bePages e) d (d - 1)) (beCols e) + pageSize - 1) / pageSize)).foldl max 0))).sum

/-- Frames a slot's layout in a bank needs. -/
def State.layoutFrames (s : State) (bank i : Nat) : Nat :=
  let used := s.usedBuckets bank i
  (used.map (fun b => bePages (s.bucketEntry bank i b) + s.bucketExtra bank i b)).sum + s.areaFrames bank i

/-- Map a slot's buckets of the current bank and reserve the rest of its frames (R300); none when frames are short. -/
def State.mapBuckets (s : State) (i : Nat) : Option State :=
  if s.framesOpen < s.layoutFrames 0 i then none
  else
    let used := s.usedBuckets 0 i
    let t := State.each (fun (t : State) (b : Nat) =>
      let e := t.bucketEntry 0 i b
      match t.takeFrames (beBent e / 12) 1 (ownBuckets i) 0 (bePages e) with
      | some (fs, u) => u.mapPages (bePage e) 7 fs
      | none => t) s used
    let extra := (used.map (s.bucketExtra 0 i)).sum + s.areaFrames 0 i
    (t.takeFrames (t.slotHome i) 2 (ownBuckets i) 0 extra).map Prod.snd

/-- Unmap a slot's buckets and release its reductions' frames (R300). -/
def State.unmapBuckets (s : State) (i : Nat) : State :=
  let t := State.each (fun (t : State) (b : Nat) =>
    let e := t.bucketEntry 0 i b
    State.each (fun (t : State) (p : Nat) => if (t.page p).pool = 7 then t.setPage p Page.none else t) t (natsFrom (bePage e) (bePages e)))
    s (s.usedBuckets 0 i)
  t.freeOwner (ownBuckets i)

/-- A bucket of a slot. -/
def State.bucket (s : State) (i b : Nat) : Bucket := s.buckets.get Bucket.idle (64 * i + b)

/-- The state with a bucket replaced. -/
def State.setBucket (s : State) (i b : Nat) (v : Bucket) : State := { s with buckets := s.buckets.set Bucket.idle (64 * i + b) v }

/-- A reduction channel. -/
def State.chan (s : State) (c : Nat) : Channel := s.chans.get Channel.idle c

/-- The state with a channel replaced. -/
def State.setChan (s : State) (c : Nat) (v : Channel) : State := { s with chans := s.chans.set Channel.idle c v }

/-- The state with a channel changed. -/
def State.modChan (s : State) (c : Nat) (f : Channel → Channel) : State := s.setChan c (f (s.chan c))

/-- The buckets that a channel carries in a bank, ascending. -/
def State.bucketsIn (s : State) (bank c : Nat) : List Nat :=
  let i := s.rd (inBank bank (O.rcSlot c))
  if i < 16 ∧ s.rgActive i then (s.usedBuckets bank i).filter (fun b => decide (beChannel (s.bucketEntry bank i b) = c)) else []

/-- The buckets that a channel carries, ascending. -/
def State.channelBuckets (s : State) (c : Nat) : List Nat := s.bucketsIn 0 c

/-- RC_STATE (Table 11.10): FAULTED is kept; BUSY while a bucket of the channel is FULL and not COMPLETE. -/
def State.rcStateOf (s : State) (c : Nat) : Nat :=
  let i := s.rd (O.rcSlot c)
  if !(decide (i < 16) && s.rgActive i) then 0
  else if s.rd (O.rcState c) = 3 then 3
  else if (s.channelBuckets c).any (fun b => decide (2 ≤ (s.bucket i b).state) && decide ((s.bucket i b).state ≤ 4)) then 2
  else 1

/-- What a channel holds of an attempt goes; its thinning state stays (R297). -/
def Channel.restart (k : Channel) : Channel :=
  { k with sent := 0, received := 0, landing := none, waiting := none, fallen := [], sums := Map.empty, errs := Map.empty,
           errorNew := [], warmNew := [], gathered := [] }

/-- An attempt opens: every bucket of an ACTIVE group is FILLING and the census objects are cleared (R266, R297). -/
def State.openBuckets (s : State) : State :=
  let s := { s with buckets := Map.empty }.wrAll (allSlots.map (fun i => (O.stepNonfinite i, 0)))
  State.each (fun (t : State) (i : Nat) =>
    let t := State.each (fun (t : State) (b : Nat) => t.setBucket i b ⟨1, [], 0, 0, []⟩) t (t.usedBuckets 0 i)
    State.each (fun (t : State) (c : Nat) => t.modChan c (fun k => { k.restart with landing := k.landing })) t (t.channelsOf 0 i))
    s s.activeGroups

/-- A receive area is free for a frame: a CREDIT notice to RC_PREV (R276). -/
def State.grantArea (s : State) (c : Nat) : State := s.emit (.areaCredit (s.rd (O.rcPrev c)) c)

/-- The CREDIT notices of the free receive areas of a slot's channels (R276). -/
def State.grantAreas (s : State) (i : Nat) : State :=
  if s.rgD 0 i = 1 then s
  else
    State.each (fun (t : State) (c : Nat) =>
      State.each (fun (t : State) (_ : Nat) => t.grantArea c) t (natsFrom 0 (2 - (t.chan c).areas))) s (s.channelsOf 0 i)

/-- A receive area is free again. -/
def State.freeArea (s : State) (c : Nat) : State := (s.modChan c (fun k => { k with areas := k.areas - 1 })).grantArea c

/-- ABORT at the channels (R297): nothing of the attempt stays, the pending thinning state is discarded, FAULTED channels are IDLE. -/
def State.abortChannels (s : State) : State :=
  State.each (fun (t : State) (c : Nat) =>
    let n := (t.chan c).areas
    let t := (t.modChan c (fun k => { k.restart with early := [] })).wr (O.rcState c) 0
    State.each (fun (t : State) (_ : Nat) => t.freeArea c) t (natsFrom 0 n)) s (natsFrom 0 32)

/-- A table of word tables with each listed key replaced whole. -/
def replaceAll (a b : List (Nat × Words32)) : List (Nat × Words32) :=
  b ++ a.filter (fun p => b.all (fun q => decide (q.1 ≠ p.1)))

/-- The words at a key; none where nothing has been written since activation. -/
def wordsOf (a : List (Nat × Words32)) (k : Nat) : Option Words32 := (a.find? (fun p => decide (p.1 = k))).map Prod.snd

/-- COMMIT at the channels (R282): the pending copy of the thinning state is current. -/
def State.commitChannels (s : State) : State :=
  State.each (fun (t : State) (c : Nat) =>
    t.modChan c (fun k => { k with error := replaceAll k.error k.errorNew, warm := replaceAll k.warm k.warmNew,
                                   errorNew := [], warmNew := [] })) s (natsFrom 0 32)

/-- The thinning state of a slot's channels as R283 sets it: error memory +0, warm-start matrices by the seeds in force now. Frames of the step to
come that have landed stay (log entry 74, DEDUCED). -/
def State.resetThinning (s : State) (i : Nat) : State :=
  State.each (fun (t : State) (c : Nat) =>
    let k := t.chan c
    let seeds := (t.channelBuckets c).map (fun b => (b, t.rd (O.rngSeed (beBent (t.bucketEntry 0 i b)))))
    t.setChan c { Channel.idle with early := k.early, areas := k.early.length, credit := k.credit, seeds := seeds }) s (s.channelsOf 0 i)

/-- Copy the next bank of a slot's group record and bucket table, and of every channel record, into the current bank. -/
def State.copyBank (s : State) : State :=
  let t := State.each (fun (t : State) (i : Nat) =>
    let rgs := [O.rgMembers i, O.rgIndex i, O.rgScale i, O.rgCarryE i, O.rgGatherFmt i, O.rgLrStream i]
    (t.wrAll (rgs.map (fun k => (k, s.rd (inBank 1 k))))).setDom (O.bucketTable i) (s.dom (inBank 1 (O.bucketTable i)))) s allSlots
  State.each (fun (t : State) (c : Nat) =>
    t.wrAll ([O.rcSlot c, O.rcNext c, O.rcPrev c, O.rcMode c, O.rcRank c].map (fun k => (k, s.rd (inBank 1 k))))) t (natsFrom 0 32)

/-- LAYOUT_SWITCH (R292): in order, unmap, copy the bank, map, set the thinning state, take the epoch. -/
def State.switchLayout (s : State) : State :=
  let act := s.activeGroups
  let t := (State.each (fun t i => t.unmapBuckets i) s act).freeOwner ownReshard
  let t := t.copyBank
  let t := State.each (fun (t : State) (i : Nat) => (t.mapBuckets i).getD t) t act
  let t := State.each (fun t i => t.resetThinning i) t act
  State.each (fun t i => t.grantAreas i) (t.wrAll [(O.layoutEpoch, t.rd O.reshardEpoch), (O.reshardState, 0)]) act

/-- A step opens at the package: a pending re-shard whose step has come takes place first (R292), then the attempt's buckets open. -/
def State.openAttempt (s : State) (step attempt : Nat) (newStep : Bool) : State :=
  let t := if newStep ∧ s.rd O.reshardState = 1 ∧ s.rd O.reshardStep ≤ step then s.switchLayout else s
  let t := t.wrAll [(O.stepNumber, step), (O.stepState, 0), (O.stepAttempt, attempt)]
  let old := t.commit
  let t := { t with commit := { old with ready := [], failSent := false, readySent := false, pending := none, opened := true,
                                         replays := if newStep then 0 else old.replays,
                                         reduced := old.reduced && decide (step = s.rd O.stepNumber) } }
  t.openBuckets

end Sys2Proof.Machine
end

