-- ==== Sys2Proof/Machine/Commit.lean ====
section
/-! DEFINITION. The step commit (R252-R260): commit messages, FAIL and READY, the root's decision, applying a decision at a
package with its loss records (R382), and the step's way from OPEN to READY. -/

namespace Sys2Proof.Machine

/-- Message types of Table 10.7. -/
def cmReady : Nat := 1
/-- FAIL. -/
def cmFail : Nat := 2
/-- COMMIT. -/
def cmCommit : Nat := 3
/-- ABORT. -/
def cmAbort : Nat := 4
/-- QUERY. -/
def cmQuery : Nat := 5
/-- RESUME. -/
def cmResume : Nat := 6
/-- Actions of an ABORT: REPLAY. -/
def acReplay : Nat := 0
/-- DROP. -/
def acDrop : Nat := 1
/-- HOLD. -/
def acHold : Nat := 2
/-- Reasons of a FAIL: STAGE. -/
def reStage : Nat := 1
/-- INTEGRITY. -/
def reIntegrity : Nat := 2
/-- LOST. -/
def reLost : Nat := 3
/-- TIMEOUT. -/
def reTimeout : Nat := 4
/-- DRAIN. -/
def reDrain : Nat := 5

/-- The bytes of a commit message, CHECK included (Table 10.7). -/
def commitBytes (type action attempt step tag sender firstFail reporters reason : Nat) : Bytes :=
  let b := natLe 1 1 ++ natLe 1 type ++ natLe 1 action ++ natLe 1 attempt ++ natLe 4 step ++ natLe 4 tag ++ natLe 2 sender
    ++ natLe 2 firstFail ++ natLe 4 reporters ++ natLe 1 reason ++ natLe 7 0
  b ++ natLe 4 (crc32c b).toNat

/-- Whether a received commit message is well formed: FORMAT, CHECK and JOB_TAG (R253). -/
def State.commitOk (s : State) (m : CommitMsg) : Bool :=
  let b := natLe 1 m.format ++ natLe 1 m.type ++ natLe 1 m.action ++ natLe 1 m.attempt ++ natLe 4 m.step ++ natLe 4 m.jobTag
    ++ natLe 2 m.sender ++ natLe 2 m.firstFail ++ natLe 4 m.reporters ++ natLe 1 m.reason ++ natLe 7 0
  decide (m.format = 1) && decide (m.check = crc32c b) && decide (m.jobTag = s.rd O.commitJobTag)

/-- Whether the package is the root of the commit tree. -/
def State.commitRoot (s : State) : Bool := decide (s.rd O.commitParent = 0xFFFF)

/-- The children in the commit tree. -/
def State.commitChildren (s : State) : List Nat :=
  (natsFrom 0 (s.rd O.commitChildCount)).map (fun i => s.rd (O.commitChild i) % 16384)

/-- Put a commit message of this package on its way. -/
def State.sendCommit (s : State) (toPkg type action attempt step firstFail reporters reason : Nat) : State :=
  s.emit (.commit toPkg (commitBytes type action attempt step (s.rd O.commitJobTag) s.node.id firstFail reporters reason))

/-- Send a message to every child. -/
def State.sendDown (s : State) (type action attempt step : Nat) : State :=
  State.each (fun t c => t.sendCommit c type action attempt step 0xFFFF 0 0) s s.commitChildren

/-- Whether no decision on the attempt has been applied at the package (R254). -/
def State.undecided (s : State) : Bool := decide (s.rd O.stepState ≤ 3)

/-! ### Loss records (R382) -/

/-- One record of the host ring (Table 14.12). -/
def lossRecord (kind type attempt step stage replica index slice : Nat) (values : Bytes) (time : Nat) : Bytes :=
  let b := natLe 1 1 ++ natLe 1 kind ++ natLe 1 type ++ natLe 1 attempt ++ natLe 4 step ++ natLe 2 stage ++ natLe 2 replica
    ++ natLe 2 index ++ natLe 1 slice ++ natLe 1 0 ++ values ++ natLe 8 time ++ natLe 24 0
  b ++ natLe 4 (crc32c b).toNat

/-- Write one record into the ring, or drop and count it; a record without values has its loss value unmapped. -/
def State.putLoss (s : State) (r : Option Bytes) : State :=
  let n := s.rd O.lossRingEntries
  let head := s.rd O.lossRingHead
  match r with
  | none => s.add O.lossDropped 1
  | some b =>
    if (head + 2 ^ 32 - s.rd O.lossRingTail) % 2 ^ 32 < n ∧ s.rd O.hostLinkState = 3 then
      (s.emit (.hostWrite (s.rd O.lossRingBase + 64 * (head % n)) b)).wr O.lossRingHead ((head + 1) % 2 ^ 32)
    else s.add O.lossDropped 1

/-- LOSS_RECORD: the records of a decision that the package applies (R382). -/
def State.lossRecords (s : State) (type attempt step : Nat) : State :=
  if s.rd O.lossRingEntries = 0 then s
  else
    let rec_ := fun (kind i index : Nat) (v : Bytes) =>
      lossRecord kind type attempt step (s.jobStageOf i) (s.rd (O.replica i)) index (s.rd (O.seqSlice i)) v s.time
    let losses := (s.planned.filter s.lastStage).flatMap (fun i =>
      (natsFrom 0 (s.rd (O.microBatches i))).map (fun m =>
        let a := s.rd O.lossBase + 0x4000 * i + 4 * m
        if s.mapped (a / pageSize) then some (rec_ 1 i m (s.tensorBytes none a 4 ++ natLe 8 0)) else none))
    let watch := s.planned.flatMap (fun i =>
      (s.usedLayers i).map (fun l => some (rec_ 2 i l ((s.dom (O.optWatch i)).bytes 0#8 (12 * l) 12))))
    let t := State.each (fun t r => t.putLoss r) s (losses ++ watch)
    if t.rd O.lossRingHead = s.rd O.lossRingHead then t else t.msi 2

/-! ### Decisions (R256, R257) -/

/-- A candidate's pages are released (R257, R347): they are free in the ring, and unmapped while the data engine is STOPPED. -/
def State.releaseCandidate (s : State) (c : Candidate) : State :=
  let s := { s with data := { s.data with inUse := s.data.inUse.filter (fun r => decide (r ≠ (c.page, c.pages))) } }
  if s.rd O.dataState = 0 then s.unmapPages (fun t f => t.freeFrame f) c.page c.pages else s

/-- The JOB_STAGE 0 slots release the held inputs of the step (R257). -/
def State.releaseHeld (s : State) : State :=
  State.each (fun (t : State) (i : Nat) =>
    (State.each (fun (t : State) (h : Held) => t.releaseCandidate h.cand) t (t.slot i).held).modSlot i
      (fun v => { v with held := [], replays := [] })) s allSlots

/-- LAST_DECISION of a decision (Table 10.11). -/
def decisionWord (step attempt type action : Nat) : Nat := step * 2 ^ 32 + attempt * 256 + type * 16 + action

/-- Record an applied decision: LAST_DECISION, and for QUERY those before it of the step and of the step before it (R258). -/
def State.noteDecision (s : State) (type action : Nat) : State :=
  let step := s.rd O.stepNumber
  let w := decisionWord step (s.rd O.stepAttempt) type action
  let old := (s.rd O.lastDecision :: s.commit.previous).filter (fun d =>
    decide (d / 2 ^ 32 = step) || decide ((d / 2 ^ 32 + 1) % 2 ^ 32 = step))
  ({ s with commit := { s.commit with previous := old, pending := none } }).wrAll [(O.lastDecision, w), (O.inDoubt, 0)]

/-- COMMIT at the package (R257). -/
def State.applyCommit (s : State) : State :=
  let step := s.rd O.stepNumber
  let t := State.each (fun t i => t.commitVersion i) s s.planned
  let t := t.commitChannels
  let t := if s.rd O.optLrStep ≤ step then t.wr O.optLr (s.rd O.optLrNext) else t
  let t := t.releaseHeld
  let t := ((t.noteDecision cmCommit 0).wrAll [(O.lastCommitted, step), (O.stepState, 4)]).add O.commits 1
  t.lossRecords cmCommit (s.rd O.stepAttempt) step

/-- The next attempt of the step begins with the held inputs to be admitted again (R227, R257). -/
def State.beginReplay (s : State) (attempt : Nat) : State :=
  let t := State.each (fun (t : State) (i : Nat) => t.modSlot i (fun v => { v with replays := v.held })) s allSlots
  let t := { t with commit := { t.commit with replays := t.commit.replays + 1 } }
  t.openAttempt (s.rd O.stepNumber) (attempt % 256) false

/-- ABORT at the package with an action (R257): versions, slots, channels; then REPLAY at once, DROP the inputs, or HOLD. -/
def State.applyAbort (s : State) (action : Nat) : State :=
  let step := s.rd O.stepNumber
  let attempt := s.rd O.stepAttempt
  let t := State.each (fun t i => (t.abortVersion i).abortSlot i) s s.planned
  let t := t.abortChannels
  let t := ((t.noteDecision cmAbort action).wr O.stepState 5).add O.aborts 1
  let t := t.lossRecords cmAbort attempt step
  if action = acReplay then t.beginReplay (attempt + 1)
  else if action = acDrop then (t.releaseHeld).add O.drops 1
  else t

/-- Apply a decision, forwarded to the children first (R256). -/
def State.applyDecision (s : State) (type action : Nat) : State :=
  let t := s.sendDown type (if type = cmAbort then action else 0) (s.rd O.stepAttempt) (s.rd O.stepNumber)
  if type = cmCommit then t.applyCommit else t.applyAbort action

/-- Whether the package stands ABORTED with HOLD. -/
def State.onHold (s : State) : Bool := decide (s.rd O.stepState = 5) && decide (s.rd O.lastDecision % 256 = cmAbort * 16 + acHold)

/-- Begin the attempt after a held one (R252, R260): a package that has not opened the step begins it as well. -/
def State.resumeAt (s : State) (step attempt : Nat) : State :=
  if s.rd O.stepNumber ≠ step then s
  else if s.onHold && decide (s.rd O.stepAttempt = attempt) then s.beginReplay (attempt + 1)
  else if s.rd O.stepState = 0 ∧ s.commit.opened = false then s.openAttempt step ((attempt + 1) % 256) true
  else s

/-- on fail at the root (R256). -/
def State.rootFail (s : State) (reason : Nat) : State :=
  if reason = reLost ∨ reason = reDrain ∨ s.rd O.commitReplayLimit ≤ s.commit.replays then s.applyDecision cmAbort acHold
  else s.applyDecision cmAbort acReplay

/-- Whether the package works on an attempt: one has opened, or slots hold plans for its first (log entry 69, DEDUCED). -/
def State.atWork (s : State) : Bool := s.commit.opened || !s.planned.isEmpty

/-- Send FAIL for the current attempt to the parent, at most once (R254). -/
def State.failToParent (s : State) (reason firstFail reporters : Nat) : State :=
  if s.commit.failSent then s
  else
    ({ s with commit := { s.commit with failSent := true } }).sendCommit (s.rd O.commitParent) cmFail 0 (s.rd O.stepAttempt)
      (s.rd O.stepNumber) firstFail reporters reason

/-- FAIL before a decision has been received (R254); the root decides on it (R256). -/
def State.failUp (s : State) (reason firstFail reporters : Nat) : State :=
  if !s.undecided then s else if s.commitRoot then s.rootFail reason else s.failToParent reason firstFail reporters

/-- FAIL for what concerns an attempt at this package. -/
def State.sendFailFor (s : State) (reason firstFail reporters : Nat) : State :=
  if s.atWork then s.failUp reason firstFail reporters else s

/-- FAIL DRAIN of a package that enters DRAINING in any state other than COMMITTED (R259); a root that has decided has no one to tell. -/
def State.sendDrainFail (s : State) : State :=
  if s.rd O.stepState = 4 then s
  else if s.commitRoot then s.sendFailFor reDrain s.node.id 1
  else s.failToParent reDrain s.node.id 1

/-- Send FAIL for something that happened here. -/
def State.sendFail (s : State) (reason : Nat) : State := s.sendFailFor reason s.node.id 1

/-! ### From OPEN to READY (R252, R255) -/

/-- Whether every bucket of every ACTIVE group is COMPLETE (R272); a planned slot without a bucket has done its step
(log entry 19, DEDUCED). -/
def State.reductionsDone (s : State) : Bool :=
  s.activeGroups.all (fun i => (s.usedBuckets 0 i).all (fun b => decide ((s.bucket i b).state = 5)))
    && s.planned.all (fun i => (s.rgActive i && !(s.usedBuckets 0 i).isEmpty) || (s.slot i).stepDone)

/-- OPEN to REDUCED, with the NONFINITE record (R252, Table 16.8). -/
def State.tryReduced (s : State) : State :=
  if s.commit.opened && decide (s.rd O.stepState = 0) && !s.planned.isEmpty && s.reductionsDone then
    let n := (allSlots.map (fun i => s.rd (O.stepNonfinite i))).sum
    let t := ({ s with commit := { s.commit with reduced := true } }).wr O.stepState 1
    if n = 0 then t else t.record 0x0A (suspectId 0 susJob 0) 0xFFFFFFFF n 0
  else s

/-- Whether a slot's pending version is complete: every layer of a slot with a group has been updated (R252). -/
def State.versionDone (s : State) (i : Nat) : Bool :=
  let v := s.slot i
  v.pending.isSome && (!s.rgActive i || (s.usedLayers i).all (fun l => v.layers.contains l))

/-- OPT_WATCH of a slot's layers (R251). -/
def State.writeWatch (s : State) (i : Nat) : State :=
  let m := (s.slot i).watch.foldl (fun (m : Map Byte) (w : Watch) =>
    m.setBytes 0#8 (12 * w.layer) (natLe 4 w.u.toNat ++ natLe 4 w.w.toNat ++ natLe 4 (fSqrt (fDiv w.u w.w)).toNat)) (s.dom (O.optWatch i))
  s.setDom (O.optWatch i) m

/-- REDUCED to PENDING: every slot's pending version is complete; a slot that updates nothing starts one (R242, R252). -/
def State.tryPending (s : State) : State :=
  if s.rd O.stepState = 1 then
    let t := State.each (fun (t : State) (i : Nat) =>
      if !t.rgActive i || (t.usedLayers i).isEmpty then (t.startPending i).getD t else t) s s.planned
    if t.planned.all t.versionDone then
      let u := State.each (fun t i => t.writeWatch i) t t.planned
      ({ u with commit := { u.commit with pending := some (u.now + u.commitWaitDue) } }).wr O.stepState 2
    else t
  else s

/-- NONFINITE_SKIP of this package (R255, R288). -/
def State.ownSkip (s : State) : Bool :=
  decide (s.rd O.nonfinitePolicy = 0) && allSlots.any (fun i => decide (s.rd (O.stepNonfinite i) ≠ 0))

/-- PENDING to READY once every child has reported READY (R255); the root decides (R256). A step reported as failed cannot reach READY here
(R227). -/
def State.tryReady (s : State) : State :=
  if s.rd O.stepState = 2 ∧ s.commit.failSent = false ∧ s.planned.all (fun i => decide (s.stage i ≠ 5)) = true
      ∧ s.commitChildren.all (fun c => s.commit.ready.any (fun r => decide (r.1 = c))) = true then
    let reporters := 1 + (s.commit.ready.map (fun r => r.2.1)).sum
    let skip := s.ownSkip || s.commit.ready.any (fun r => r.2.2)
    if s.commitRoot then (if skip then s.applyDecision cmAbort acDrop else s.applyDecision cmCommit 0)
    else
      (({ s with commit := { s.commit with readySent := true } }).sendCommit (s.rd O.commitParent) cmReady 0 (s.rd O.stepAttempt)
        (s.rd O.stepNumber) 0xFFFF reporters skip.toNat).wr O.stepState 3
  else s

/-- Whether a commit message concerns the attempt that is undecided here. -/
def State.concerns (s : State) (m : CommitMsg) : Bool :=
  s.undecided && decide (m.step = s.rd O.stepNumber) && decide (m.attempt = s.rd O.stepAttempt)

/-- Whether a READY or FAIL takes effect now: READY is kept for an attempt that has opened. -/
def State.ripe (s : State) (m : CommitMsg) : Bool := s.concerns m && (s.commit.opened || decide (m.type = cmFail))

/-- A READY or FAIL of a child takes effect (R254, R255). -/
def State.childSays (s : State) (m : CommitMsg) : State :=
  if !s.ripe m || !s.commitChildren.contains m.sender then s
  else if m.type = cmFail then s.failUp m.reason m.firstFail m.reporters
  else if m.type = cmReady ∧ s.commit.ready.all (fun r => decide (r.1 ≠ m.sender)) = true then
    { s with commit := { s.commit with ready := s.commit.ready ++ [(m.sender, m.reporters, m.reason.testBit 0)] } }
  else s

/-- Messages that came before their attempt opened take effect once it is open. -/
def State.takeMessages (s : State) : State :=
  let (now, later) := s.commit.early.partition s.ripe
  State.each (fun t m => t.childSays m) { s with commit := { s.commit with early := later } } now

/-- Whether a decision or RESUME that waits takes effect now. -/
def State.due (s : State) (m : CommitMsg) : Bool :=
  (decide (m.type = cmAbort) && s.concerns m)
    || (decide (m.type = cmResume) && decide (m.step = s.rd O.stepNumber) && decide (m.attempt = s.rd O.stepAttempt) && s.onHold)

/-- Decisions on an attempt that came before the package opened it take effect when it has opened (Table 10.6; log entry 70, DEDUCED): they have
been forwarded already. -/
def State.takeDecisions (s : State) : Nat → State
  | 0 => s
  | n + 1 =>
    match s.commit.early.find? s.due with
    | none => s
    | some m =>
      let t := { s with commit := { s.commit with early := s.commit.early.filter (fun x => decide (x ≠ m)) } }
      State.takeDecisions (if m.type = cmAbort then t.applyAbort m.action else t.beginReplay (m.attempt + 1)) n

/-- The transitions of Table 10.6 that follow from the package's own work. -/
def State.advanceStep (s : State) : State := s.takeMessages.tryReduced.tryPending.tryReady

end Sys2Proof.Machine
end

