-- ==== Sys2Proof/Machine/Link.lean ====
section
/-! DEFINITION. Identity records (R364), the remote partners (R366), and what the package sends when its identity changes. -/

namespace Sys2Proof.Machine

/-- IFLAGS of the package, without HELD: DECLARED, DRAINING, FLAGGED (Table 14.7, R421). -/
def State.iflags (s : State) : Nat :=
  (if s.rd O.jobState = 1 then 1 else 0) + (if s.rd O.drainState ≠ 0 then 2 else 0) + (if s.rd O.drainFlag = 1 then 4 else 0)

/-- The 64 bytes of an identity record with its CHECK (Table 14.7). -/
def identityBytes (kind package port generation compute iod dx dy dz flags mask : Nat) (serial : Bytes) (digest revision tag lineDown : Nat) :
    Bytes :=
  let b := natLe 1 1 ++ natLe 1 kind ++ natLe 2 package ++ natLe 1 port ++ natLe 1 generation ++ natLe 1 compute ++ natLe 1 iod
    ++ natLe 1 dx ++ natLe 1 dy ++ natLe 1 dz ++ natLe 1 flags ++ natLe 2 mask ++ natLe 2 0
    ++ (serial ++ List.replicate (16 - serial.length) 0#8).take 16 ++ natLe 4 digest ++ natLe 4 revision ++ natLe 4 tag ++ natLe 4 lineDown
    ++ natLe 12 0
  b ++ natLe 4 (crc32c b).toNat

/-- The record a port sends: 1 HELLO, 2 IDENTITY, 3 UPDATE (R358, R360, R364). -/
def State.identity (s : State) (n kind : Nat) : Bytes :=
  identityBytes kind s.node.id n 9 (s.fuses.steppings.getD 0 0) (s.fuses.steppings.getD 4 0) s.node.dimX s.node.dimY s.node.dimZ
    (s.iflags + (if s.rd (O.portLinkState n) = 6 then 8 else 0)) (s.tport n).mask s.fuses.serial s.cutDigest (s.rd O.cutListRevision)
    (s.rd O.commitJobTag) (s.rd (ringDownKey (n / 2)))

/-- Send a port's record; in UP it travels in a CONTROL flit (R358). -/
def State.sendIdentity (s : State) (n kind : Nat) : State :=
  let t := s.put (.identity n (s.identity n kind))
  if s.portUp n ∨ s.rd (O.portLinkState n) = 4 then
    (t.modTport n (fun p => { p with controls := p.controls ++ [s.identity n kind] })).pump n
  else t

/-- The torus ports. -/
def torusPorts : List Nat := natsFrom 0 6

/-- The remote partners of the package (R366). -/
def State.remotePartners (s : State) : List Nat :=
  let relays := ((natsFrom 0 32).filter (fun r => decide (s.rd (O.relayState r) = 1) || decide (s.rd (O.relayState r) = 2))).map
    (fun r => s.rd (O.relayRemote r))
  let chans := ((natsFrom 0 32).filter (fun c => decide (s.rd (O.rcSlot c) < 16) && decide (s.rd (O.rgState (s.rd (O.rcSlot c))) = 1)
    && decide (1 < s.rd (O.rgMembers (s.rd (O.rcSlot c)))))).flatMap (fun c => [s.rd (O.rcNext c), s.rd (O.rcPrev c)])
  let parent := if s.rd O.commitParent = 0xFFFF then [] else [s.rd O.commitParent % 16384]
  let kids := (natsFrom 0 (s.rd O.commitChildCount)).map (fun i => s.rd (O.commitChild i) % 16384)
  let rings := ((natsFrom 0 16).filter (fun i => decide (s.rd (O.stageState i) ≠ 0) && decide (1 < s.rd (O.seqShare i)))).flatMap
    (fun i => [s.rd (O.ringPrev i), s.rd (O.ringNext i)])
  (distinct (relays ++ chans ++ parent ++ kids ++ rings)).filter (fun p => decide (p ≠ s.node.id))

/-- What a command's changes send to the partners: an identity UPDATE to every UP port after a Cut List revision or a change of JOB_TAG
or IFLAGS (R364); the watch over a new remote partner begins (R366). -/
def noteTorus (s t : State) : State :=
  let u := if s.rd O.cutListRevision = t.rd O.cutListRevision ∧ s.rd O.commitJobTag = t.rd O.commitJobTag ∧ s.iflags = t.iflags then t
    else State.each (fun u n => if u.portUp n then u.sendIdentity n 3 else u) t torusPorts
  let old := s.remotePartners
  let new := u.remotePartners.filter (fun p => !old.contains p)
  State.each (fun (u : State) (p : Nat) =>
    { u with torus := { u.torus with heard := u.torus.heard.set 0 p u.now, sentTo := u.torus.sentTo.set 0 p u.now } }) u new

end Sys2Proof.Machine
end

