-- ==== Sys2Proof/Machine/Integrity.lean ====
section
/-! DEFINITION. Integrity (chapter 16): implications, drains, block check failures, frame retirement; stage faults, Relay links that go
down and partners that are lost. -/

namespace Sys2Proof.Machine

/-! ### Drain (R419-R424) -/

/-- IMPLICATE_WINDOW in ns. -/
def State.implicateWindow (s : State) : Nat := s.rd O.implicateWindow * 3600000000000

/-- The entries without the one whose last implication is oldest. -/
def dropOldest (l : List Implication) : List Implication :=
  match l with
  | [] => []
  | e :: r =>
    let old := r.foldl (fun (a : Implication) b => if b.last < a.last then b else a) e
    l.filter (fun x => decide (x.suspect ≠ old.suspect))

/-- Implicate one unit (R419): the table afterwards, and whether it is the second implication within the window. -/
def implicateOne (table : List Implication) (window now u : Nat) : List Implication × Bool :=
  match table.find? (fun e => decide (e.suspect = u)) with
  | some e =>
    let again := decide (now ≤ e.last + window)
    (table.map (fun x => if x.suspect = u then ⟨u, if again then x.count + 1 else 1, now⟩ else x), again)
  | none => ((if 64 ≤ table.length then dropOldest table else table) ++ [⟨u, 1, now⟩], false)

/-- Implicate units in order: the first that is implicated a second time. -/
def State.charge (s : State) : List Nat → State × Option Nat
  | [] => (s, none)
  | u :: r =>
    let (tb, again) := implicateOne s.faults.implications s.implicateWindow s.time u
    let (t, rest) := State.charge { s with faults := { s.faults with implications := tb } } r
    (t, if again then some u else rest)

/-- DRAINED once every slot is STOPPED or UNUSED and no reduction channel is BUSY (R421). -/
def State.settleDrain (s : State) : State :=
  if s.rd O.drainState = 1 ∧ (allSlots.all (fun i => decide (s.stage i = 0) || decide (s.stage i = 4))) = true
      ∧ ((natsFrom 0 32).all (fun c => decide (s.rcStateOf c ≠ 2))) = true then s.wr O.drainState 2
  else s

/-- A drain starts from SERVING (R420, R421): its record, FAIL with REASON DRAIN, every slot that runs stops. -/
def State.startDrain (s : State) (detail second : Nat) : State :=
  if s.rd O.drainState ≠ 0 then s
  else
    let t := (s.wr O.drainState 1).add O.drains 1
    let t := { t with faults := { t.faults with drainDue := t.now + t.level6 } }
    let t := (t.record 0x0B (t.suspect susPackage 0) second detail 0).sendDrainFail
    (State.each (fun t i => if t.stage i = 2 ∨ t.stage i = 5 then t.stopSlot i else t) t allSlots).settleDrain

/-- Store the drain flag; the cause is the one that set it (R419, R420). -/
def State.storeFlag (s : State) (cause : Nat) : State :=
  (if s.rd O.drainFlag = 0 then s.wr O.drainCause cause else s).wr O.drainFlag 1

/-- One integrity event: its units are implicated, its record is written, a second implication or lost content starts a drain, and
the attempt fails with a reason (R410, R415, R419). -/
def State.integrity (s : State) (cls suspect second detail : Nat) (units : List Nat) (fail lost : Option Nat) : State :=
  let (t, hit) := s.charge units
  let starts := decide (t.rd O.drainState = 0) && (hit.isSome || lost.isSome)
  let t := t.record cls suspect second detail ((if units.isEmpty then 0 else 2) + (if starts then 4 else 0))
  let t := match hit with
    | some u => t.storeFlag u
    | none => t
  if starts then t.startDrain (if hit.isSome then 1 else 2) (hit.getD (lost.getD 0))
  else
    match fail with
    | some reason => if t.commit.opened then t.sendFail reason else t
    | none => t

/-! ### Block checks (R409, R415) -/

/-- Whether content of a pool is lost with a block (R415): GENERAL, WEIGHTS, OPTIMIZER, DATA. -/
def losesContent (pool : Nat) : Bool := [0, 1, 2, 6].contains pool

/-- DETAIL of a BLOCK_CHECK record. -/
def blockDetail (address : Nat) : Nat := address / 65536 % 2 ^ 32

/-- A block of tensor memory failed its first check: counted, recorded and implicated by Table 16.2 (R409). `suspect` is that of a
re-read that passes. -/
def State.blockEvent (s : State) (address frame pool suspect : Nat) (passes : Bool) : State :=
  if passes then
    (s.add O.blockRereadsPassed 1).integrity 1 suspect 0xFFFFFFFF (blockDetail address) [suspect] none none
  else
    let k := s.suspect susStack (frameStack frame)
    (s.add O.blockCheckFails 1).integrity 1 k 0xFFFFFFFF (blockDetail address) [k] (some reIntegrity)
      (if losesContent pool then some k else none)

/-- A block or message that landed or was received fails its check: it is not read again (R409). -/
def State.landedFails (s : State) (address suspect : Nat) : State :=
  (s.add O.blockCheckFails 1).integrity 1 suspect 0xFFFFFFFF (blockDetail address) [suspect] (some reIntegrity) none

/-- Whether a block of a page fails: it is poisoned (R412), or `reads` names it (block, suspect of a re-read that passes, whether the re-read
passes); with that suspect and whether the re-read passes. -/
def State.blockFault (s : State) (reads : List (Nat × Nat × Bool)) (frame block : Nat) : Option (Nat × Bool) :=
  if (s.frame frame).poison.contains (block % 16) then some (s.suspect susStack (frameStack frame), false)
  else (reads.find? (fun r => decide (r.1 = block))).map Prod.snd

/-- Verify blocks (by address / 4,096, with their frames and pools) in order (R408, R409): the state after their events, and whether
every one may be used. -/
def State.verify (s : State) (reads : List (Nat × Nat × Bool)) : List (Nat × Nat × Nat) → State × Bool
  | [] => (s, true)
  | (b, f, pool) :: r =>
    match s.blockFault reads f b with
    | none => State.verify s reads r
    | some (sus, passes) =>
      let t := s.blockEvent (4096 * b) f pool sus passes
      if passes then State.verify t reads r else (t, false)

/-- The blocks of bytes at a tensor address, with frames and pools, under a resolution. -/
def State.blockList (s : State) (item : Option (Nat × Nat)) (a n : Nat) : List (Nat × Nat × Nat) :=
  (blocksOf a n).filterMap (fun b => (s.resolve item (b / 16)).map (fun f => (b, f, (s.page (b / 16)).pool)))

/-- Blocks that the engines of a Bent read from the stacks, as the counters count them (Tables 18.3, 18.4): the bytes of each stack and the blocks
that the Bent's Check engine checks (log entry 13, DESIGN CHOICE for a Lane's sending, which is its lead Bent's). -/
def State.engineReads (s : State) (b : Nat) (list : List (Nat × Nat × Nat)) : State :=
  (State.each (fun (t : State) (x : Nat × Nat × Nat) => t.kpc 0x03 (frameStack x.2.1) 4096) s list).bpc b 0x0B list.length

/-! ### Frame retirement (R235, R414) -/

/-- A free unreserved frame of a stack, or of another stack of its die (R235). -/
def State.spareFrame (s : State) (k : Nat) : Option Nat :=
  ((k :: [k / 3 * 3, k / 3 * 3 + 1, k / 3 * 3 + 2].filter (fun m => decide (m ≠ k))).find? (fun m => decide (0 < s.stackOpen m))).map
    (fun m => frameKey m (lowestGap 0 ((s.framesOf m).map Prod.fst)))

/-- Replace a frame by another in a list. -/
def swapFrame (f g : Nat) (l : List Nat) : List Nat := l.map (fun x => if x = f then g else x)

/-- A slot whose versions stand on frame `g` instead of `f`. -/
def Slot.swapFrames (v : Slot) (f g : Nat) : Slot :=
  { v with versions := v.versions.map (fun x => { x with weights := swapFrame f g x.weights, opt := swapFrame f g x.opt }) }

/-- Move everything that stands on a frame to another: content and check values, its page, versions, resident copies (R235). -/
def State.moveFrame (s : State) (f g : Nat) : State :=
  let v := s.frame f
  let t := (s.setFrame g { v with fixes := [] }).frameWritten g
  let t := { t with
    pages := t.pages.change (fun p => if p.pool ≠ 255 ∧ p.frame = f then { p with frame := g } else p),
    slots := t.slots.change (fun v => v.swapFrames f g),
    bents := t.bents.change (fun v =>
      { v with resident := swapFrame f g v.resident, places := v.places.map (fun (p : Nat × Nat) => if p.1 = f then (g, p.2) else p) }) }
  t.setFrame f { HFrame.free with use := 3 }

/-- Retire a frame, with its record; without a free frame on the die the page stays (R414). -/
def State.retire (s : State) (f : Nat) : State :=
  let k := frameStack f
  let sus := s.suspect susStack k
  match s.spareFrame k with
  | some g => ((s.moveFrame f g).add (O.stackFramesRetired k) 1).record 3 sus 0xFFFFFFFF (f % 2 ^ 32) 0
  | none => s.record 3 sus 0xFFFFFFFF (f % 2 ^ 31 + 2 ^ 31) 0

/-! ### Stage faults, Relay links and partners -/

/-- Stage fault codes (Table 9.9). -/
def sfDeadline : Nat := 1
/-- CORE. -/
def sfCore : Nat := 2
/-- PROGRAM. -/
def sfProgram : Nat := 3
/-- LANE_STALE. -/
def sfLaneStale : Nat := 4
/-- RESERVE. -/
def sfReserve : Nat := 5
/-- BATON_CHECK. -/
def sfBaton : Nat := 6
/-- RELAY_DOWN. -/
def sfRelay : Nat := 7

/-- A stage fault puts a slot in FAULTED, with its record and FAIL (R227, Table 9.9). A STOP that was under way stands: ABORTED does not make
the slot RUNNING again. -/
def State.stageFaultOf (s : State) (i code kind mb : Nat) : State :=
  if s.stage i = 0 ∨ s.stage i = 4 ∨ s.stage i = 5 then s
  else
    let w := code * 2 ^ 24 + kind * 2 ^ 16 + mb % 4096
    let t := (s.modSlot i (fun v => { v with item := none, starve := none })).wrAll [(O.stageFault i, w), (O.stageState i, 5)]
    let t := (t.record 7 (t.suspect susSlot i) 0xFFFFFFFF w 0).sendFail reStage
    if t.rd O.drainState = 1 ∧ t.stage i = 5 then (t.stopSlot i).settleDrain else t

/-- Every core of a Bent that is RUNNING, WAITING or STOPPING enters FAULTED for what an engine of the Bent met: a fault code with OPCODE 0x00 and
SEQ 0xFFFF (R427). -/
def State.faultBentCores (s : State) (b code : Nat) : State :=
  State.each (fun (t : State) (c : Nat) =>
    if (t.core c).active then (t.abandonFrom c 0 true false).enterFaulted c ⟨code, 0x00, 0xFFFF, (t.core c).dptr⟩ else t) s (natsFrom (64 * b) 64)

/-- A Lane end whose Relay link went DOWN is stale (R206): what it has not accepted is refused as stale (Table 9.8) and counted. -/
def State.cutLane (s : State) (n : Nat) : State :=
  let e := s.lane n
  let late := e.early.map (fun (x : Parcel × Bytes) => x.1)
  let t := s.setLane n { e.stale with cut := true, early := [], held := e.held.filter (fun p => !late.contains p) }
  if late.isEmpty then t else (t.freeParcels n late).add (O.laneDropped n) late.length

/-- A Relay link enters DOWN: its generation moves and what rides it is stale at once (R206); a slot whose ring rides it faults (R313). -/
def State.relayDown (s : State) (r : Nat) : State :=
  if s.rd (O.relayState r) ≠ 1 ∧ s.rd (O.relayState r) ≠ 2 then s
  else
    let p := s.rd (O.relayRemote r)
    let riding := decide (s.relayTo p = some r)
    let t := (s.wrAll [(O.relayState r, 3), (O.relayGen r, nextGen (s.rd (O.relayGen r)))]).add (O.relayDownCount r) 1
    let t := State.each (fun (t : State) (n : Nat) =>
      if t.rd (O.laneState n) ≠ 0 ∧ t.rd (O.laneRelay n) = r then
        t.cutLane n
      else t) t (natsFrom 0 64)
    let t := State.each (fun (t : State) (i : Nat) =>
      if 1 < t.rd (O.seqShare i) ∧ (t.rd (O.ringInRelay i) = r ∨ t.rd (O.ringOutRelay i) = r) then t.stageFaultOf i sfRelay 0 0 else t) t
      t.planned
    if riding then
      State.each (fun (t : State) (x : Nat × Nat × Endpoint) =>
        if x.2.2.kind ≠ 0 ∧ t.ownQueue x.2.2.queue = false ∧ namePkg x.2.2.queue = p ∧ t.bindStatus x.2.2 ≠ 0x22 then
          (t.modEndp x.1 x.2.1 (fun e => { e with notice := 0x22, credit := 0, reserved := 0 })).notify x.1 x.2.1
        else t) t t.endpoints
    else t

/-- Whether the attempt's frames on a channel are not all exchanged. -/
def State.exchanging (s : State) (c : Nat) : Bool :=
  (s.channelBuckets c).any (fun b => decide ((s.bucket (s.rd (O.rcSlot c)) b).state ≠ 5))

/-- The parent in the commit tree is lost or replaced (R258). -/
def State.parentGone (s : State) : State :=
  if !s.commit.opened then s
  else if s.rd O.stepState ≤ 2 then s.applyAbort acHold
  else if s.rd O.stepState = 3 then s.wr O.inDoubt 1
  else s

/-- A lost partner, neighbour or remote (R204, R254, R258, R296, Table 16.8): its record, its Relay links, the commit tree, the
reduction hops. `port` is 0 to 5, or 0xFF for a remote partner. -/
def State.partnerLost (s : State) (p port : Nat) : State :=
  let t := s.record 8 (suspectId p susPackage 0) 0xFFFFFFFF port 0
  let t := State.each (fun (t : State) (r : Nat) => if t.rd (O.relayRemote r) = p then t.relayDown r else t) t (natsFrom 0 32)
  let hop := (natsFrom 0 32).any (fun c =>
    (decide (t.rd (O.rcNext c) = p) || decide (t.rd (O.rcPrev c) = p)) && decide (1 < t.rgD 0 (t.rd (O.rcSlot c))) && t.exchanging c)
  let child := t.commitChildren.contains p && t.commit.ready.all (fun r => decide (r.1 ≠ p))
  let t := if hop || child then t.sendFailFor reLost p 1 else t
  if !t.commitRoot && decide (t.rd O.commitParent % 16384 = p) then t.parentGone else t

/-- A remote partner is lost (R366). -/
def State.remoteLost (s : State) (p : Nat) : State :=
  if s.remotePartners.contains p then
    ({ s with torus := { s.torus with heard := s.torus.heard.set 0 p s.now } }.add O.remoteLosses 1).partnerLost p 0xFF
  else s

end Sys2Proof.Machine
end

