-- ==== Sys2Proof/Machine/Sessions.lean ====
section
/-! DEFINITION. Sessions and the requests that wait (R57, R60, R61): finding and closing a session, and completing what was deferred. -/

namespace Sys2Proof.Machine

/-- The session with an id. -/
def State.session? (s : State) (id : Nat) : Option Session := s.mgmt.sessions.find? (fun e => decide (e.id = id))

/-- Change the session with an id. -/
def State.modSession (s : State) (id : Nat) (f : Session → Session) : State :=
  { s with mgmt := { s.mgmt with sessions := s.mgmt.sessions.map (fun e => if e.id = id then f e else e) } }

/-- Remember the status of a completed request: the last 8 of a session (R57). -/
def State.remember (s : State) (id seq status : Nat) : State :=
  s.modSession id (fun e => { e with remembered := takeLast 8 (e.remembered ++ [(seq, status)]) })

/-- Close a session: its subscriptions, queue and transfers go; deferred operations still take effect and their
completions are not sent (R57, R61). -/
def State.closeSession (s : State) (id : Nat) : State :=
  { s with mgmt := { s.mgmt with
      sessions := s.mgmt.sessions.filter (fun e => decide (e.id ≠ id)),
      transfers := s.mgmt.transfers.filter (fun e => decide (e.session ≠ id)),
      outstanding := s.mgmt.outstanding.filter (fun e => decide (e.session ≠ id)) } }

/-- Whether a frame is the last that a request is answered with: a response other than DEFERRED, a completion, the last segment. -/
def endsRequest (f : Frame) : Bool :=
  (decide (f.kind = 2) && decide (f.status ≠ 1)) || decide (f.kind = 3) || (decide (f.kind = 5) && f.isLast)

/-- The last answers of the package's own that wait for a free response slot (R56): their requests are still outstanding (log entry 95, DEDUCED). -/
def State.heldAnswers (s : State) (p : Frame → Bool) : List Frame :=
  s.mgmt.held.filter (fun f => decide (f.source = s.node.id) && endsRequest f && p f)

/-- The requests a session has outstanding: unanswered, deferred, answered by a frame that is still held, or a transfer whose frames are
still coming (R57). -/
def State.outstandingCount (s : State) (id : Nat) : Nat :=
  (s.mgmt.outstanding.filter (fun e => decide (e.session = id))).length
    + (s.mgmt.transfers.filter (fun e => decide (e.session = id))).length
    + (s.heldAnswers (fun f => decide (f.session = id))).length

/-- Whether the answer to a session's request is still held (R56, R57). -/
def State.answerHeld (s : State) (id seq : Nat) : Bool := !(s.heldAnswers (fun f => decide (f.session = id) && decide (f.seq = seq))).isEmpty

/-- A frame that carries a completion of an outstanding request (R60). -/
def completionFrame (s : State) (o : Outstanding) (kind status : Nat) (payload : Bytes) : Frame :=
  Frame.seal { carrier := o.carrier, slot := 0, carried := 0, version := 1, kind := kind, command := o.command,
               status := status, seq := o.seq, session := o.session, source := s.node.id, dest := o.source,
               index := keyIndex o.key, sub := keySub o.key, flags := if o.flags.testBit 2 then 4 else 0, offset := 0,
               length := payload.length, payload := payload, check := 0, ether := { Ether.none with src := o.station } }

/-- Complete one outstanding request with its final status: a deferred completion when it was answered DEFERRED, its
response otherwise (R60). -/
def State.completeOne (s : State) (o : Outstanding) (status : Nat) : State :=
  let t := { s with mgmt := { s.mgmt with outstanding := s.mgmt.outstanding.erase o } }
  (t.send o.carrier o.source (completionFrame t o (if o.deferred then 3 else 2) status [])).remember o.session o.seq status

/-- Complete every outstanding request that waits for something, with one status, oldest first (R60). -/
def State.complete (s : State) (w : Waits) (status : Nat) : State :=
  State.each (fun t o => t.completeOne o status) s (s.mgmt.outstanding.filter (fun o => decide (o.waits = w)))

end Sys2Proof.Machine
end

