-- ==== Sys2Proof/Machine/Power.lean ====
section
/-! DEFINITION. What survives a reset and what a reset clears (R48, R437, R455), the outputs of the service lines (R459, R484, R485), and
Walk mode (R446, R447). -/

namespace Sys2Proof.Machine

/-- The objects of the standby part (Table 17.10). -/
def isStandby (k : Nat) : Bool :=
  [O.falseStarts, O.lastFalseStartStep, O.starts, O.pwrEnRejected, O.rstNAssertions, O.glitchesFiltered].contains k

/-- The objects kept in flash: those of access RWS, and the RO objects that their chapters keep there (R48, R64, R448, R419, R484). -/
def isFlash (k : Nat) : Bool :=
  (rowOf k).elim false (fun r => decide (r.acc = .rws))
    || [O.serviceNonce, O.drainCause, O.thermalTrips, O.bootSlotStatus, O.slotAVersion, O.slotBVersion].contains k

/-- Whether an object's value survives every reset (R48, R437). -/
def survives (k : Nat) : Bool := isStandby k || isFlash k

/-- The 80 power domains. -/
def allDomains : List Nat := natsFrom 0 80

/-- The always-on domain. -/
def domAlwaysOn : Nat := 0x4F

/-- The domain of optical group 7, which carries port H. -/
def domHostOptics : Nat := 0x47

/-- What every reset of codes 0x01 to 0x06 leaves: RWS values, what is kept in flash, the standby part; every session is closed (R455). The
mark of RESTORE_STORED waits for the next start (R53). -/
def State.wipe (s : State) : State :=
  { s with
    objs := s.objs.keep survives, doms := Map.empty,
    mgmt := { Mgmt.empty with nextSession := s.mgmt.nextSession, restoreMark := s.mgmt.restoreMark },
    start := { s.start with bootSel := none, dieResets := [], upQueue := [], domSince := Map.empty, quietEvals := [] },
    cores := Map.empty, bents := Map.empty, queues := Map.empty, flights := [], frames := Map.empty, pages := Map.empty,
    slots := Map.empty, lanes := Map.empty, asks := [], commit := Commit.fresh, buckets := Map.empty, chans := Map.empty,
    faults := { Faults.empty with stored := s.faults.stored, implications := s.faults.implications },
    torus := Torus.fresh, data := DataEngine.fresh, dies := Dies.fresh }

/-- A reset of Table 17.8 in a phase: everything is cleared and the cause is kept; the always-on domain stays up unless the package powers
down (R455). Domains go off at once (log entry 28, DESIGN CHOICE). -/
def State.resetTo (s : State) (code : Nat) (phase : Phase) (alwaysOn : Bool) : State :=
  let t := s.wipe
  let t := { t with start := { t.start with phase := phase, stepSince := t.now } }
  let t := t.wr O.lastResetCause code
  if alwaysOn then t.wr (O.domainState domAlwaysOn) domOn else t

/-- Whether FAULT_N is asserted (R459, R485). -/
def State.faultN (s : State) : Bool :=
  !s.start.inputInRange || !s.start.rstN || s.walk || decide (s.rd O.drainFlag = 1) || s.start.tripHold

/-- Whether THERM_TRIP_N is asserted (R484, R485). -/
def State.thermTripN (s : State) : Bool := !s.start.inputInRange || s.start.tripHold

/-- Whether PG_OUT is released (R439, R485). -/
def State.powerGood (s : State) : Bool := s.start.inputInRange && s.start.pwrEn && s.start.pgOut

/-- Domain requests and die resets that can no longer complete end with STATE (R452, R454). -/
def State.endWaits (s : State) : State :=
  State.each (fun (t : State) (o : Outstanding) =>
    match o.waits with
    | .domain _ _ => t.completeOne o 0x17
    | .dieReset _ => t.completeOne o 0x17
    | _ => t) s s.mgmt.outstanding

/-- Everything but the always-on domain and optical group 7 goes off, except what reads EXCLUDED; the units that stay powered are idle
(R447). -/
def State.darken (s : State) : State :=
  let t := State.each State.portGone s.endWaits (natsFrom 0 6)
  let t := State.each (fun (t : State) (d : Nat) =>
    if d = domHostOptics ∨ d = domAlwaysOn then t
    else (t.wr (O.domainState d) (if t.domain d = domExcluded then domExcluded else domOff)).wr (O.domainPending d) 0) t allDomains
  let t := t.wrAll ((natsFrom 0 6).map (fun n => (O.portLinkState n, 0)) ++ (natsFrom 0 10).map (fun n => (O.slState n, 0))
    ++ [(O.dataState, 0), (O.ingestLinkState 0, 0), (O.ingestLinkState 1, 0)])
  { t with
    start := { t.start with dieResets := [], upQueue := [], domSince := Map.empty, quietEvals := [] },
    cores := Map.empty, bents := Map.empty, queues := Map.empty, flights := [], frames := Map.empty, pages := Map.empty,
    lanes := Map.empty, asks := [], torus := { Torus.fresh with ports := t.torus.ports.keep (fun n => decide (n = 8)) },
    data := DataEngine.fresh, dies := Dies.fresh }

/-- Walk mode is entered with a reason (R445, R447): served by the boot ROM for reasons 0x01 to 0x03. Optical group 7 powers up where it is
not yet ON. -/
def State.enterWalk (s : State) (reason : Nat) : State :=
  let t := s.darken
  let t := { t with start := { t.start with phase := .walk, upQueue := if t.domainOff domHostOptics then [domHostOptics] else [] } }
  let t := t.wrAll [(O.startState, 2), (O.walkReason, reason), (O.cutListState, 2)]
  if reason ≤ 3 then t.wrAll [(O.firmwareVersion, 0), (O.bootSlotUsed, 0xFF)] else t

/-- A package that has excluded a compute die after READY enters Walk mode when it reaches DRAINED (R446). -/
def State.walkDue (s : State) : State :=
  if s.ready && decide (s.rd O.drainState = 2) && (natsFrom 0 4).any (fun d => decide (s.rd (O.dieState d) = 2)) then s.enterWalk 0x0A
  else s

end Sys2Proof.Machine
end

