-- ==== Sys2Proof/Machine/Rings.lean ====
section
/-! DEFINITION. Sequence rings (R308-R311): the areas of a slot in its Pacer window, their hop regions and expected blocks, and
sending an outgoing block. -/

namespace Sys2Proof.Machine

/-- Pages of one ring area's part of the window (Table 12.3). -/
def ringAreaPages : Nat := 0x80000
/-- First page of a ring area: kind 1 F or 2 B, outgoing or incoming, parity (Table 12.3). -/
def ringPage (i kind : Nat) (out : Bool) (parity : Nat) : Nat :=
  slotPage i + 0x800000 + ringAreaPages * (4 * (kind - 1) + 2 * out.toNat + parity)

/-- Slices of the sequence of a slot. -/
def State.ringSlices (s : State) (i : Nat) : Nat := s.rd (O.seqShare i)

/-- RING_F_TOKEN_BYTES or RING_B_TOKEN_BYTES. -/
def State.ringBytesOf (s : State) (i kind : Nat) : Nat := if kind = 1 then s.rd (O.ringFTokenBytes i) else s.rd (O.ringBTokenBytes i)

/-- Whether the mode of a kind is FORWARD (Table 12.5: 0x00 FORWARD, 0x01 PROGRAM). -/
def State.ringForwards (s : State) (i kind : Nat) : Bool :=
  decide ((if kind = 1 then s.rd (O.ringFMode i) else s.rd (O.ringBMode i)) = 0)

/-- Pages of a hop region: p(PIPE_MAX_TOKENS, b) (R308). -/
def State.hopPages (s : State) (i kind : Nat) : Nat := s.pagesFor i (s.rd O.pipeMaxTokens) (s.ringBytesOf i kind)

/-- Pages of one area of a kind that are mapped. -/
def State.areaPages (s : State) (i kind : Nat) : Nat := (s.ringSlices i - 1) * s.hopPages i kind

/-- Whether a slot has a sequence ring. -/
def State.hasRing (s : State) (i : Nat) : Bool := decide (1 < s.ringSlices i)

/-- The kinds, directions and parities of the eight areas. -/
def ringAreas : List (Nat × Bool × Nat) :=
  [(1, false, 0), (1, false, 1), (1, true, 0), (1, true, 1), (2, false, 0), (2, false, 1), (2, true, 0), (2, true, 1)]

/-- Pages that R308 maps for a slot. -/
def State.ringTotal (s : State) (i : Nat) : Nat :=
  if s.hasRing i then (ringAreas.map (fun a => s.areaPages i a.1)).sum else 0

/-- What a tensor block (address / 4,096) is to the rings: its slot, whether it is outgoing, and its key. -/
def State.ringKeyOf (s : State) (b : Nat) : Option (Nat × Bool × RingKey) :=
  let p := b / 16
  if p < pacerPage then none
  else
    let i := (p - pacerPage) / 0x1000000
    let off := (p - pacerPage) % 0x1000000
    if off < 0x800000 ∨ 0x800000 + 8 * ringAreaPages ≤ off ∨ s.hasRing i = false then none
    else
      let a := (off - 0x800000) / ringAreaPages
      let q := (off - 0x800000) % ringAreaPages
      let kind := a / 4 + 1
      let out := decide (a / 2 % 2 = 1)
      let pr := s.hopPages i kind
      if s.areaPages i kind ≤ q ∨ pr = 0 then none
      else some (i, out, ⟨kind, a % 2, if out then q / pr else q / pr + 1, 16 * (q % pr) + b % 16⟩)

/-- The tensor block of a ring block. -/
def State.ringBlockAt (s : State) (i : Nat) (out : Bool) (k : RingKey) : Nat :=
  16 * (ringPage i k.kind out k.parity + (if out then k.hop else k.hop - 1) * s.hopPages i k.kind) + k.block

/-- The micro-batch of the work item in run of a kind and parity at a slot. -/
def State.ringItem (s : State) (i kind parity : Nat) : Option Micro :=
  match (s.slot i).item with
  | none => none
  | some it => if it.kind = kind ∧ it.mb % 2 = parity then (s.slot i).micro? it.mb else none

/-- Expected blocks of each hop for a micro-batch (R309). -/
def State.expectedBlocks (s : State) (i kind : Nat) (m : Micro) : Nat :=
  16 * s.pagesFor i (batonTokens m.baton) (s.ringBytesOf i kind)

/-- The content of a tensor block. -/
def State.blockBytes (s : State) (b : Nat) : Bytes := s.tensorBytes none (4096 * b) 4096

/-- Put an outgoing block of a micro-batch on its way to RING_NEXT (R309, R313): it names the hop region where it lands, which is the incoming hop
one above (log entry 76, DEDUCED). -/
def State.putRing (s : State) (i mb : Nat) (k : RingKey) : State :=
  let t := (s.modSlot i (fun v => { v with sent := v.sent ++ [k] })).relaySent (s.rd (O.ringOutRelay i)) 4096
  (t.emit (.ring (t.rd (O.ringNext i)) (t.jobStageOf i) (t.rd O.stepNumber) (t.rd O.stepAttempt) mb
    { k with hop := k.hop + 1 }
    (t.blockBytes (t.ringBlockAt i true k)))).add (O.ringBytesSent i) 4096

/-- Send an outgoing block of the item in run, when it is expected; one beyond the expected blocks counts as written only (R309). -/
def State.sendRing (s : State) (i : Nat) (k : RingKey) : State :=
  match s.ringItem i k.kind k.parity with
  | none => s
  | some m =>
    if s.expectedBlocks i k.kind m ≤ k.block then s.modSlot i (fun v => { v with sent := v.sent ++ [k] }) else s.putRing i m.id k

/-- Whether a core may write an outgoing block (R309): not in a hop that the S93 forwards, and not a second time in a work item. -/
def State.ringWritable (s : State) (i : Nat) (out : Bool) (k : RingKey) : Bool :=
  out && !(s.ringForwards i k.kind && decide (1 ≤ k.hop)) && !((s.slot i).sent.contains k)

/-- Whether every expected block of a work item has landed and has been sent (R311). -/
def State.ringComplete (s : State) (i : Nat) (it : Item) : Bool :=
  if !s.hasRing i || decide (2 < it.kind) then true
  else
    match (s.slot i).micro? it.mb with
    | none => true
    | some m =>
      let n := s.expectedBlocks i it.kind m
      let mine := fun (l : List RingKey) =>
        (l.filter (fun k => decide (k.kind = it.kind) && decide (k.parity = it.mb % 2) && decide (k.block < n))).length
      let n := n * (s.ringSlices i - 1)
      decide (mine (s.slot i).landed = n) && decide (mine (s.slot i).sent = n)

/-- The areas of a kind and parity are unwritten and unlanded again (R311). -/
def State.clearRing (s : State) (i kind parity : Nat) : State :=
  let other := fun (k : RingKey) => !(decide (k.kind = kind) && decide (k.parity = parity))
  s.modSlot i (fun v => { v with landed := v.landed.filter other, sent := v.sent.filter other })

end Sys2Proof.Machine
end

