-- ==== Sys2Proof/Machine/Views.lean ====
section
/-! DEFINITION. Reading the object dictionary: the value of any object at one instant (R51), the content of DOMAIN
objects (R58, R497), and which changes subscriptions report (R62). -/

namespace Sys2Proof.Machine

/-- The ASCII bytes of a text. -/
def asciiBytes (t : String) : Bytes := t.toList.map (fun c => BitVec.ofNat 8 c.toNat)

/-- The text of a Walk mode reason (Table 17.4; the texts of R404 and R402 are used verbatim). -/
def walkText : Nat → String
  | 1 => "false starts exhausted"
  | 2 => "no valid image"
  | 3 => "recovery requested"
  | 4 => "unsupported stepping"
  | 5 => "mixed compute steppings"
  | 6 => "IOD newer than compute dies"
  | 7 => "IOD more than one stepping older"
  | 8 => "IOD self-test failed"
  | 9 => "compute die self-test failed"
  | 10 => "Scarf link retrains exhausted"
  | _ => " "

/-- The bytes of a VSTRING object (R47). -/
def State.readText (s : State) (k : Nat) : Bytes :=
  if k = O.vendorName then asciiBytes "Ikivas"
  else if k = O.deviceName then asciiBytes "Streluo S93"
  else if k = O.packageSerial then s.fuses.serial
  else asciiBytes (walkText (s.rd O.walkReason))

/-- Values of the indexes 0x1000 to 0x1FFF that are not held in the store: identity, Cut List and transport. -/
def view1 (s : State) (i j k : Nat) : Option Nat :=
  if i = 0x1000 then
    (if j = 4 then some (s.fuses.steppings.getD 0 0) else if j = 5 then some (s.fuses.steppings.getD 4 0) else none)
  else if 0x1100 ≤ i ∧ i ≤ 0x1180 then
    (if k = O.cutListDigest then some s.cutDigest else cutConst s.fuses i j)
  else if k = O.tallyMac then some s.fuses.tallyMac
  else if k = O.serviceKeyId then some s.fuses.serviceId
  else if k = O.sessionsOpen then some s.mgmt.sessions.length
  else none

/-- Values of the indexes 0x2000 to 0x2FFF that are not held in the store: the pins, the fused minimum, the clock of a die that is off. -/
def view2 (s : State) (i j k : Nat) : Option Nat :=
  if k = O.inputLevels then
    some (s.start.pwrEn.toNat + 2 * s.start.rstN.toNat + 4 * s.start.bootA.toNat + 8 * s.start.bootB.toNat)
  else if k = O.minSecurityVersion then some s.start.minSecurity
  else if i = 0x2033 then (if s.domainOn (0x30 + (j - 1)) then none else some 0)
  else none

/-- QUEUE_OCCUPANCY (Table 8.10): free slots or rounds over the messages held, or the rounds that hold a contribution. -/
def State.queueOccupancy (s : State) (q : Nat) : Nat :=
  let v := s.queue q
  let n := v.messages.length + v.rounds.length
  (if v.state = 0 then 0 else qDepth (s.qword q) - n) * 65536 + n % 65536

/-- QUEUE_ROUND_SLOTS (Table 8.10). -/
def State.roundSlots (s : State) (q : Nat) : Nat :=
  match (s.queue q).rounds with
  | [] => 0
  | r :: _ => r.parts.foldl (fun (m : Nat) (x : Contribution) => m ||| 2 ^ x.sender) 0

/-- Values of the Bent blocks that are not held in the store: cores and queues (Tables 5.13, 6.8, 7.8, 8.10, 10.8). -/
def view3 (s : State) (k : Nat) : Option Nat :=
  let c := keyCore k
  let q := c
  let core := s.core c
  if !inBentBlock k then none
  else match keyOff k with
  | 0x00 => some core.state.code
  | 0x03 => some core.dptr
  | 0x04 => some core.fault
  | 0x05 => some core.haltCode
  | 0x06 => some core.flags
  | 0x07 => some core.fp
  | 0x08 => some core.retired
  | 0x09 => some core.lost
  | 0x10 => some (core.tile 0).status
  | 0x11 => some (core.tile 1).status
  | 0x12 => some (core.tile 2).status
  | 0x13 => some (core.tile 3).status
  | 0x17 => some core.chain.isSome.toNat
  | 0x18 => some core.rng.stream
  | 0x19 => some core.rng.tensor
  | 0x1A => some core.rng.step
  | 0x1B => some core.rng.micro
  | 0x1C => some core.rng.base
  | 0x22 => some (s.queue q).state
  | 0x23 => some (s.queue q).gen
  | 0x24 => some (s.queueOccupancy q)
  | 0x26 => some (s.roundSlots q)
  | 0x32 => if keySub k = 1 then some (s.bent (keyBent k)).resident.length else none
  | _ => none

/-- Values of the indexes 0x4000 to 0x4FFF that are not held in the store: the Lane ends (Table 9.14). -/
def view4 (s : State) (i j : Nat) : Option Nat :=
  let e := s.lane (i - 0x4100)
  if 0x4100 ≤ i ∧ i < 0x4200 ∧ j = 0x0E then some (e.pagesHeld * 2 ^ 32 + e.held.length)
  else if 0x4100 ≤ i ∧ i < 0x4200 ∧ j = 0x0F then some (if s.laneReads (i - 0x4100) then 0 else e.pages * 2 ^ 32 + e.credit)
  else none

/-- ONE_BIT_CHANNELS (Table 11.9): the channels that hold ONE_BIT in either bank. -/
def State.oneBitChannels (s : State) : Nat :=
  ((natsFrom 0 32).filter (fun c => decide (s.rd (O.rcMode c) = 2) || decide (s.rd (O.nextRcMode c) = 2))).length

/-- Values of the indexes 0x5000 to 0x5FFF that are not held in the store: buckets and channels (Tables 11.8 to 11.10). -/
def view5 (s : State) (i j k : Nat) : Option Nat :=
  if k = O.oneBitChannels then some s.oneBitChannels
  else if 0x5030 ≤ i ∧ i < 0x5040 then
    (let b := s.bucket (i - 0x5030) (j - 1)
     some (b.state * 2 ^ 24 + b.finals.length))
  else if 0x5040 ≤ i ∧ i < 0x5050 then
    (let b := s.bucket (i - 0x5040) (j - 1)
     some (b.census * 2 ^ 32 + b.delivered))
  else if 0x5100 ≤ i ∧ i < 0x5120 ∧ j = 1 then some (s.rcStateOf (i - 0x5100))
  else none

/-- Pages of a pool (Table 10.1): mapped pages, and the frames that Lanes and the data engine hold for their rings. -/
def State.poolMapped (s : State) (p : Nat) : Nat :=
  let pages := (s.pages.entries.filter (fun e => decide (e.2.pool = p))).length
  let owned := fun (f : Nat → Bool) => (s.frames.entries.filter (fun e => decide (e.2.use ≠ 3) && f e.2.owner)).length
  if p = 4 then owned (fun o => decide (0x400 ≤ o) && decide (o < 0x500))
  else if p = 6 then pages + owned (fun o => decide (o = 0x700) || decide (o = 0x701))
  else pages

/-- The held inputs of the package, slot by slot, oldest first. -/
def State.heldInputs (s : State) : List Held := (allSlots.map (fun i => (s.slot i).held)).flatten

/-- Values of the indexes 0x6000 to 0x6FFF that are not held in the store: the allocator, versions, held inputs (Tables 10.7 to 10.10). -/
def view6 (s : State) (i j k : Nat) : Option Nat :=
  if k = O.allocFramesFree then some ((natsFrom 0 12).map s.stackFree).sum
  else if k = O.allocFramesReserved then some ((natsFrom 0 12).map s.stackReserved).sum
  else if 0x6010 ≤ i ∧ i < 0x601C ∧ j = 1 then some (s.stackFree (i - 0x6010))
  else if 0x6020 ≤ i ∧ i < 0x6028 then some (s.poolMapped (i - 0x6020))
  else if 0x6100 ≤ i ∧ i < 0x6110 then
    (let v := s.slot (i - 0x6100)
     if j = 1 then some v.currentNumber
     else if j = 2 then some (v.pending.elim 0x0100 Version.number)
     else if j = 3 then some v.versions.length
     else none)
  else if 0x6110 ≤ i ∧ i < 0x6120 then
    (match (s.slot (i - 0x6110)).versions[j - 1]? with
     | none => some 0
     | some v => some (v.number * 2 ^ 24 + v.state * 2 ^ 16 + v.pins % 65536))
  else if k = O.heldPages then some (s.heldInputs.map (fun h => h.cand.pages)).sum
  else none

/-- Values of the indexes 0x7000 to 0x7FFF that are not held in the store: coordinates, flaps and holds, the time root (Tables 14.13 to 14.15). -/
def view7 (s : State) (i j k : Nat) : Option Nat :=
  let n := i - 0x7010
  if i = 0x7000 ∧ 5 ≤ j ∧ j ≤ 7 then some (s.coord s.node.id (j - 5))
  else if 0x7010 ≤ i ∧ i < 0x7016 ∧ j = 9 then some (s.recentFlaps n).length
  else if 0x7010 ≤ i ∧ i < 0x7016 ∧ j = 0x0A then
    some (if s.rd (O.portLinkState n) = 6 then ((s.tport n).holdUntil - s.now + 999999) / 1000000 else 0)
  else if k = O.timeState ∧ s.rd O.timeParent = 0xFF then some 4
  else none

/-- Values of the indexes 0x8000 to 0x8FFF that are not held in the store: the clip list's length, the oldest held input, the ingest MACs
(Tables 13.12 to 13.14). -/
def view8 (s : State) (i j k : Nat) : Option Nat :=
  if k = O.clipListEntries then some s.data.clips.length
  else if k = O.heldFirstU then some (s.heldInputs.head?.elim (2 ^ 64 - 1) (fun h => h.cand.first))
  else if (i = 0x8011 ∨ i = 0x8012) ∧ j = 1 then some (s.fuses.ingestMac.getD (i - 0x8011) 0)
  else none

/-- Values of the indexes 0x9000 to 0x9FFF that are not held in the store: effective timeouts and the pending reports (Tables 16.11, 16.12). -/
def view9 (s : State) (i j k : Nat) : Option Nat :=
  if i = 0x9021 then some (s.effectiveTimeout (j - 1))
  else if k = O.reportsPending then some s.faults.reports.length
  else none

/-- The value of an object that is not held in the store, by its index range; counters of a Bent that is off read their defaults (R466). -/
def viewValue (s : State) (k : Nat) : Option Nat :=
  let i := keyIndex k
  let j := keySub k
  match i / 0x1000 with
  | 0 => some (typeSizeOf i)
  | 1 => view1 s i j k
  | 2 => view2 s i j k
  | 3 => view3 s k
  | 4 => view4 s i j
  | 5 => view5 s i j k
  | 6 => view6 s i j k
  | 7 => view7 s i j k
  | 8 => view8 s i j k
  | 9 => view9 s i j k
  | 0xA => (counterBent k).elim none (fun b => if s.bentOn b then none else some (objDefault k))
  | 0xB => if 0xB020 ≤ i ∧ i < 0xB024 ∧ j = 2 then some (s.cache (i - 0xB020)).lines.length else none
  | _ => none

/-- The value of a numeric object (R51): subindex 00 holds the highest subindex present (R45). -/
def State.readNat (s : State) (k : Nat) : Nat :=
  if keySub k = 0 then highestSub (keyIndex k) else (viewValue s k).getD (s.rd k)

/-- The payload of a read of a numeric object of `n` bytes: a count past its type reads an open value (log entry 9, DESIGN CHOICE). -/
def State.readValue (s : State) (k n : Nat) : Bytes :=
  let v := s.readNat k
  natLe n (if v < 2 ^ (8 * n) then v else Config.freeCount k (8 * n) v)

/-- The size in bytes of a DOMAIN object. -/
def domSize (k : Nat) : Nat :=
  let i := keyIndex k
  if k = O.frameTrace then 1536
  else if k = O.servicePublicKey ∨ k = O.firmwarePublicKey then 32
  else if k = O.bootImageA ∨ k = O.bootImageB then 67108864
  else if isBentObj 0x0A k then 524288
  else if isBentObj 0x25 k ∨ isBentObj 0x28 k then 256
  else if k = O.allocRequest ∨ i = 0x8011 ∨ i = 0x8012 then 16
  else if 0x6030 ≤ i ∧ i < 0x6040 then 384
  else if (0x6210 ≤ i ∧ i < 0x6220) ∨ i = 0x8013 ∨ i = 0x8014 ∨ k = O.faultLogStored ∨ (0xA100 ≤ i ∧ i < 0xA130) then 4096
  else if (0x6230 ≤ i ∧ i < 0x6240) ∨ (0x5020 ≤ i ∧ i < 0x5030) ∨ (0x5420 ≤ i ∧ i < 0x5430) ∨ k = O.implications then 1024
  else if 0x6220 ≤ i ∧ i < 0x6230 then 1536
  else if (0x5100 ≤ i ∧ i < 0x5120) ∨ k = O.lastReport ∨ k = O.faultReport then 64
  else if k = O.clipList then 524288
  else if k = O.regionTable then 512
  else if k = O.dropLog then 8192
  else if k = O.faultLog then 65536
  else if k = O.reportLog then 16384
  else 0

/-- The last `n` records of `size` bytes as a DOMAIN reads them: the newest in the last position, zeros in front (R497). -/
def logBytes (records : List Bytes) (n size : Nat) : Bytes :=
  List.replicate ((n - records.length) * size) 0#8 ++ (takeLast n records).flatten

/-- QUEUE_HEAD (Table 8.10): the head's header and the first 128 bytes of its payload; for COMBINING the header of the oldest incomplete
round. -/
def State.queueHead (s : State) (q : Nat) : Bytes :=
  let v := s.queue q
  let w := s.qword q
  let full := fun (b : Bytes) => b ++ List.replicate (256 - b.length) 0#8
  if qKind w = 1 then
    match v.rounds with
    | [] => full []
    | r :: _ => full (s.slotHeader q r.slot)
  else
    match v.messages with
    | [] => full []
    | m :: _ => full (s.slotHeader q m.slot ++ (s.slotPayload q m.slot).take 128)

/-- The implications table as it reads (Table 16.11). -/
def implicationBytes (l : List Implication) : Bytes :=
  let b := l.flatMap (fun e => natLe 4 e.suspect ++ natLe 4 e.count ++ natLe 8 e.last)
  b ++ List.replicate (1024 - b.length) 0#8

/-- An entry of QP_TABLE as it reads (Table 13.2): QP_VALID 2 after ERROR, and LOCAL_QPN. -/
def State.qpBytes (s : State) (port e : Nat) : Bytes :=
  let b := (s.dom (O.qpTable port)).bytes 0#8 (64 * e) 64
  let failed := (s.data.qps.get QueuePair.fresh (64 * port + e)).failed
  (if failed then natLe 1 2 else b.take 1) ++ (b.drop 1).take 3 ++ natLe 4 (0x100 + 64 * port + e) ++ b.drop 8

/-- Entry `e` of CLIP_LIST: all ones where it is not in use (Table 13.12). -/
def State.clipBytes (s : State) (e : Nat) : Bytes := natLe 8 (((s.data.clips[e]?).map Prod.fst).getD (2 ^ 64 - 1))

/-- Bytes `off` to `off + n - 1` of a table of entries of `size` bytes. -/
def entryBytes (f : Nat → Bytes) (size off n : Nat) : Bytes :=
  (((natsFrom (off / size) ((n + 2 * size - 1) / size)).flatMap f).drop (off % size)).take n

/-- The whole content of a DOMAIN object that is built from other state; none where its bytes are held (R58). -/
def State.domBuilt (s : State) (k : Nat) : Option Bytes :=
  if k = O.frameTrace then some (logBytes s.mgmt.trace 64 24)
  else if k = O.servicePublicKey then some s.fuses.serviceKey
  else if k = O.firmwarePublicKey then some s.fuses.firmwareKey
  else if isBentObj 0x25 k then some (s.queueHead (keyCore k))
  else if isBentObj 0x28 k then some (s.endpointTable (keyCore k))
  else if 0x6230 ≤ keyIndex k ∧ keyIndex k < 0x6240 then
    some ((natsFrom 0 256).flatMap (fun n => natLe 4 ((s.slot (keyIndex k - 0x6230)).powers.get 0x3F800000 n)))
  else if k = O.implications then some (implicationBytes s.faults.implications)
  else if k = O.faultLog then some (logBytes s.faults.log 1024 64)
  else if k = O.faultLogStored then some (logBytes s.faults.stored 64 64)
  else if k = O.reportLog then some (logBytes s.faults.delivered 256 64)
  else if k = O.lastReport then some (logBytes s.faults.delivered 1 64)
  else if k = O.dropLog then some (logBytes s.data.drops 256 32)
  else if 0xA100 ≤ keyIndex k ∧ keyIndex k < 0xA130 then
    some ((natsFrom 0 64).flatMap (fun n => (s.bent (keyIndex k - 0xA100)).tags.get (List.replicate 64 0#8) n))
  else none

/-- The content of a DOMAIN object from offset `off`, `n` bytes (R58). -/
def State.readDom (s : State) (k off n : Nat) : Bytes :=
  match s.domBuilt k with
  | some b => (b.drop off).take n
  | none =>
    if isBentObj 0x0A k then (s.core (keyCore k)).mem.bytes 0#8 off n
    else if keyIndex k = 0x8013 ∨ keyIndex k = 0x8014 then entryBytes (s.qpBytes (keyIndex k - 0x8013)) 64 off n
    else if k = O.clipList then entryBytes s.clipBytes 8 off n
    else (s.dom k).bytes 0#8 off n

/-- Whether a DOMAIN object has the same content in two states. -/
def domSame (s t : State) (k : Nat) : Bool :=
  match s.domBuilt k with
  | some b => decide (some b = t.domBuilt k)
  | none =>
    if isBentObj 0x0A k then decide ((s.core (keyCore k)).mem = (t.core (keyCore k)).mem)
    else if k = O.clipList then decide (s.data.clips = t.data.clips)
    else if keyIndex k = 0x8013 ∨ keyIndex k = 0x8014 then
      decide (s.readDom k 0 4096 = t.readDom k 0 4096)
    else decide (s.dom k = t.dom k)

/-- Whether the type of an object's row is DOMAIN. -/
def keyIsDom (k : Nat) : Bool := (rowOf k).elim false (fun r => decide (r.type = .dom))

/-- Whether an object reads the same in two states. -/
def objSame (s t : State) (k : Nat) : Bool :=
  if keyIsDom k then domSame s t k
  else if k = O.walkReasonText then decide (s.rd O.walkReason = t.rd O.walkReason)
  else decide (s.readNat k = t.readNat k)

/-- Mark the subscriptions whose object changed between two states (R62). -/
def noteSession (s t : State) (e : Session) : Session :=
  { e with subs := e.subs.map (fun b => if objSame s t b.key then b else { b with dirty := true }) }

/-- The later state with every subscription whose object changed marked (R62). -/
def noteChanges (s t : State) : State :=
  { t with mgmt := { t.mgmt with sessions := t.mgmt.sessions.map (noteSession s t) } }

/-- The outcome of a command that took the state from `s` to `t`: the partners and the subscribers learn what changed. -/
def done (s t : State) : Host.Outcome State Fault Refusal := .next (noteChanges s (noteTorus s t.walkDue))

end Sys2Proof.Machine
end

