-- ==== Sys2Proof/Machine/Issue.lean ====
section
/-! DEFINITION. Issue (R98-R103): the one operation by which every descriptor row judges and issues the descriptor at DPTR; the
row supplies what its opcode checks and does. -/

namespace Sys2Proof.Machine

/-- What an opcode's operand fields come to at issue: whether they are invalid, the X registers and tiles they read or write
(for R99), the fault the unit's own checks give (0 none), and the address of the next descriptor. -/
structure Plan where
  invalid : Bool
  xs      : List Nat
  tiles   : List Nat
  fault   : Nat
  next    : Int

/-- X registers that an incomplete descriptor writes. -/
def Issued.xWrites (i : Issued) : List Nat :=
  let op := dOp i.desc
  if op = 0x1A then [selReg (byteField i.desc 9 1)]
  else if 0x70 ≤ op ∧ op ≤ 0x73 ∧ selUse (byteField i.desc 10 1) then [selReg (byteField i.desc 10 1)]
  else []

/-- Tiles that an incomplete descriptor writes. -/
def Issued.tileWrites (i : Issued) : List Nat :=
  let op := dOp i.desc
  if op = 0x10 then [byteField i.desc 34 1 % 4]
  else if op = 0x18 then (natsFrom 0 4).filter (fun t => (byteField i.desc 8 1).testBit t)
  else []

/-- Whether an earlier descriptor whose effects are not complete writes a register or tile of these (R99). -/
def Core.hazard (k : Core) (xs tiles : List Nat) : Bool :=
  k.inflight.any (fun i => decide (i.stage ≠ .complete)
    && (i.xWrites.any (fun x => xs.contains x) || i.tileWrites.any (fun t => tiles.contains t)))

/-- Whether a unit has room: one descriptor in execution and a queue of 4 (R99). A descriptor holds its place until its effects are complete, a
SEND that waits for its acceptance too (log entry 109, DESIGN CHOICE). -/
def Core.room (k : Core) (unit : Nat) : Bool :=
  decide (unit = 0) ||
    decide ((k.inflight.filter (fun i => decide (i.stage ≠ .complete) && decide (opUnit (dOp i.desc) = unit))).length < 5)

/-- The tag of a descriptor at issue (R469, R470): the state that has stepped, and the tag when it is taken. -/
def State.tagAt (s : State) (c : Nat) (d : Bytes) (addr : Nat) : State × Option Tag :=
  let n := s.rd O.tagShift
  if n = 0 ∨ dTag d = false then (s, none)
  else
    let k := s.core c
    let v := tagNext k.tagState
    let t := s.setCore c { k with tagState := v }
    if v % 2 ^ n ≠ 0 then (t, none)
    else if k.inflight.any (fun i => i.tag.isSome) then (t.add (O.tagsMissed (c / 64)) 1, none)
    else (t.pc c 0x13 1, some ⟨dOp d, dSeq d, addr, (k.xr 2).toNat % 2 ^ 32, t.coreCycles c, none⟩)

/-- Whether a descriptor issues only when every earlier one has retired: FENCE in its FLAGS, HALT and FENCE (R99, Table 5.5). -/
def waitsAll (d : Bytes) : Bool := dFence d || decide (dOp d = 0x01) || decide (dOp d = 0x04)

/-- Issue the descriptor at DPTR when it is the row's (R96-R103). A reserved opcode is an invalid descriptor at whichever row it is
met. The state is unchanged while a condition of R99 does not hold. `effect` gets the core as it was before issue. A fault of
the unit's own checks comes before BAD_TARGET (log entry 113, DESIGN CHOICE), and the limit of the descriptor watchdog is the one in force at issue
(log entry 114, DESIGN CHOICE). -/
def State.issue (s : State) (c op : Nat) (plan : State → Nat → Bytes → Plan) (effect : State → Core → Bytes → State) : State :=
  let k := s.core c
  let d := k.mem.bytes 0#8 k.dptr 64
  if !k.runs || k.pending.isSome || !(decide (dOp d = op) || opReserved (dOp d)) || !k.waitMet
      || (waitsAll d && !k.inflight.isEmpty) || decide (8 ≤ k.inflight.length) then s
  else if opReserved (dOp d) || decide (field (dFlags d) 0 5 ≠ 0) then s.faultNext c 0x01 d
  else
    let p := plan s c d
    if !k.room (opUnit op) || k.hazard p.xs p.tiles then s
    else if p.invalid then s.faultNext c 0x01 d
    else if p.fault ≠ 0 then s.faultNext c p.fault d
    else if p.next < 0 ∨ 0x7FFC0 < p.next then s.faultNext c 0x05 d
    else
      let (t, tag) := s.tagAt c d k.dptr
      let now := opUnit op = 0 ∨ opUnit op = 2
      let tag := if now then tag.map (fun g => { g with ended := some g.issue }) else tag
      let i : Issued := { addr := k.dptr, desc := d, x := k.x, rng := k.rng, seed := t.rd (O.rngSeed (c / 64)),
                          stage := if now then .complete else .queued, shadow := none, credit := [],
                          due := t.now + t.rd (O.wdLimit (c / 64)), ring := none, tag := tag, reads := [], asked := none, came := [], paid := false, sample := none }
      let t := t.modCore c (fun k =>
        { k with state := .running, waitDue := none, dptr := p.next.toNat, inflight := k.inflight ++ [i],
                 flags := if dClear d then (k.clearFlags (dWait d)).flags else k.flags })
      effect (t.pc c 0x02 1) k d

/-- The plan of a descriptor that is valid, checks nothing more and falls through. -/
def Plan.plain (s : State) (c : Nat) : Plan := ⟨false, [], [], 0, (s.core c).dptr + 64⟩

/-- A row whose operand is a core: no core above 3,071 exists (R14). -/
def coreRow (c : Nat) (s t : State) : Host.Outcome State Fault Refusal := if 3072 ≤ c then .fault .noSuchUnit else done s t

end Sys2Proof.Machine
end

