-- ==== Sys2Proof/Machine/MatrixMath.lean ====
section
/-! DEFINITION. The arithmetic of the matrix engine (R119-R134): the operand fields of an MM, its panels and scales, one pass over
the slabs, range events and rescale-retry. -/

namespace Sys2Proof.Machine

/-! ### Operand fields (Table 6.2) -/

/-- Format code of A. -/
def mmFmtA (d : Bytes) : Nat := field (byteField d 30 1) 4 4
/-- Format code of B. -/
def mmFmtB (d : Bytes) : Nat := field (byteField d 30 1) 0 4
/-- Block code of A: 0 unscaled, 1 blocks of 16, 2 blocks of 32. -/
def mmBlkA (d : Bytes) : Nat := field (byteField d 31 1) 6 2
/-- Block code of B. -/
def mmBlkB (d : Bytes) : Nat := field (byteField d 31 1) 4 2
/-- K. -/
def mmK (d : Bytes) : Nat := byteField d 32 2
/-- The tile. -/
def mmTile (d : Bytes) : Nat := byteField d 34 1 % 4
/-- ZERO. -/
def mmZero (d : Bytes) : Bool := (byteField d 34 1).testBit 2
/-- COMP. -/
def mmComp (d : Bytes) : Bool := (byteField d 34 1).testBit 3
/-- CHAIN_IN. -/
def mmChainIn (d : Bytes) : Bool := (byteField d 34 1).testBit 4
/-- CHAIN_OUT. -/
def mmChainOut (d : Bytes) : Bool := (byteField d 34 1).testBit 5
/-- CHAIN_NEXT. -/
def mmNext (d : Bytes) : Nat := byteField d 35 1
/-- Retries permitted. -/
def mmRetries (d : Bytes) : Nat := 2 - field (byteField d 36 1) 6 2
/-- Margin, 1 to 8. -/
def mmMargin (d : Bytes) : Nat := field (byteField d 36 1) 3 3 + 1
/-- INT_EXP as a byte. -/
def mmIntExp (d : Bytes) : Nat := byteField d 37 1

/-- The format codes are accumulated through: the one that is not KI4 (R120). -/
def mmFmt (d : Bytes) : Nat := if mmFmtA d = 8 then mmFmtB d else mmFmtA d
/-- Whether the accumulation is integer (R120). -/
def mmInt (d : Bytes) : Bool := decide (mmFmt d = 7)
/-- KIND of the tile an MM writes (Table 6.4): 1 FLOAT, 2 FLOAT_COMP, 3 INT. -/
def mmKind (d : Bytes) : Nat := if mmInt d then 3 else if mmComp d then 2 else 1

/-- Bits of a format code's elements. -/
def codeBits (f : Nat) : Nat := ((Fmt.ofCode f).map Fmt.bits).getD 0
/-- Elements per block of a block code; 0 unscaled. -/
def blkSize (b : Nat) : Nat := if b = 1 then 16 else if b = 2 then 32 else 0
/-- Bytes of one scale entry: two for KI4 (R123). -/
def entrySize (f : Nat) : Nat := if f = 8 then 2 else 1
/-- Bytes of a scale array (R123). -/
def scaleBytes (f blk k : Nat) : Nat := if blkSize blk = 0 then 0 else 32 * (k / blkSize blk) * entrySize f
/-- Bytes of a table set (R123). -/
def tableBytes (d : Bytes) : Nat := 256 * 16 * codeBits (mmFmt d) / 8

/-- Whether a format and its block code go together (R121). -/
def blkOk (f b : Nat) : Bool :=
  decide (b ≠ 3) && !(decide (f ≤ 2) && decide (b ≠ 0)) && !((decide (f = 5) || decide (f = 6) || decide (f = 8)) && decide (b = 0))
    && !(decide (f = 8) && decide (b ≠ 2))

/-- The five panel and array addresses of an MM after their selectors: A, B, SA, SB, table (R100). -/
def mmAddrs (x : Map W64) (d : Bytes) : List Nat :=
  [addrOf x (byteField d 8 4) (byteField d 28 1), addrOf x (byteField d 12 4) (byteField d 29 1),
   addrOf x (byteField d 16 4) (byteField d 42 1), addrOf x (byteField d 20 4) (byteField d 43 1), byteField d 24 4]

/-- Whether an MM's fields make it invalid (R97, R121), at own core index `own`. -/
def mmInvalid (x : Map W64) (own : Nat) (d : Bytes) : Bool :=
  let fa := mmFmtA d
  let fb := mmFmtB d
  let k := mmK d
  let a := mmAddrs x d
  let four := decide (fa = 8) || decide (fb = 8)
  !([28, 29, 42, 43].all (fun i => selOk (byteField d i 1))) || !zeroBytes d 44 64
    || decide (8 < fa) || decide (8 < fb) || !(decide (fa = fb) || four) || (decide (fa = 8) && decide (fb = 8))
    || !blkOk fa (mmBlkA d) || !blkOk fb (mmBlkB d) || decide (field (byteField d 31 1) 0 4 ≠ 0)
    || decide (k < 32) || decide (4096 < k) || decide (k % 32 ≠ 0)
    || decide (byteField d 38 2 % 64 ≠ 0) || decide (byteField d 40 2 % 64 ≠ 0)
    || decide (byteField d 38 2 < k * codeBits fa / 8) || decide (byteField d 40 2 < k * codeBits fb / 8)
    || (natsFrom 0 5).any (fun i => decide (a.getD i 0 % 64 ≠ 0))
    || (mmInt d && mmComp d) || decide (mmIntExp d ≠ 0)
    || (mmChainIn d && mmZero d) || (mmChainOut d && decide (mmNext d = own)) || decide (63 < mmNext d)
    || decide (64 ≤ byteField d 34 1) || decide (field (byteField d 36 1) 6 2 = 3) || decide (field (byteField d 36 1) 0 3 ≠ 0)

/-- Whether a panel, scale array or table set of an MM leaves its space (R121, Table 6.2). -/
def mmOutside (x : Map W64) (d : Bytes) : Bool :=
  let a := mmAddrs x d
  let k := mmK d
  let four := decide (mmFmtA d = 8) || decide (mmFmtB d = 8)
  !(inCore (a.getD 0 0) (31 * byteField d 38 2 + k * codeBits (mmFmtA d) / 8))
    || !(inCore (a.getD 1 0) (31 * byteField d 40 2 + k * codeBits (mmFmtB d) / 8))
    || (decide (mmBlkA d ≠ 0) && !inCore (a.getD 2 0) (scaleBytes (mmFmtA d) (mmBlkA d) k))
    || (decide (mmBlkB d ≠ 0) && !inCore (a.getD 3 0) (scaleBytes (mmFmtB d) (mmBlkB d) k))
    || (four && !inLocal (a.getD 4 0) (tableBytes d))

/-- Whether a tile's status conflicts with an MM's kind, COMP or INT_EXP (R125, R135). -/
def tileConflict (status : Nat) (d : Bytes) : Bool :=
  decide (field status 6 2 ≠ 0) && (decide (field status 6 2 ≠ mmKind d) || decide (field status 24 8 ≠ mmIntExp d))

/-! ### Panels (R122, R123) -/

/-- One element of a panel: its value before the block's factor, and the X8 scale of its block. -/
structure Elem where
  value : Num
  scale : Nat

/-- What an MM reads: core memory and, for the table set, the Bent memory (R122, R123). -/
structure Reads where
  mem  : Map Byte
  bent : Map Byte

/-- The byte at a core's own address. -/
def Reads.bytes (r : Reads) (a n : Nat) : Bytes :=
  if inBent a n then r.bent.bytes 0#8 (a - bentBase) n else r.mem.bytes 0#8 a n

/-- Line `i` of a panel: its K elements with their scales (R122, R123). -/
def panelLine (r : Reads) (f blk other base stride sbase tbl k i : Nat) : List Elem :=
  match Fmt.ofCode f, Fmt.ofCode other with
  | some ff, some fo =>
    let codes := unpackElems ff (r.bytes (base + i * stride) (ff.bytesOf k)) k
    let bs := blkSize blk
    let n := if bs = 0 then 0 else k / bs
    let es := entrySize f
    let scales := r.bytes (sbase + i * n * es) (n * es)
    codes.mapIdx (fun j c =>
      let e := if bs = 0 then 0x7F else byteField scales ((j / bs) * es) 1
      if f = 8 then
        let t := byteField scales ((j / bs) * es + 1) 1
        let tb := 16 * fo.bits / 8
        ⟨fo.decode ((unpackElems fo (r.bytes (tbl + t * tb) tb) 16).getD c 0), e⟩
      else ⟨ff.decode c, e⟩)
  | _, _ => []

/-- The 32 lines of panel A. -/
def panelA (x : Map W64) (r : Reads) (d : Bytes) : List (List Elem) :=
  let a := mmAddrs x d
  (natsFrom 0 32).map (fun i =>
    panelLine r (mmFmtA d) (mmBlkA d) (mmFmt d) (a.getD 0 0) (byteField d 38 2) (a.getD 2 0) (a.getD 4 0) (mmK d) i)

/-- The 32 columns of panel B. -/
def panelB (x : Map W64) (r : Reads) (d : Bytes) : List (List Elem) :=
  let a := mmAddrs x d
  (natsFrom 0 32).map (fun i =>
    panelLine r (mmFmtB d) (mmBlkB d) (mmFmt d) (a.getD 1 0) (byteField d 40 2) (a.getD 3 0) (a.getD 4 0) (mmK d) i)

/-! ### One slab of a cell (R126-R131) -/

/-- The product of two elements with their scales; a NaN scale makes it NaN (R89, R126). -/
def elemMul (a b : Elem) : Num :=
  if a.scale = 255 ∨ b.scale = 255 then .nan false
  else ((a.value.mul b.value).1).shift ((a.scale : Int) + (b.scale : Int) - 254)

/-- The exact contribution of a slab before 2^-k (R126). -/
def slabSum (as bs : List Elem) : Num :=
  match (as.zip bs).map (fun p => elemMul p.1 p.2) with
  | [] => .fin false 0 0
  | p :: ps => ps.foldl (fun a b => (a.add b).1) p

/-- An integer contribution before 2^-k: the exact integer dot product and exponent of each run of elements under one pair of
scales; none when a scale is 0xFF (R129). `run` is the smaller block size. -/
def intRuns (run : Nat) (as bs : List Elem) : Nat → Option (List (Int × Int))
  | 0 => some []
  | n + 1 =>
    match as, bs with
    | a :: _, b :: _ =>
      if a.scale = 255 ∨ b.scale = 255 then none
      else
        let p := ((as.take run).zip (bs.take run)).foldl (fun (t : Int) e =>
          match e.1.value, e.2.value with
          | .fin na ma _, .fin nb mb _ => if na = nb then t + (ma * mb : Nat) else t - (ma * mb : Nat)
          | _, _ => t) 0
        (intRuns run (as.drop run) (bs.drop run) n).map (fun r => (p, (a.scale : Int) + (b.scale : Int) - 254) :: r)
    | _, _ => some []

/-- Round p × 2^e to an integer with ties to even. -/
def rneInt (p : Int) (e : Int) : Int :=
  let r := (roundMag p.natAbs e 0 .rne).1
  if p < 0 then -(r : Int) else (r : Int)

/-- An exact value rounded to 24 bits with the exponent range unbounded (R131). -/
def roundWide (x : Num) : Num :=
  match x with
  | .fin n m e =>
    if m = 0 then .fin n 0 e
    else
      let q := topExp m e - 23
      .fin n (roundMag m e q .rne).1 q
  | y => y

/-- rn() as a value. -/
def rnValue (x : Num) : Num := f32 (toF32 x).1

/-- Whether a finite exact value reaches the magnitude that rounds to infinity (R131). -/
def reaches (x : Num) : Bool :=
  match x with
  | .fin _ m e => decide (m ≠ 0) && !(Num.lt (.fin false m e) (.fin false (2 ^ 25 - 1) 103))
  | _ => false

/-- R127's update of a cell with a rounding `rn`: the new s and e, and the exact values it rounds. -/
def floatStep (comp : Bool) (rn : Num → Num) (s e d : Num) : Num × Num × List Num :=
  if comp then
    let h := rn d
    let dl := (d.add h.neg).1
    let l := rn dl
    let x := (s.add h).1
    let t := rn x
    let r := (x.add t.neg).1
    let y := ((e.add r).1.add l).1
    match t with
    | .fin _ _ _ => (t, rn y, [d, dl, x, y])
    | _ => (t, .fin false 0 0, [d, dl, x, y])
  else
    let x := (s.add d).1
    (rn x, e, [x])

/-- A cell during a pass: bounded s and e, the unbounded pair once it differs, the values of V, flushes. -/
structure Cell where
  s     : Num
  e     : Num
  wide  : Option (Num × Num)
  vs    : List Num
  flush : Nat

/-- A contribution below 2^-149 is replaced by a zero of its sign (R128): the value and whether it was flushed. -/
def flushTiny (d : Num) : Num × Nat :=
  match d with
  | .fin n m e => if m ≠ 0 ∧ Num.lt (.fin false m e) (.fin false 1 (-149)) then (.fin n 0 0, 1) else (d, 0)
  | _ => (d, 0)

/-- One float slab at a cell (R127, R128, R131). With an error term, a sum of terms that are not all finite is what the terms say, whatever the
finite ones round to (R88): the unbounded sum overflows nowhere. -/
def floatSlab (comp : Bool) (k : Nat) (c : Cell) (sum : Num) : Cell :=
  let (d, fl) := flushTiny (sum.shift (-(k : Int)))
  let w := c.wide.getD (c.s, c.e)
  let u := floatStep comp roundWide w.1 w.2 d
  let b := floatStep comp rnValue c.s c.e d
  let b := if comp && !u.1.finite then (u.1, .fin false 0 0, b.2.2) else b
  let hit := if w.1.finite && w.2.finite && d.finite then u.2.2.filter reaches else []
  { s := b.1, e := b.2.1, wide := if hit.isEmpty ∧ c.wide.isNone then none else some (u.1, u.2.1),
    vs := c.vs ++ hit.map roundWide, flush := c.flush + fl }

/-- An integer cell during a pass: bounded sum, NaN mark, unbounded sum, V. -/
structure ICell where
  s    : Int
  nan  : Bool
  wide : Int
  vs   : List Int

/-- One integer slab at a cell (R129, R131). -/
def intSlab (k : Nat) (q : Int) (c : ICell) (runs : Option (List (Int × Int))) : ICell :=
  if c.nan then c
  else
    match runs with
    | none => { s := 0, nan := true, wide := 0, vs := c.vs }
    | some rs =>
      let v := (rs.map (fun r => rneInt r.1 (r.2 - (k : Int) - q))).sum
      let x := c.s + v
      let w := c.wide + v
      if x < -2147483648 then { s := -2147483648, nan := false, wide := w, vs := c.vs ++ [w] }
      else if 2147483647 < x then { s := 2147483647, nan := false, wide := w, vs := c.vs ++ [w] }
      else { s := x, nan := false, wide := w, vs := c.vs }

/-- The slabs of two lines: 32 elements each. -/
def slabs {α : Type} (l : List α) : Nat → List (List α)
  | 0 => []
  | n + 1 => l.take 32 :: slabs (l.drop 32) n

/-! ### Passes and retry (R131-R134) -/

/-- The stored words of a cell of a tile. -/
structure Words where
  s : W32
  e : W32
deriving DecidableEq

/-- What a pass came to: the words, V as exact values, flushes, whether some cell is not finite. -/
structure Pass where
  cells : List Words
  vs    : List Num
  flush : Nat
  odd   : Bool

/-- One pass over the cells from their starting words at SHIFT k (R126-R131). Where no integer operand is scaled, a slab of 32 is one block for rne()
(R129; log entry 115, DESIGN CHOICE). -/
def mmPass (d : Bytes) (a b : List (List Elem)) (start : List Words) (k : Nat) : Pass :=
  let n := mmK d / 32
  let run := min (if mmBlkA d = 1 then 16 else 32) (if mmBlkB d = 1 then 16 else 32)
  let q := signed 8 (mmIntExp d)
  let cell := fun (i j : Nat) =>
    let sl := (slabs (a.getD i []) n).zip (slabs (b.getD j []) n)
    let w := start.getD (32 * i + j) ⟨0#32, 0#32⟩
    if mmInt d then
      let c := sl.foldl (fun c p => intSlab k q c (intRuns run p.1 p.2 2))
        ⟨w.s.toInt, decide (w.e ≠ 0#32), w.s.toInt, []⟩
      (⟨BitVec.ofInt 32 c.s, if c.nan then 1#32 else 0#32⟩,
        c.vs.map (fun v => Num.fin (decide (v < 0)) v.natAbs 0), 0, c.nan)
    else
      let c := sl.foldl (fun c p => floatSlab (mmComp d) k c (slabSum p.1 p.2)) ⟨f32 w.s, f32 w.e, none, [], 0⟩
      (⟨(toF32 c.s).1, (toF32 c.e).1⟩, c.vs, c.flush, !c.s.finite)
  let r : List (Words × List Num × Nat × Bool) := (natsFrom 0 1024).map (fun n => cell (n / 32) (n % 32))
  ⟨r.map (fun c => c.1), r.flatMap (fun c => c.2.1), (r.map (fun c => c.2.2.1)).sum, r.any (fun c => c.2.2.2)⟩

/-- Smallest n ≥ 1 with -2^(L+n) ≤ v < 2^(L+n) for a value (R132). -/
def needFor (l : Nat) (v : Num) : Nat :=
  match v with
  | .fin neg m e =>
    if m = 0 then 1
    else
      let t := topExp m e
      let exact := decide (m = 2 ^ Nat.log2 m)
      let need := if neg && exact then t - (l : Int) else t + 1 - (l : Int)
      if need < 1 then 1 else need.toNat
  | _ => 1

/-- Scale the shadow's words by 2^-x (R134): the words and the flushes. -/
def scaleShadow (int : Bool) (x : Nat) (ws : List Words) : List Words × Nat :=
  if int then (ws.map (fun w => ⟨BitVec.ofInt 32 (rneInt w.s.toInt (-(x : Int))), w.e⟩), 0)
  else
    let one := fun (v : W32) =>
      match f32 v with
      | .fin n m e =>
        let p := flushTiny (.fin n m (e - (x : Int)))
        ((toF32 p.1).1, p.2)
      | _ => (v, 0)
    let r := ws.map (fun w => (one w.s, one w.e))
    (r.map (fun p => ⟨p.1.1, p.2.1⟩), (r.map (fun p => p.1.2 + p.2.2)).sum)

/-- What the loop of R132 came to. -/
structure Result where
  cells   : List Words
  shift   : Nat
  retries : Nat
  event   : Bool
  ranged  : Bool
  flush   : Nat
  odd     : Bool

/-- The retry loop (R132, R133) after a pass: `left` retries are still permitted. -/
def retryLoop (d : Bytes) (a b : List (List Elem)) (shadow : List Words) (k done extra : Nat) (p : Pass) : Nat → Result
  | 0 => ⟨p.cells, k, done, !p.vs.isEmpty, !p.vs.isEmpty, p.flush + extra, p.odd⟩
  | left + 1 =>
    if p.vs.isEmpty then ⟨p.cells, k, done, false, false, p.flush + extra, p.odd⟩
    else
      let x := (p.vs.map (needFor (if mmInt d then 31 else 127))).foldl max 1
      let k' := k + x + mmMargin d
      if 255 < k' then ⟨p.cells, k, done, true, true, p.flush + extra, p.odd⟩
      else
        let (sh, fl) := scaleShadow (mmInt d) (k' - k) shadow
        let r := retryLoop d a b sh k' (done + 1) fl (mmPass d a b sh k') left
        { r with ranged := true }

/-- The words of a tile, row by row. -/
def tileWords (t : Tile) : List Words := (natsFrom 0 1024).map (fun n => ⟨t.s.get 0#32 n, t.e.get 0#32 n⟩)

/-- A table of words from a list of 1,024. -/
def wordsMap (f : Words → W32) (ws : List Words) : Map W32 := ⟨((natsFrom 0 1024).zip (ws.map f)).filter (fun p => decide (p.2 ≠ 0#32))⟩

/-- The whole of an MM over a starting tile (R125-R134): the tile it leaves, its retries, whether an event stood, its flushes. -/
def mmRun (x : Map W64) (r : Reads) (d : Bytes) (t : Tile) : Tile × Nat × Bool × Nat :=
  let a := panelA x r d
  let b := panelB x r d
  let ws := tileWords t
  let k := field t.status 16 8
  let o := retryLoop d a b ws k 0 0 (mmPass d a b ws k) (mmRetries d)
  let bit := fun (n : Nat) (c : Bool) => if c || t.status.testBit n then 2 ^ n else 0
  let st := mmIntExp d * 2 ^ 24 + o.shift * 2 ^ 16 + mmKind d * 2 ^ 6 + bit 5 o.ranged + bit 4 (decide (o.flush ≠ 0)) + o.retries * 4
    + bit 1 o.event + bit 0 o.odd
  (⟨wordsMap Words.s o.cells, wordsMap Words.e o.cells, st⟩, o.retries, o.event, o.flush)

/-- Multiply-accumulates of one pass of an MM. -/
def mmMacs (d : Bytes) : Nat := 1024 * mmK d

end Sys2Proof.Machine
end

