-- ==== Sys2Proof/Machine/Random.lean ====
section
/-! DEFINITION. The generator of R162, the packing of Table 7.5 and the word of an element (R163, R164). -/

namespace Sys2Proof.Machine

/-- Upper 32 bits of a product. -/
def mulHi (a b : Nat) : Nat := a * b / 2 ^ 32 % 2 ^ 32
/-- Lower 32 bits of a product. -/
def mulLo (a b : Nat) : Nat := a * b % 2 ^ 32

/-- A counter or a result of the generator: four 32-bit words. -/
structure Quad where
  a : Nat
  b : Nat
  c : Nat
  d : Nat
deriving DecidableEq, Repr

/-- The rounds of Philox-4×32 that remain, with the key for the next one (R162). -/
def philoxRounds (k0 k1 : Nat) (q : Quad) : Nat → Quad
  | 0 => q
  | n + 1 =>
    philoxRounds ((k0 + 0x9E3779B9) % 2 ^ 32) ((k1 + 0xBB67AE85) % 2 ^ 32)
      ⟨mulHi 0xCD9E8D57 q.c ^^^ q.b ^^^ k0, mulLo 0xCD9E8D57 q.c, mulHi 0xD2511F53 q.a ^^^ q.d ^^^ k1, mulLo 0xD2511F53 q.a⟩ n

/-- Philox-4×32 with 10 rounds (R162). -/
def philox (k0 k1 : Nat) (q : Quad) : Quad := philoxRounds k0 k1 q 10

/-- The counter of an element's call (Table 7.5). -/
def rngCounter (stream tensor step micro elem : Nat) : Quad :=
  let block := elem % 2 ^ 40 / 4
  ⟨block % 2 ^ 32, (micro % 2 ^ 12) * 2 ^ 20 + (tensor % 2 ^ 14) * 2 ^ 6 + block / 2 ^ 32 % 2 ^ 6, step % 2 ^ 32, stream % 2 ^ 32⟩

/-- The random word of an element for a job seed (R163). -/
def rngWord (seed stream tensor step micro elem : Nat) : Nat :=
  let r := philox (seed % 2 ^ 32) (seed / 2 ^ 32 % 2 ^ 32) (rngCounter stream tensor step micro elem)
  match elem % 4 with
  | 0 => r.a
  | 1 => r.b
  | 2 => r.c
  | _ => r.d

/-- The word at an offset from a context's element base (R165). -/
def RngCtx.word (g : RngCtx) (seed offset : Nat) : Nat :=
  rngWord seed g.stream g.tensor g.step g.micro ((g.base + offset) % 2 ^ 40)

/-- The roundings of the elements at these offsets under a conversion control (R82, R83, R165). -/
def Conv.roundings (c : Conv) (g : RngCtx) (seed : Nat) (offsets : List Nat) : List Rnd :=
  if c.sr then offsets.map (fun o => .sr (g.word seed o % 65536)) else offsets.map (fun _ => .rne)

end Sys2Proof.Machine
end

