-- ==== Sys2Proof/Machine/VectorMath.lean ====
section
/-! DEFINITION. The arithmetic of the vector engine on lanes and elements (R150-R161): minimum and maximum, comparison, integer
conversion, quantisation, the reduction tree, normalisation statistics and softmax states. -/

namespace Sys2Proof.Machine

/-- The code of canonical NaN of an element kind. -/
def canonNan (f : Fmt) : Nat := f.nanCode

/-- Whether a value has its sign set, zeros included. -/
def Num.negative : Num → Bool := Num.sign

/-- IEEE minimum (or maximum with `mx`) of two codes of a format (R150): NaN propagates, −0 lies below +0. -/
def codeMin (f : Fmt) (mx : Bool) (a b : Nat) : Nat × Nat :=
  let x := f.decode a
  let y := f.decode b
  let fl := snanFlag x ||| snanFlag y
  if x.isNan || y.isNan then (canonNan f, fl)
  else
    let below := x.lt y || (x.eqv y && x.negative && !y.negative)
    (if below != mx then a else b, fl)

/-- minimumNumber (or maximumNumber): a NaN gives way to a number. -/
def codeMinNum (f : Fmt) (mx : Bool) (a b : Nat) : Nat × Nat :=
  let x := f.decode a
  let y := f.decode b
  let fl := snanFlag x ||| snanFlag y
  if x.isNan && y.isNan then (canonNan f, fl)
  else if x.isNan then (b, fl)
  else if y.isNan then (a, fl)
  else codeMin f mx a b

/-- A comparison of VCMP (R151): EQ, NE, LT, LE, GT, GE, UN. -/
def codeCmp (f : Fmt) (sub a b : Nat) : Bool × Nat :=
  let x := f.decode a
  let y := f.decode b
  let un := x.isNan || y.isNan
  let r := match sub with
    | 0 => x.eqv y
    | 1 => !(x.eqv y)
    | 2 => x.lt y
    | 3 => !un && (x.lt y || x.eqv y)
    | 4 => y.lt x
    | 5 => !un && (y.lt x || x.eqv y)
    | _ => un
  (r, snanFlag x ||| snanFlag y)

/-- The same comparison of signed integers; UN is false. -/
def intCmp (sub : Nat) (a b : W32) : Bool :=
  match sub with
  | 0 => decide (a = b)
  | 1 => decide (a ≠ b)
  | 2 => decide (a.toInt < b.toInt)
  | 3 => decide (a.toInt ≤ b.toInt)
  | 4 => decide (b.toInt < a.toInt)
  | 5 => decide (b.toInt ≤ a.toInt)
  | _ => false

/-- VLOGIC (Table 7.3). -/
def intLogic (sub : Nat) (a b : W32) : W32 :=
  let n := b.toNat % 32
  match sub with
  | 0 => a &&& b
  | 1 => a ||| b
  | 2 => a ^^^ b
  | 3 => a &&& ~~~b
  | 4 => a <<< n
  | 5 => a >>> n
  | _ => a.sshiftRight n

/-- convertToInteger of an FP32 value (R70). -/
def toInt32 (r : Rnd) (a : W32) : W32 × Nat :=
  match f32 a with
  | .nan _ => (0x80000000#32, flInvalid)
  | .inf n => (if n then 0x80000000#32 else 0x7FFFFFFF#32, flInvalid)
  | .fin n m e =>
    let v := (roundMag m e 0 r).1
    if n then (if 2 ^ 31 < v then (0x80000000#32, flInvalid) else (BitVec.ofInt 32 (-(v : Int)), 0))
    else if 2 ^ 31 ≤ v then (0x7FFFFFFF#32, flInvalid) else (BitVec.ofNat 32 v, 0)

/-- VCVTI (Table 7.3). -/
def cvtInt (sub : Nat) (a : W32) : W32 × Nat :=
  match sub with
  | 0 => toF32 (intNum a.toInt)
  | 1 => toInt32 .rne a
  | _ => toInt32 .rtz a

/-- The FP32 pattern of a BF16 code. -/
def bfWord (c : Nat) : W32 := BitVec.ofNat 32 (c * 65536)

/-- Arithmetic of two or three values with one rounding (R68, R73): the exact operation. -/
inductive Arith where
  | add | sub | mul | fma
deriving DecidableEq

/-- The exact result of an arithmetic operation and the flags of its operands. -/
def Arith.exact (o : Arith) (a b c : Num) : Num × Nat :=
  match o with
  | .add => a.add b
  | .sub => a.add b.neg
  | .mul => a.mul b
  | .fma => Num.fma a b c

/-- An arithmetic operation on FP32 lanes. -/
def Arith.f32 (o : Arith) (a b c : W32) : W32 × Nat :=
  let r := o.exact (Machine.f32 a) (Machine.f32 b) (Machine.f32 c)
  let v := toF32 r.1
  (v.1, r.2 ||| v.2)

/-- The same on BF16 elements (R73). -/
def Arith.bf16 (o : Arith) (a b c : Nat) : Nat × Nat :=
  let r := o.exact (Fmt.decode .bf16 a) (Fmt.decode .bf16 b) (Fmt.decode .bf16 c)
  let v := toBf16 r.1
  (v.1, r.2 ||| v.2)

/-- The same on INT32 lanes: modulo 2^32 (R151). -/
def Arith.i32 (o : Arith) (a b c : W32) : W32 :=
  match o with
  | .add => a + b
  | .sub => a - b
  | .mul => a * b
  | .fma => a * b + c

/-- The two BF16 elements of a lane. -/
def lowElem (v : W32) : Nat := v.toNat % 65536
/-- Element 2l + 1. -/
def highElem (v : W32) : Nat := v.toNat / 65536
/-- A lane from its two elements. -/
def packLane (lo hi : Nat) : W32 := BitVec.ofNat 32 (lo % 65536 + 65536 * (hi % 65536))

/-- Per-element BF16 application over a lane of three operands. -/
def onElems (g : Nat → Nat → Nat → Nat × Nat) (a b c : W32) : W32 × Nat :=
  let l := g (lowElem a) (lowElem b) (lowElem c)
  let h := g (highElem a) (highElem b) (highElem c)
  (packLane l.1 h.1, l.2 ||| h.2)

/-- VABS of a 32-bit integer: wraps. -/
def intAbs (a : W32) : W32 := if a.toInt < 0 then -a else a

/-- Split a list into runs of n. -/
def runsOf {α : Type} (n : Nat) (l : List α) : Nat → List (List α)
  | 0 => []
  | k + 1 => if l.isEmpty then [] else l.take n :: runsOf n (l.drop n) k

/-- VQUANT of 64 lanes (R152): rounded to the target and widened back. -/
def quantLanes (c : Conv) (xs : List W32) (rs : List Rnd) : List W32 × Nat :=
  let vs := xs.map f32
  if c.block = 0 then
    let o := (vs.zip rs).map (fun p =>
      let e := c.element p.1 p.2
      let w := toF32 (c.fmt.decode e.1)
      (w.1, e.2 ||| w.2))
    (o.map Prod.fst, o.foldl (fun a p => a ||| p.2) 0)
  else
    let o := ((runsOf c.block vs 64).zip (runsOf c.block rs 64)).map (fun p =>
      let b := c.blockOf p.1 p.2
      let w := b.2.1.map (fun code => toF32 (scaled b.1 (c.fmt.decode code)))
      (w.map Prod.fst, w.foldl (fun a q => a ||| q.2) b.2.2))
    (o.flatMap Prod.fst, o.foldl (fun a p => a ||| p.2) 0)

/-- What a store writes: the element bytes, the scale bytes, the flags (R153, R138). -/
def convertRun (c : Conv) (vs : List Num) (rs : List Rnd) : Bytes × Bytes × Nat :=
  if c.block = 0 then
    let o := (vs.zip rs).map (fun p => c.element p.1 p.2)
    (packElems c.fmt (o.map Prod.fst), [], o.foldl (fun a p => a ||| p.2) 0)
  else
    let o := ((runsOf c.block vs vs.length).zip (runsOf c.block rs vs.length)).map (fun p => c.blockOf p.1 p.2)
    (packElems c.fmt (o.flatMap (fun b => b.2.1)), o.map (fun b => BitVec.ofNat 8 b.1), o.foldl (fun a b => a ||| b.2.2) 0)

/-! ### Reductions (R155, R156) -/

/-- One level of the tree: neighbours combined, with their flags. -/
def pairUp (op : W32 → W32 → W32 × Nat) : List W32 → List W32 × Nat
  | a :: b :: r =>
    let x := op a b
    let y := pairUp op r
    (x.1 :: y.1, x.2 ||| y.2)
  | l => (l, 0)

/-- The tree of R155 over 2^n lanes. -/
def treeOf (op : W32 → W32 → W32 × Nat) (l : List W32) : Nat → W32 × Nat
  | 0 => (l.headD 0#32, 0)
  | n + 1 =>
    let p := pairUp op l
    let r := treeOf op p.1 n
    (r.1, p.2 ||| r.2)

/-- IEEE maximum of FP32 lanes. -/
def maxF (a b : W32) : W32 × Nat :=
  let r := codeMin .fp32 true a.toNat b.toNat
  (BitVec.ofNat 32 r.1, r.2)

/-- The operation of VREDUCE (Table 7.3). -/
def reduceOp (int : Bool) (sub : Nat) (a b : W32) : W32 × Nat :=
  if int then
    match sub with
    | 0 => (a + b, 0)
    | 1 => (if a.toInt < b.toInt then b else a, 0)
    | 2 => (if b.toInt < a.toInt then b else a, 0)
    | 3 => (if a.toInt < b.toInt then b else a, 0)
    | _ => (if b.toInt < a.toInt then b else a, 0)
  else
    let w := fun (p : Nat × Nat) => (BitVec.ofNat 32 p.1, p.2)
    match sub with
    | 0 => f32Add a b
    | 1 => w (codeMin .fp32 true a.toNat b.toNat)
    | 2 => w (codeMin .fp32 false a.toNat b.toNat)
    | 3 => w (codeMinNum .fp32 true a.toNat b.toNat)
    | _ => w (codeMinNum .fp32 false a.toNat b.toNat)

/-- The FP32 pattern of 2^-n. -/
def pow2Neg (n : Nat) : W32 := (toF32 (.fin false 1 (-(n : Int)))).1

/-- The results and flags of mapping an FP32 operation. -/
def mapFlags (op : W32 → W32 × Nat) (l : List W32) : List W32 × Nat :=
  let o := l.map op
  (o.map Prod.fst, o.foldl (fun a p => a ||| p.2) 0)

/-- VNORM_STATS of one group of 2^n lanes (R156): what DST and DST2 receive, and the flags. -/
def normStats (rms : Bool) (n : Nat) (eps : W32) (xs : List W32) : W32 × W32 × Nat :=
  let mean := fun (l : List W32) =>
    let t := treeOf f32Add l n
    let p := f32Mul t.1 (pow2Neg n)
    (p.1, t.2 ||| p.2)
  let fin := fun (first v : W32) (fl : Nat) =>
    let a := f32Add v eps
    let r := fRsqrt a.1
    (first, r.1, fl ||| a.2 ||| r.2)
  if rms then
    let q := mapFlags (fun x => f32Mul x x) xs
    let v := mean q.1
    fin v.1 v.1 (q.2 ||| v.2)
  else
    let m := mean xs
    let dl := mapFlags (fun x => f32Sub x m.1) xs
    let q := mapFlags (fun x => f32Mul x x) dl.1
    let v := mean q.1
    fin m.1 v.1 (m.2 ||| dl.2 ||| q.2 ||| v.2)

/-! ### Softmax states (R157-R160) -/

/-- A softmax state (m, s, e). -/
structure Soft where
  m : W32
  s : W32
  e : W32
deriving DecidableEq, Repr

/-- −∞. -/
def negInf : W32 := 0xFF800000#32
/-- +∞. -/
def posInf : W32 := 0x7F800000#32
/-- The canonical NaN. -/
def qNan : W32 := 0x7FC00000#32

/-- The empty state (R157). -/
def Soft.none : Soft := ⟨negInf, 0#32, 0#32⟩

/-- L of R157. -/
def softL (base2 : Bool) : W32 := if base2 then 0x3F800000#32 else 0x3FB8AA3B#32

/-- exp2f(rn(rn(z − m) × L)). -/
def softExp (l z m : W32) : W32 := (fExp2 (mulF (subF z m) l)).1

/-- Whether a lane is a NaN. -/
def nanF (a : W32) : Bool := (f32 a).isNan

/-- The state of one chunk (R158): pre-scaled values with their mask. -/
def softChunk (l : W32) (n : Nat) (xs : List (W32 × Bool)) : Soft :=
  let z := xs.map (fun p => if p.2 then p.1 else negInf)
  if xs.any (fun p => p.2 && nanF p.1) then ⟨qNan, qNan, 0#32⟩
  else
    let mc := (treeOf maxF z n).1
    if mc = negInf then ⟨negInf, 0#32, 0#32⟩
    else if mc = posInf then
      ⟨posInf, (toF32 (.fin false (z.filter (fun v => decide (v = posInf))).length 0)).1, 0#32⟩
    else ⟨mc, (treeOf f32Add (z.map (fun v => softExp l v mc)) n).1, 0#32⟩

/-- Two states merge (R159). -/
def softMerge (l : W32) (a b : Soft) : Soft :=
  if nanF a.m || nanF b.m then ⟨qNan, qNan, 0#32⟩
  else
    let m := (maxF a.m b.m).1
    if m = negInf then ⟨negInf, 0#32, 0#32⟩
    else if m = posInf then
      ⟨posInf, addF (if a.m = posInf then a.s else 0#32) (if b.m = posInf then b.s else 0#32), 0#32⟩
    else
      let fa := softExp l a.m m
      let fb := softExp l b.m m
      let p := mulF a.s fa
      let q := mulF b.s fb
      let t := addF p q
      let r := (((f32 p).add (f32 q)).1.add (f32 t).neg).1
      let e := (((f32 (mulF a.e fa)).add (f32 (mulF b.e fb))).1.add r).1
      ⟨m, t, (toF32 e).1⟩

/-- The output of a position (R160). -/
def softApply (l : W32) (x : W32) (u : Bool) (st : Soft) : W32 :=
  let z := if u then x else negInf
  if nanF st.m then qNan
  else if st.m = negInf then 0#32
  else if st.m = posInf then (if z = posInf then (fRcp st.s).1 else 0#32)
  else mulF (softExp l z st.m) (fRcp (addF st.s st.e)).1

/-- The log-sum-exp of a state (R160). -/
def softLse (base2 : Bool) (st : Soft) : W32 :=
  if nanF st.m then qNan
  else if st.m = negInf ∨ st.m = posInf then st.m
  else
    let g := (fLog2 (addF st.s st.e)).1
    if base2 then addF st.m g else addF st.m (mulF g 0x3F317218#32)

/-- The state held in lanes 0, 1 and 2 of a group. -/
def softOf (g : List W32) : Soft := ⟨g.getD 0 0#32, g.getD 1 0#32, g.getD 2 0#32⟩

/-- A state as the lanes of a group of 2^n (R157). -/
def Soft.lanes (st : Soft) (n : Nat) : List W32 := st.m :: st.s :: st.e :: List.replicate (2 ^ n - 3) 0#32

end Sys2Proof.Machine
end

