-- ==== Sys2Proof/Machine/VectorUnit.lean ====
section
/-! DEFINITION. The vector engine (R145-R149): the operand layout of Table 7.1, what makes a vector descriptor invalid, its operands,
the lane mask, and issuing one. -/

namespace Sys2Proof.Machine

/-- The fields an opcode uses beyond DST and WMASK (Table 7.3): a field it does not use must be 0 (R146). -/
structure VUse where
  dst    : Bool
  dst2   : Bool
  a      : Bool
  b      : Bool
  c      : Bool
  imm    : Bool
  types  : List Nat
  conv   : Bool
  subs   : Nat
  group  : Option Nat
  pmask  : Bool
  xdst   : Bool
  imm2   : Bool
  memory : Bool
  elem   : Bool

/-- An element-wise opcode with operands A, B, C as given, of the ETYPEs given, with `subs` values of SUB. -/
def VUse.elementwise (a b c : Bool) (types : List Nat) (subs : Nat) : VUse :=
  { dst := true, dst2 := false, a := a, b := b, c := c, imm := false, types := types, conv := false, subs := subs,
    group := none, pmask := false, xdst := false, imm2 := false, memory := false, elem := false }

/-- DST. -/
def vDst (d : Bytes) : Nat := byteField d 8 1
/-- DST2. -/
def vDst2 (d : Bytes) : Nat := byteField d 9 1
/-- OPA, OPB, OPC by number 0 to 2. -/
def vOpd (d : Bytes) (i : Nat) : Nat := byteField d (10 + 2 * i) 2
/-- IMM. -/
def vImm (d : Bytes) : W32 := BitVec.ofNat 32 (byteField d 16 4)
/-- WMASK. -/
def vWmask (d : Bytes) : Nat := byteField d 20 1
/-- ETYPE: 0 FP32, 1 INT32, 2 PBF16. -/
def vType (d : Bytes) : Nat := byteField d 21 1
/-- CONV. -/
def vConv (d : Bytes) : Nat := byteField d 22 2
/-- SUB. -/
def vSub (d : Bytes) : Nat := byteField d 24 1
/-- GROUP: n. -/
def vGroup (d : Bytes) : Nat := byteField d 25 1
/-- PMASK. -/
def vPmask (d : Bytes) : Nat := byteField d 26 1
/-- XDST. -/
def vXdst (d : Bytes) : Nat := byteField d 27 1
/-- IMM2. -/
def vImm2 (d : Bytes) : Nat := byteField d 28 4
/-- SFMT. -/
def vSfmt (d : Bytes) : Nat := byteField d 37 1
/-- ELEM_SEL. -/
def vElem (d : Bytes) : Nat := byteField d 42 1

/-- Whether a mask byte ([7] EN; [4:0] register) sets no reserved bit. -/
def maskOk (b : Nat) : Bool := decide (field b 5 2 = 0)

/-- The operand fields an opcode uses. -/
def VUse.operands (u : VUse) (d : Bytes) : List Nat :=
  (if u.a then [vOpd d 0] else []) ++ (if u.b then [vOpd d 1] else []) ++ (if u.c then [vOpd d 2] else [])

/-- Whether the bytes of a vector descriptor make it invalid, apart from an EMPTY tile (R146-R149). -/
def VUse.invalid (u : VUse) (d : Bytes) : Bool :=
  let ops := u.operands d
  let ty := vType d
  let tiles := ops.filter (fun o => decide (opdKind o = 2))
  let immUsed := u.imm || ops.any (fun o => decide (opdKind o = 1))
  !(ops.all opdOk)
    || (!u.a && decide (vOpd d 0 ≠ 0)) || (!u.b && decide (vOpd d 1 ≠ 0)) || (!u.c && decide (vOpd d 2 ≠ 0))
    || decide (1 < tiles.length) || (!tiles.isEmpty && decide (ty ≠ 0))
    || !(u.types.contains ty)
    || (if u.dst then decide (31 < vDst d) else decide (vDst d ≠ 0))
    || (if u.dst2 then !maskOk (vDst2 d) else decide (vDst2 d ≠ 0))
    || (if immUsed then (decide (ty = 2) && decide (65536 ≤ (vImm d).toNat)) else decide (vImm d ≠ 0#32))
    || !maskOk (vWmask d)
    || (!u.conv && decide (vConv d ≠ 0))
    || decide (u.subs ≤ vSub d)
    || (match u.group with
        | some n => decide (vGroup d < n) || decide (6 < vGroup d)
        | none => decide (vGroup d ≠ 0))
    || (if u.pmask then !maskOk (vPmask d) else decide (vPmask d ≠ 0))
    || (if u.xdst then !selOk (vXdst d) else decide (vXdst d ≠ 0))
    || (!u.imm2 && decide (vImm2 d ≠ 0))
    || (if u.memory then !selOk (byteField d 36 1) else !zeroBytes d 32 42)
    || (if u.elem then !selOk (vElem d) else decide (vElem d ≠ 0))
    || !zeroBytes d 43 64

/-- X registers of a vector descriptor's selectors. -/
def vXs (d : Bytes) : List Nat :=
  ([36, 42, 27].filter (fun i => selUse (byteField d i 1))).map (fun i => selReg (byteField d i 1))

/-- The exact value of a tile's cell before SCALE_EN (R139 step 1). -/
def Tile.cell (t : Tile) (n : Nat) : Num :=
  let k : Int := (field t.status 16 8 : Nat)
  let s := t.s.get 0#32 n
  let e := t.e.get 0#32 n
  if field t.status 6 2 = 3 then
    (if e = 0#32 then (intNum s.toInt).shift (k + signed 8 (field t.status 24 8)) else .nan false)
  else ((f32 s).add (f32 e)).1.shift k

/-- The 64 lanes of a TILE operand: a pair of rows, or of columns (R147). -/
def Tile.pair (t : Tile) (col : Bool) (p : Nat) : List W32 :=
  (natsFrom 0 64).map (fun l =>
    let line := 2 * p + l / 32
    let pos := l % 32
    (toF32 (t.cell (if col then 32 * pos + line else 32 * line + pos))).1)

/-- The 64 lanes of an operand (R147). -/
def Core.operand (k : Core) (d : Bytes) (o : Nat) : List W32 :=
  match opdKind o with
  | 0 => (natsFrom 0 64).map (vLane (k.vr (opdReg o)))
  | 1 => List.replicate 64 (if vType d = 2 then packLane (vImm d).toNat (vImm d).toNat else vImm d)
  | _ => (k.tile (opdTile o)).pair (opdCol o) (opdReg o)

/-- Whether a TILE operand names an EMPTY tile (R149). -/
def Core.emptyTile (k : Core) (ops : List Nat) : Bool :=
  ops.any (fun o => decide (opdKind o = 2) && decide (field (k.tile (opdTile o)).status 6 2 = 0))

/-- What a vector descriptor works on: its bytes, its operands, its core before issue, the seed of the Bent. -/
structure VIn where
  d    : Bytes
  a    : List W32
  b    : List W32
  c    : List W32
  core : Core
  seed : Nat

/-- The offset of an element from the context's base: X(ELEM_SEL) plus it (R165). -/
def VIn.offset (v : VIn) (n : Nat) : Nat := selVal v.core.x (vElem v.d) + n

/-- What a vector descriptor leaves: DST, DST2, flags, the X result, rows counted (R161). -/
structure VOut where
  dst   : Option (List W32)
  dst2  : Option (List W32)
  flags : Nat
  x     : Option Nat
  empty : Nat
  nan   : Nat

/-- A result in DST with its flags. -/
def VOut.lanes (l : List W32) (flags : Nat) : VOut := ⟨some l, none, flags, none, 0, 0⟩

/-- Apply the result of a vector descriptor to its core and counters; lanes whose mask lane is zero keep their contents (R148). -/
def State.vApply (s : State) (c : Nat) (d : Bytes) (o : VOut) : State :=
  let old := s.core c
  let t := s.modCore c (fun k =>
    let k := k.raise o.flags
    let m := old.vr (vWmask d % 32)
    let masked := fun (r : Nat) (ls : List W32) =>
      if (vWmask d).testBit 7 then ls.mapIdx (fun l v => if vLane m l = 0#32 then vLane (old.vr r) l else v) else ls
    let k := match o.dst with
      | some ls => k.setV (vDst d % 32) (ofLanes (masked (vDst d % 32) ls))
      | none => k
    let k := match o.dst2 with
      | some ls => k.setV (vDst2 d % 32) (ofLanes (masked (vDst2 d % 32) ls))
      | none => k
    match o.x with
    | some v => if selUse (vXdst d) then k.setX (selReg (vXdst d)) (BitVec.ofNat 64 v) else k
    | none => k)
  (t.add (O.vxRowsEmpty (c / 64) (c % 64)) o.empty).add (O.vxRowsNan (c / 64) (c % 64)) o.nan

/-- Issue a vector descriptor: `bad` are the checks of its own opcode, `fault` its address check, `run` its computation. -/
def State.vIssue (s : State) (c op : Nat) (u : VUse) (bad : Bytes → Bool) (fault : Core → Bytes → Nat) (run : State → VIn → VOut)
    (store : State → VIn → State) : State :=
  s.issue c op
    (fun s c d =>
      let k := s.core c
      let ops := u.operands d
      { invalid := u.invalid d || bad d, xs := vXs d,
        tiles := (ops.filter (fun o => decide (opdKind o = 2))).map opdTile,
        fault := if k.emptyTile ops then 0x01 else fault k d, next := k.dptr + 64 })
    (fun t k d =>
      let v : VIn := ⟨d, if u.a then k.operand d (vOpd d 0) else [], if u.b then k.operand d (vOpd d 1) else [],
        if u.c then k.operand d (vOpd d 2) else [], k, t.rd (O.rngSeed (c / 64))⟩
      store (t.vApply c d (run t v)) v)

/-- A vector row that reads and writes registers only. -/
def State.vRegister (s : State) (c op : Nat) (u : VUse) (bad : Bytes → Bool) (run : VIn → VOut) : State :=
  s.vIssue c op u bad (fun _ _ => 0) (fun _ v => run v) (fun t _ => t)

/-- Apply an operation lane by lane. -/
def perLane (v : VIn) (g : W32 → W32 → W32 → W32 × Nat) : VOut :=
  let at_ := fun (l : List W32) (i : Nat) => l.getD i 0#32
  let o := (natsFrom 0 64).map (fun i => g (at_ v.a i) (at_ v.b i) (at_ v.c i))
  .lanes (o.map Prod.fst) (o.foldl (fun f p => f ||| p.2) 0)

/-- Apply per lane by ETYPE: FP32, INT32, and PBF16 by element. -/
def perType (v : VIn) (f : W32 → W32 → W32 → W32 × Nat) (i : W32 → W32 → W32 → W32) (b : Nat → Nat → Nat → Nat × Nat) : VOut :=
  match vType v.d with
  | 0 => perLane v f
  | 1 => perLane v (fun x y z => (i x y z, 0))
  | _ => perLane v (onElems b)

/-- The groups of a register's lanes. -/
def groupsOf (v : VIn) (l : List W32) : List (List W32) := runsOf (2 ^ vGroup v.d) l 64

/-- Whether lane l is unmasked by PMASK (R157). -/
def VIn.open (v : VIn) (l : Nat) : Bool :=
  if (vPmask v.d).testBit 7 then decide (vLane (v.core.vr (vPmask v.d % 32)) l ≠ 0#32) else true

/-- The pre-scaled values of A with their mask, group by group (R157). -/
def softRows (v : VIn) : List (List (W32 × Bool)) :=
  runsOf (2 ^ vGroup v.d) ((v.a.mapIdx (fun l x => (mulF x (vImm v.d), v.open l)))) 64

/-- BASE2 of a softmax descriptor. -/
def softBase2 (d : Bytes) : Bool := (vSub d).testBit 0

/-- The empty groups as bits, the number of empty rows and of NaN rows (R161). -/
def softCount (ms : List W32) : Nat × Nat × Nat :=
  (packDigits 1 (ms.map (fun m => if m = negInf then 1 else 0)), (ms.filter (fun m => decide (m = negInf))).length,
   (ms.filter nanF).length)

/-- Whether IMM is not a finite FP32 value above zero (R157). -/
def tauBad (d : Bytes) : Bool :=
  match f32 (vImm d) with
  | .fin n m _ => n || decide (m = 0)
  | _ => true

/-- Whether IMM is not a finite FP32 value that is not negative (R156). -/
def epsBad (d : Bytes) : Bool :=
  match f32 (vImm d) with
  | .fin n m _ => n && decide (m ≠ 0)
  | _ => true

end Sys2Proof.Machine
end

