-- ==== Sys2Proof/Machine/Fusion.lean ====
section
/-! DEFINITION. Output fusion (R138-R140): the operand fields of TILE_STORE, its checks, and the 32 lines it writes. -/

namespace Sys2Proof.Machine

/-- Destination of a TILE_STORE after its selector. -/
def tsDst (x : Map W64) (d : Bytes) : Nat := addrOf x (byteField d 8 4) (byteField d 12 1)
/-- DST_STRIDE. -/
def tsStride (d : Bytes) : Nat := byteField d 16 4
/-- SCL_ADDR. -/
def tsScl (d : Bytes) : Nat := byteField d 20 4
/-- SCALE_EN. -/
def tsScaleEn (d : Bytes) : Bool := (byteField d 33 1).testBit 0
/-- BIAS_EN. -/
def tsBiasEn (d : Bytes) : Bool := (byteField d 33 1).testBit 1
/-- LAYOUT. -/
def tsColumns (d : Bytes) : Bool := (byteField d 33 1).testBit 2
/-- ACT. -/
def tsAct (d : Bytes) : Nat := byteField d 32 1
/-- ACT_PARAM. -/
def tsParam (d : Bytes) : W32 := BitVec.ofNat 32 (byteField d 36 4)

/-- Bytes of one line. -/
def tsLine (c : Conv) : Nat := c.fmt.bytesOf 32
/-- Scale bytes of one line. -/
def tsScales (c : Conv) : Nat := if c.block = 0 then 0 else 32 / c.block

/-- Whether a TILE_STORE's fields make it invalid, but for an EMPTY tile (R138, R140, R85). An address the descriptor does not
use is not judged. -/
def tsInvalid (x : Map W64) (d : Bytes) : Bool :=
  match convOf (byteField d 14 2) with
  | none => true
  | some c =>
    let p := f32 (tsParam d)
    !selOk (byteField d 12 1) || decide (3 < byteField d 13 1) || decide (7 < byteField d 33 1) || !zeroBytes d 34 36
      || !zeroBytes d 40 64 || decide (8 < tsAct d) || (decide (tsAct d = 2) && p.isNan)
      || (decide (tsAct d = 3) && (p.isNan || p.lt (.fin false 0 0)))
      || decide (tsStride d % 64 ≠ 0) || decide (tsStride d < tsLine c) || decide (tsDst x d % 64 ≠ 0)
      || decide (tsScl d % 64 ≠ 0) || decide (byteField d 24 4 % 64 ≠ 0) || decide (byteField d 28 4 % 64 ≠ 0)

/-- Whether a TILE_STORE leaves its spaces (R95, Table 6.5). -/
def tsOutside (x : Map W64) (d : Bytes) : Bool :=
  match convOf (byteField d 14 2) with
  | none => true
  | some c =>
    let n := 31 * tsStride d + tsLine c
    let same := (inCore (tsDst x d) n && inCore (tsScl d) (32 * tsScales c)) || (inBent (tsDst x d) n && inBent (tsScl d) (32 * tsScales c))
    !inLocal (tsDst x d) n || (decide (c.block ≠ 0) && !same)
      || (tsScaleEn d && !inCore (byteField d 24 4) 128) || (tsBiasEn d && !inCore (byteField d 28 4) 128)

/-- The value of a cell after scale, bias and activation (R139 steps 1 to 3); `j` is its column. -/
def tsValue (d : Bytes) (t : Tile) (sig bias : Bytes) (i j : Nat) : Num :=
  let x := t.cell (32 * i + j)
  let v := if tsScaleEn d then rnValue ((x.mul (f32 (wordAt sig j))).1) else x
  let v := if tsBiasEn d then rnValue ((v.add (f32 (wordAt bias j))).1) else v
  if tsAct d = 0 then v else f32 (activate (tsAct d) (tsParam d) (toF32 v).1)

/-- What a TILE_STORE writes: address and bytes of each line and of its scales, and the flags of the conversions (R138, R139). -/
def tsRun (g : RngCtx) (seed : Nat) (x : Map W64) (mem : Map Byte) (d : Bytes) (t : Tile) : List (Nat × Bytes) × Nat :=
  match convOf (byteField d 14 2) with
  | none => ([], 0)
  | some c =>
    let sig := mem.bytes 0#8 (byteField d 24 4) 128
    let bias := mem.bytes 0#8 (byteField d 28 4) 128
    let o := (natsFrom 0 32).map (fun n =>
      let vs := (natsFrom 0 32).map (fun m => if tsColumns d then tsValue d t sig bias m n else tsValue d t sig bias n m)
      let r := convertRun c vs (c.roundings g seed ((natsFrom 0 32).map (fun m => 32 * n + m)))
      ([(tsDst x d + n * tsStride d, r.1), (tsScl d + n * tsScales c, r.2.1)], r.2.2))
    (o.flatMap Prod.fst, o.foldl (fun f p => f ||| p.2) 0)

end Sys2Proof.Machine
end

