-- ==== Sys2Proof/Machine/Thinning.lean ====
section
/-! DEFINITION. Thinning of reduce-scatter frames (R279-R283, R286): the one-bit and low-rank codes over lists of FP32 words. -/

namespace Sys2Proof.Machine

/-- A table of words from a list. -/
def listMap (l : List W32) : Words32 := ⟨((natsFrom 0 l.length).zip l).filter (fun p => decide (p.2 ≠ 0#32))⟩

/-- The first `n` words of a table. -/
def mapList (m : Words32) (n : Nat) : List W32 := (natsFrom 0 n).map (m.get 0#32)

/-- Whether an FP32 word is finite. -/
def finF (a : W32) : Bool :=
  match f32 a with
  | .fin _ _ _ => true
  | _ => false

/-- The magnitude of an FP32 word. -/
def absF (a : W32) : W32 := a &&& 0x7FFFFFFF#32

/-- What a code comes to: its payload, the approximation A, the new warm-start matrix, whether every value formed is finite. -/
structure Coded where
  payload : Bytes
  approx  : List W32
  warm    : Option (List W32)
  finite  : Bool

/-- One block of ONE_BIT (R280): sigma, the sign word, the values. -/
def oneBitBlock (m : List W32) : W32 × Nat × List W32 × Bool :=
  let sum := m.foldl (fun a x => addF a (absF x)) 0#32
  let sigma := mulF sum 0x3D000000#32
  let signs := m.map (fun x => x.msb)
  (sigma, packDigits 1 (signs.map Bool.toNat), signs.map (fun b => if b then sigma ^^^ 0x80000000#32 else sigma), finF sum && finF sigma)

/-- ONE_BIT over a shard. -/
def oneBit (m : List W32) : Coded :=
  let bs := (runsOf 32 m (m.length / 32)).map oneBitBlock
  { payload := bs.flatMap (fun b => natLe 4 b.1.toNat ++ natLe 4 b.2.1), approx := bs.flatMap (fun b => b.2.2.1), warm := none,
    finite := bs.all (fun b => b.2.2.2) }

/-- What a receiver forms from a ONE_BIT payload. -/
def oneBitDecode (p : Bytes) : List W32 :=
  (runsOf 8 p (p.length / 8)).flatMap (fun b =>
    let sigma := BitVec.ofNat 32 (byteField b 0 4)
    (natsFrom 0 32).map (fun i => if (byteField b 4 4).testBit i then sigma ^^^ 0x80000000#32 else sigma))

/-- acc = rn(acc + u × v), with the product exact. -/
def fmaF (u v acc : W32) : W32 := (toF32 ((((f32 u).mul (f32 v)).1).add (f32 acc)).1).1

/-- dot(u, v) of R281. -/
def dotF (u v : List W32) : W32 := (u.zip v).foldl (fun acc p => fmaF p.1 p.2 acc) 0#32

/-- The columns of a matrix given by its rows. -/
def columnsOf (cols : Nat) (rows : List (List W32)) : List (List W32) :=
  (natsFrom 0 cols).map (fun k => rows.map (fun r => r.getD k 0#32))

/-- P[i] - d × P_l[i], one rounding. -/
def subMul (p d l : W32) : W32 := (toF32 ((f32 p).add (((f32 d).mul (f32 l)).1.neg)).1).1

/-- One column of the modified Gram-Schmidt step against the columns before it: the column, and whether q and it are finite. -/
def orthoColumn (before : List (List W32)) (col : List W32) : List W32 × Bool :=
  let c := before.foldl (fun c l => let d := dotF l c
                                    (c.zip l).map (fun p => subMul p.1 d p.2)) col
  let q := dotF c c
  let r := if (f32 q).isZero then c.map (fun _ => 0#32) else c.map (fun x => mulF x (fRsqrt q).1)
  (r, finF q && c.all finF && r.all finF)

/-- The Gram-Schmidt step over the columns (R281). -/
def orthoColumns : List (List W32) → List (List W32) → List (List W32) × Bool
  | before, [] => (before, true)
  | before, c :: r =>
    let o := orthoColumn before c
    let rest := orthoColumns (before ++ [o.1]) r
    (rest.1, o.2 && rest.2)

/-- A[i][j] = dot(P row i, Qn row j), row-major, the first `len` elements. -/
def lowRankValues (p qn : List (List W32)) (len : Nat) : List W32 := (p.flatMap (fun a => qn.map (fun b => dotF a b))).take len

/-- LOWRANK over a shard with rows of `c` elements, rank `r` and the warm-start matrix `q` (c × r, row-major). -/
def lowRank (c r : Nat) (q m : List W32) : Coded :=
  let n := (m.length + c - 1) / c
  let rows := runsOf c (m ++ List.replicate (n * c - m.length) 0#32) n
  let qcols := columnsOf r (runsOf r q c)
  let p0 := qcols.map (fun k => rows.map (fun row => dotF row k))
  let o := orthoColumns [] p0
  let prow := columnsOf n o.1
  let mcols := columnsOf c rows
  let qn := mcols.map (fun col => o.1.map (fun k => dotF col k))
  let a := lowRankValues prow qn m.length
  let qw := qn.flatten
  { payload := natLe 4 n ++ natLe 4 c ++ ofWords prow.flatten ++ ofWords qw, approx := a, warm := some qw,
    finite := p0.all (fun k => k.all finF) && o.2 && qw.all finF && a.all finF }

/-- What a receiver forms from a LOWRANK payload of rank `r` for `len` elements. -/
def lowRankDecode (r len : Nat) (p : Bytes) : List W32 :=
  let n := byteField p 0 4
  let c := byteField p 4 4
  let ws := toWords (p.drop 8)
  lowRankValues (runsOf r (ws.take (n * r)) n) (runsOf r (ws.drop (n * r)) c) len

/-- The initial warm-start matrix of a shard (R283). -/
def warmInit (seed stream bucket shard c r : Nat) : List W32 :=
  (natsFrom 0 c).flatMap (fun row => (natsFrom 0 r).map (fun k =>
    let w := rngWord seed stream bucket 0 0 (shard * 2 ^ 18 + row * 64 + k)
    (toF32 (((intNum (w / 256 : Nat)).shift (-23)).add (intNum (-1))).1).1))

end Sys2Proof.Machine
end

