-- ==== Sys2Proof/Machine/Chain.lean ====
section
/-! DEFINITION. The relay chain (R266-R272, R274-R277): buckets that become FULL, the frames a channel sends and accepts in their
order, the sums, the delivered values with census and policy, and the sweep that carries every channel as far as it can go. -/

namespace Sys2Proof.Machine

/-! ### Buckets -/

/-- Elements of a bucket's shard: its first element and how many. -/
def State.shard (s : State) (i b j : Nat) : Nat × Nat :=
  let pages := bePages (s.bucketEntry 0 i b)
  (1024 * shardStart pages (s.rgD 0 i) j, shardElems pages (s.rgD 0 i) j)

/-- The tensor address of element `k` of a bucket. -/
def State.bucketAddr (s : State) (i b k : Nat) : Nat := bePage (s.bucketEntry 0 i b) * pageSize + 4 * k

/-- The words of a shard of a bucket. -/
def State.shardWords (s : State) (i b j : Nat) : List W32 :=
  let (lo, n) := s.shard i b j
  toWords (s.tensorBytes none (s.bucketAddr i b lo) (4 * n))

/-- Write a shard of a bucket. -/
def State.writeShard (s : State) (i b j : Nat) (ws : List W32) : State :=
  let (lo, n) := s.shard i b j
  s.writeTensor none (s.bucketAddr i b lo) (ofWords (ws.take n)) (n / 1024 + 1)

/-- A channel enters FAULTED. -/
def State.faultChannel (s : State) (c : Nat) : State := s.wr (O.rcState c) 3

/-- A bucket becomes FULL: the Combine engine verifies its blocks and counts the non-finite elements of the local contribution (R266, R408). Where
a block fails for good the count is abandoned: the bucket stays as it is, and the channel that carries it enters FAULTED (Table 16.3). -/
def State.fillBucket (s : State) (i b : Nat) : State :=
  if (s.bucket i b).state ≠ 1 then s
  else
    let e := s.bucketEntry 0 i b
    let n := bePages e * 16384
    let list := s.blockList none (s.bucketAddr i b 0) (4 * n)
    let (t, ok) := (s.engineReads (beBent e) list).verify [] list
    if !ok then t.faultChannel (beChannel e)
    else
      let bad := ((toWords (t.tensorBytes none (t.bucketAddr i b 0) (4 * n))).filter (fun w => !finF w)).length
      t.setBucket i b { t.bucket i b with state := 2, census := bad }

/-- The bucket of a slot that holds a page, when its group is ACTIVE. -/
def State.bucketOf (s : State) (p : Nat) : Option (Nat × Nat) :=
  (s.activeGroups.flatMap (fun i => (s.usedBuckets 0 i).map (fun b => (i, b)))).find? (fun x =>
    let e := s.bucketEntry 0 x.1 x.2
    decide (bePage e ≤ p) && decide (p < bePage e + bePages e))

/-- Blocks that a move of the last micro-batch's W wrote are final; the bucket is FULL when every block is (R266). -/
def State.finalBlocks (s : State) (blocks : List Nat) : State :=
  State.each (fun (t : State) (a : Nat) =>
    match t.bucketOf (a / 16) with
    | none => t
    | some (i, b) =>
      let k := t.bucket i b
      let n := a - 16 * bePage (t.bucketEntry 0 i b)
      if k.state ≠ 1 ∨ k.finals.contains n = true then t
      else
        let u := t.setBucket i b { k with finals := k.finals ++ [n] }
        if k.finals.length + 1 = 16 * bePages (t.bucketEntry 0 i b) then u.fillBucket i b else u) s blocks

/-- The last micro-batch's W is complete at a slot: its buckets are FULL as they stand (R266). -/
def State.fillAll (s : State) (i : Nat) : State :=
  if s.rgActive i then State.each (fun t b => t.fillBucket i b) s (s.usedBuckets 0 i) else s

/-! ### Sums and delivered values -/

/-- Add the own contribution to a pair (R269). -/
def chainAdd (carry : Bool) (st : W32 × W32) (c : W32) : W32 × W32 :=
  let u := compStep st c
  if carry then u else (u.1, 0#32)

/-- F and G of an element (R270). -/
def formG (scale : W32) (bf16 : Bool) (st : W32 × W32) : W32 :=
  let x := if finF st.1 then ((f32 st.1).add (f32 st.2)).1 else f32 st.1
  let f := (toF32 ((x.mul (f32 scale)).1)).1
  if bf16 then bfWord (toBf16 (f32 f)).1 else f

/-- The census of delivered values: the bucket's, and the slot's sum (R287). -/
def State.countDelivered (s : State) (i b n : Nat) : State :=
  (s.setBucket i b { s.bucket i b with delivered := (s.bucket i b).delivered + n }).add (O.stepNonfinite i) n

/-- A shard holds delivered values; the bucket is COMPLETE when all do (R272). -/
def State.markShard (s : State) (i b j : Nat) : State :=
  let k := s.bucket i b
  let shards := if k.shards.contains j then k.shards else k.shards ++ [j]
  s.setBucket i b { k with shards := shards, state := if shards.length = s.rgD 0 i then 5 else k.state }

/-- Deliver the owner's shard from its pairs: scale, census, policy, write (R270, R287, R288). Answers the values. -/
def State.deliverOwn (s : State) (i b j : Nat) (pairs : List (W32 × W32)) : State × List W32 :=
  let scale := BitVec.ofNat 32 (s.rd (O.rgScale i))
  let g := pairs.map (formG scale (decide (s.rd (O.rgGatherFmt i) = 1)))
  let bad := (g.filter (fun w => !finF w)).length
  let zero := decide (s.rd O.nonfinitePolicy = 2)
  let g := if zero then g.map (fun w => if finF w then w else 0#32) else g
  let t := if zero then s.add (O.zeroed i) bad else s
  (((t.countDelivered i b bad).writeShard i b j g).markShard i b j, g)

/-! ### Frames -/

/-- Where frame `n` of a channel's order stands: the place of its bucket, its phase and its hop (R274), for D above 1. -/
def framePlace (d n : Nat) : Nat × Nat × Nat :=
  let per := 2 * (d - 1)
  (n / per, n % per / (d - 1), n % per % (d - 1))

/-- The shard that member `m` of `d` sends at a hop (R268, R271). -/
def frameShard (d m phase hop : Nat) : Nat := if phase = 0 then (m + 2 * d - 1 - hop) % d else (m + d - hop) % d

/-- Frames of a channel in an attempt. -/
def State.frameCount (s : State) (c : Nat) : Nat := (s.channelBuckets c).length * (2 * (s.rgD 0 (s.rd (O.rcSlot c)) - 1))

/-- The 64 bytes of a frame header (Table 11.2). -/
def frameHeader (phase mode attempt step epoch group bucket rank hop shard sender elements payload flags : Nat) : Bytes :=
  let b := natLe 1 1 ++ natLe 1 phase ++ natLe 1 mode ++ natLe 1 attempt ++ natLe 4 step ++ natLe 2 epoch ++ natLe 2 group
    ++ natLe 1 bucket ++ natLe 1 rank ++ natLe 2 hop ++ natLe 2 shard ++ natLe 2 sender ++ natLe 4 elements ++ natLe 4 payload
    ++ natLe 1 flags ++ natLe 31 0
  b ++ natLe 4 (crc32c b).toNat

/-- Send a frame of a channel: it takes a receive area of RC_NEXT (R276). -/
def State.sendFrame (s : State) (c phase mode bucket rank hop shard elements flags : Nat) (payload : Bytes) : State :=
  let i := s.rd (O.rcSlot c)
  let h := frameHeader phase mode (s.rd O.stepAttempt) (s.rd O.stepNumber) (s.rd O.layoutEpoch) (s.jobStageOf i) bucket rank hop shard
    (s.rgM 0 i) elements payload.length flags
  ((s.emit (.reduction (s.rd (O.rcNext c)) c h payload)).add (O.rcBytesSent c) (64 + payload.length)).modChan c
    (fun k => { k with sent := k.sent + 1, credit := k.credit - 1 })

/-- The payload of a whole pair frame: PAIR, or SUM without e. -/
def pairPayload (carry : Bool) (ps : List (W32 × W32)) : Bytes :=
  ofWords (ps.map Prod.fst) ++ (if carry then ofWords (ps.map Prod.snd) else [])

/-- The running pair of a shard that this member sends: its own contribution at hop 0, else what it received with its own added
(R268, R269). A pair of a non-finite element is carried as (its value, +0). -/
def State.pairsFor (s : State) (c i b j hop : Nat) : List (W32 × W32) :=
  let own := s.shardWords i b j
  if hop = 0 then own.map (fun w => (w, 0#32))
  else
    let k := s.chan c
    let key := 64 * j + b
    let sums := mapList (k.sums.get Map.empty key) own.length
    let errs := mapList (k.errs.get Map.empty key) own.length
    ((sums.zip errs).zip own).map (fun p => chainAdd (decide (s.rd (O.rgCarryE i) = 1)) p.1 p.2)

/-- Send a reduce-scatter frame, thinned by the channel's mode unless it falls back (R279, R286). -/
def State.sendScatter (s : State) (c i b j hop : Nat) : State :=
  let carry := decide (s.rd (O.rgCarryE i) = 1)
  let ps := s.pairsFor c i b j hop
  let full := fun (t : State) (fl : Nat) =>
    t.sendFrame c 0 (if carry then 0 else 1) b 0 hop j ps.length fl (pairPayload carry ps)
  let mode := s.rd (O.rcMode c)
  if mode = 0 then full s 0
  else
    let key := 64 * j + b
    let k := s.chan c
    let err := mapList ((wordsOf k.error key).getD Map.empty) ps.length
    let x := ps.map (fun p => addF p.1 p.2)
    let m := (x.zip err).map (fun p => addF p.1 p.2)
    let e := s.bucketEntry 0 i b
    let r := s.rd (O.rcRank c)
    let warm := ((wordsOf k.warm key).map (fun w => mapList w (beCols e * r))).getD
      (warmInit ((k.seeds.find? (fun (p : Nat × Nat) => decide (p.1 = b))).elim 0 Prod.snd) (s.rd (O.rgLrStream i)) b j (beCols e) r)
    let code := if mode = 1 then lowRank (beCols e) r warm m else oneBit m
    if (s.bucket i b).census ≠ 0 ∨ k.fallen.contains b = true ∨ x.all finF = false ∨ m.all finF = false ∨ code.finite = false then
      full ((s.modChan c (fun k => { k with fallen := if k.fallen.contains b then k.fallen else k.fallen ++ [b] })).add (O.rcFallbacks c) 1) 1
    else if ps.isEmpty then s.sendFrame c 0 (if mode = 1 then 2 else 3) b (if mode = 1 then r else 0) hop j 0 0 []
    else
      let next := (m.zip code.approx).map (fun p => subF p.1 p.2)
      let t := s.modChan c (fun k => { k with
        errorNew := replaceAll k.errorNew [(key, listMap next)],
        warmNew := match code.warm with
          | some w => replaceAll k.warmNew [(key, listMap w)]
          | none => k.warmNew })
      t.sendFrame c 0 (if mode = 1 then 2 else 3) b (if mode = 1 then r else 0) hop j ps.length 0 code.payload

/-- The payload of delivered values in the gather format. -/
def gatherPayload (bf16 : Bool) (g : List W32) : Bytes :=
  if bf16 then g.flatMap (fun w => natLe 2 (w.toNat / 65536)) else ofWords g

/-- The blocks of a shard's own contribution with frames, for their checks. -/
def State.shardBlocks (s : State) (i b j : Nat) : List (Nat × Nat × Nat) :=
  let (lo, n) := s.shard i b j
  if n = 0 then [] else s.blockList none (s.bucketAddr i b lo) (4 * n)

/-- The Combine engine of a bucket's Bent verifies the shard that it is about to use (R408). -/
def State.verifyShard (s : State) (i b j : Nat) : State × Bool :=
  (s.engineReads (beBent (s.bucketEntry 0 i b)) (s.shardBlocks i b j)).verify [] (s.shardBlocks i b j)

/-- Whether an attempt is open and undecided at the package. -/
def State.attemptOpen (s : State) : Bool := s.commit.opened && s.undecided

/-- The next frame of a channel, when everything it needs is there: a bucket that is FULL, the frame it adds to or forwards (R274). -/
def State.nextFrame (s : State) (c : Nat) : Option (Nat × Nat × Nat × Nat) :=
  let i := s.rd (O.rcSlot c)
  let d := s.rgD 0 i
  let k := s.chan c
  if k.sent < s.frameCount c then
    let (at_, phase, hop) := framePlace d k.sent
    let b := (s.channelBuckets c).getD at_ 0
    let base := at_ * (2 * (d - 1))
    let need := if phase = 0 then base + hop else base + (d - 1) + hop
    if (s.bucket i b).state < 2 ∨ (k.received < need ∧ (phase, hop) ≠ (0, 0)) then none else some (b, phase, hop, frameShard d (s.rgM 0 i) phase hop)
  else none

/-- One action of a channel: none when it waits. -/
def State.stepChannel (s : State) (c : Nat) : Option State :=
  let i := s.rd (O.rcSlot c)
  if !(decide (i < 16) && s.rgActive i && s.attemptOpen) || decide (s.rd (O.rcState c) = 3) then none
  else if s.rgD 0 i = 1 then
    ((s.channelBuckets c).find? (fun b => decide ((s.bucket i b).state ≠ 5))).bind (fun b =>
      if (s.bucket i b).state < 2 then none
      else
        let (t, ok) := s.verifyShard i b 0
        some (if ok then (t.deliverOwn i b 0 (t.pairsFor c i b 0 0)).1 else t.faultChannel c))
  else if (s.chan c).credit = 0 then none
  else
    (s.nextFrame c).map (fun f =>
      let (b, phase, hop, j) := f
      if phase = 0 then
        let (t, ok) := s.verifyShard i b j
        if !ok then t.faultChannel c
        else
          let t := t.setBucket i b { t.bucket i b with state := 3 }
          let u := t.sendScatter c i b j hop
          if hop = 0 then u else u.freeArea c
      else
        let bf16 := decide (s.rd (O.rgGatherFmt i) = 1)
        let mode := if bf16 then 5 else 4
        if hop = 0 then
          let (t, ok) := s.verifyShard i b j
          if !ok then t.faultChannel c
          else
            let t := t.setBucket i b { t.bucket i b with state := 4 }
            let (u, g) := t.deliverOwn i b j (t.pairsFor c i b j (t.rgD 0 i - 1))
            (u.sendFrame c 1 mode b 0 0 j g.length 0 (gatherPayload bf16 g)).freeArea c
        else
          let p := (s.chan c).gathered
          (s.sendFrame c 1 mode b 0 hop j (s.shard i b j).2 0 p).freeArea c)

/-- Whether a channel awaits a frame from RC_PREV: it has sent what precedes it and its bucket is FULL (R296). -/
def State.awaits (s : State) (c : Nat) : Bool :=
  let i := s.rd (O.rcSlot c)
  let k := s.chan c
  decide (i < 16) && s.rgActive i && s.attemptOpen && decide (s.rd (O.rcState c) ≠ 3) && decide (k.received < s.frameCount c)
    && decide (k.received < k.sent)
    && decide (2 ≤ (s.bucket i ((s.channelBuckets c).getD (framePlace (s.rgD 0 i) k.received).1 0)).state)

/-- Start or end the wait of a channel. -/
def State.timeWait (s : State) (c : Nat) : State :=
  s.modChan c (fun k => { k with waiting := if s.awaits c then some (k.waiting.getD (s.now + s.hopDue)) else none })

/-- Carry a channel on, at most `n` actions. -/
def State.runChannel (s : State) (c : Nat) : Nat → State
  | 0 => s.timeWait c
  | n + 1 =>
    match s.stepChannel c with
    | none => s.timeWait c
    | some t => State.runChannel t c n

/-! ### Frames that arrive -/

/-- The order in which a receiver judges a frame (R277). -/
inductive Judged where
  | bad | otherGroup | otherEpoch | stale | fault | accepted | early
deriving DecidableEq, Repr

/-- Whether a (step, attempt) lies before another, steps modulo 2^32. -/
def older (step attempt curStep curAttempt : Nat) : Bool :=
  let back := (curStep + 2 ^ 32 - step) % 2 ^ 32
  (decide (0 < back) && decide (back < 2 ^ 31)) || (decide (back = 0) && decide (attempt < curAttempt))

/-- The epoch that a step will have when it opens as a new step (R289, R292). -/
def State.epochAt (s : State) (step : Nat) : Nat :=
  if s.rd O.reshardState = 1 ∧ s.rd O.reshardStep ≤ step then s.rd O.reshardEpoch else s.rd O.layoutEpoch

/-- The attempt whose frames may come before it opens here, with its epoch: the step after one whose frames are all exchanged on the
channel, the step that has not opened yet, or the attempt that follows an ABORT. -/
def State.aheadOf (s : State) (c : Nat) : Option (Nat × Nat × Nat) :=
  let n := s.rd O.stepNumber
  let a := s.rd O.stepAttempt
  let st := s.rd O.stepState
  if st = 5 then
    (if s.rd O.lastDecision % 16 = 1 then some (n, 0, s.epochAt n) else some (n, (a + 1) % 256, s.rd O.layoutEpoch))
  else if s.commit.opened = false then some (n, a, s.epochAt n)
  else if (s.chan c).received = s.frameCount c then some ((n + 1) % 2 ^ 32, 0, s.epochAt ((n + 1) % 2 ^ 32))
  else none

/-- Judge the header of a frame for a channel (R277). A frame of the attempt to come waits until it opens; where a re-shard takes place before it
does, the frame is held to the next bank (R289, R292). -/
def State.judge (s : State) (c : Nat) (h : Bytes) : Judged :=
  let k := s.chan c
  let step := byteField h 4 4
  let attempt := byteField h 3 1
  let next := (s.aheadOf c).filter (fun x => decide (x.1 = step) && decide (x.2.1 = attempt))
  let ahead := next.isSome
  let bank := if next.any (fun x => decide (x.2.2 ≠ s.rd O.layoutEpoch)) then 1 else 0
  let i := s.rd (inBank bank (O.rcSlot c))
  let d := s.rgD bank i
  let carried := s.bucketsIn bank c
  let at_ := if ahead then k.early.length else k.received
  let (place, phase, hop) := framePlace d at_
  let b := carried.getD place 0
  let from_ := (s.rgM bank i + d - 1) % d
  let j := frameShard d from_ phase hop
  let mode := byteField h 2 1
  if byteField h 0 1 ≠ 1 ∨ byteField h 60 4 ≠ (crc32c (h.take 60)).toNat then .bad
  else if byteField h 10 2 % 4096 ≠ s.jobStageOf i then .otherGroup
  else if byteField h 8 2 ≠ next.elim (s.rd O.layoutEpoch) (fun x => x.2.2) then .otherEpoch
  else if !ahead && (older step attempt (s.rd O.stepNumber) (s.rd O.stepAttempt)
      || (decide (s.rd O.stepState = 5) && decide (step = s.rd O.stepNumber) && decide (attempt ≤ s.rd O.stepAttempt))) then .stale
  else if carried.length * (2 * (d - 1)) ≤ at_ ∨ !(ahead || (s.attemptOpen && decide (step = s.rd O.stepNumber) && decide (attempt = s.rd O.stepAttempt)))
      ∨ byteField h 12 1 ≠ b ∨ byteField h 1 1 ≠ phase ∨ byteField h 14 2 ≠ hop ∨ byteField h 16 2 % 16384 ≠ j
      ∨ byteField h 18 2 % 16384 ≠ from_ ∨ byteField h 20 4 ≠ shardElems (bePages (s.bucketEntry bank i b)) d j
      ∨ !(if phase = 0 then decide (mode ≤ 3) else decide (mode = 4) || decide (mode = 5)) then .fault
  else if ahead then .early
  else .accepted

/-- The pairs that a reduce-scatter payload carries, for `n` elements. -/
def decodePairs (h p : Bytes) (n : Nat) : List (W32 × W32) :=
  match byteField h 2 1 with
  | 0 => (toWords (p.take (4 * n))).zip (toWords (p.drop (4 * n)))
  | 1 => (toWords p).map (fun w => (w, 0#32))
  | 2 => (lowRankDecode (byteField h 13 1) n p).map (fun w => (w, 0#32))
  | _ => (oneBitDecode p).map (fun w => (w, 0#32))

/-- The values that an all-gather payload carries, widened exactly. -/
def decodeGather (h p : Bytes) : List W32 :=
  if byteField h 2 1 = 5 then (runsOf 2 p (p.length / 2)).map (fun b => bfWord (leNat b)) else toWords p

/-- A frame whose last segment has landed and that is accepted (R269, R271, R276). -/
def State.acceptFrame (s : State) (c : Nat) (h p : Bytes) : State :=
  let i := s.rd (O.rcSlot c)
  let (place, phase, hop) := framePlace (s.rgD 0 i) (s.chan c).received
  let b := (s.channelBuckets c).getD place 0
  let j := byteField h 16 2 % 16384
  let t := ((s.add (O.rcBytesReceived c) (64 + p.length)).setDom (O.rcLastFrame c) (Map.empty.setBytes 0#8 0 h)).modChan c
    (fun k => { k with received := k.received + 1, waiting := none })
  if phase = 0 then
    let ps := decodePairs h p (s.shard i b j).2
    t.modChan c (fun k => { k with sums := k.sums.set Map.empty (64 * j + b) (listMap (ps.map Prod.fst)),
                                   errs := k.errs.set Map.empty (64 * j + b) (listMap (ps.map Prod.snd)) })
  else
    let g := decodeGather h p
    let t := ((t.countDelivered i b ((g.filter (fun w => !finF w)).length)).writeShard i b j g).markShard i b j
    let t := t.modChan c (fun k => { k with gathered := p })
    if hop + 2 = s.rgD 0 i then t.freeArea c else t

/-- Frames of the step that has just opened are taken as if they arrived now. -/
def State.takeEarly (s : State) (c : Nat) : Nat → State
  | 0 => s
  | n + 1 =>
    match (s.chan c).early with
    | [] => s
    | l :: r =>
      if s.attemptOpen && decide (byteField l.header 4 4 = s.rd O.stepNumber) && decide (byteField l.header 3 1 = s.rd O.stepAttempt) then
        State.takeEarly ((s.modChan c (fun k => { k with early := r })).acceptFrame c l.header l.payload) c n
      else s

/-- Carry every channel as far as it can go (R274); then the step (R252). -/
def State.advanceReduction (s : State) : State :=
  let t := State.each (fun (t : State) (c : Nat) =>
    if t.rd (O.rcSlot c) < 16 then
      let t := t.takeEarly c (t.chan c).early.length
      t.runChannel c (t.frameCount c + (t.channelBuckets c).length)
    else t) s (natsFrom 0 32)
  t.advanceStep

end Sys2Proof.Machine
end

