-- ==== Sys2Proof/Machine/DieHome.lean ====
section
/-! DEFINITION. The die protocol (R389-R397): what a home die does with a READ, a WRITE and an INV_ACK, what a holder does with an INVALIDATE,
and what is left when a die leaves reset or is excluded. -/

namespace Sys2Proof.Machine

/-- The die link between two dies (Table 2.6). -/
def linkBetween (a b : Nat) : Option Nat :=
  (natsFrom 0 10).find? (fun n => decide (linkEnds n = (a, b)) || decide (linkEnds n = (b, a)))

/-- Whether the die link between two dies is UP. -/
def State.diesJoined (s : State) (a b : Nat) : Bool := (linkBetween a b).elim false (fun n => decide (s.rd (O.slState n) = 2))

/-- The frame of a block. -/
def blockFrame (block : Nat) : Nat := block / 16

/-- Whether a block lies in a mapped frame of a stack that is ON, with its home joined to a die. -/
def State.reaches (s : State) (d block : Nat) : Bool :=
  decide (blockStack block < 12) && s.stackOn (blockStack block) && decide ((s.frame (blockFrame block)).use = 1)
    && (decide (homeOf block = d) || s.diesJoined d (homeOf block))

/-- The class of a message (Table 15.2): 0 REQ, 1 RSP, 2 ACK. -/
def DieMsgKind.cls : DieMsgKind → Nat
  | .read => 0
  | .write => 0
  | .readData => 1
  | .writeAck => 1
  | .invalidate => 1
  | .invAck => 2

/-- The message of a kind for a block that arrives between two dies: their link is UP, and it is the next of its class (R389). -/
def State.nextDie (s : State) (kind : DieMsgKind) (src dst block : Nat) : Option DieMsg :=
  if !s.diesJoined src dst then none
  else
    match s.dies.msgs.find? (fun x => decide (x.src = src) && decide (x.dst = dst) && decide (x.kind.cls = kind.cls)) with
    | some m => if m.kind = kind ∧ m.block = block then some m else none
    | none => none

/-- The message has arrived. -/
def State.takeDie (s : State) (m : DieMsg) : State := { s with dies := { s.dies with msgs := dropFirst (fun x => decide (x = m)) s.dies.msgs } }

/-- Whether a wait holds the requests for a block: it is the wait's block, or an earlier request for it stands behind the wait (R393). -/
def HomeWait.holds (w : HomeWait) (block : Nat) : Bool := decide (w.block = block) || w.behind.any (fun r => decide (r.block = block))

/-- Whether a request for a block has to wait at its home, which serves the requests for a block in order of arrival (R393, Table 15.3). -/
def State.blockBusy (s : State) (block : Nat) : Bool := s.dies.waits.any (fun w => w.holds block)

/-- The waits with a request behind the first that holds its block. -/
def holdBehind (r : DieRequest) : List HomeWait → List HomeWait
  | [] => []
  | w :: ws => if w.holds r.block then { w with behind := w.behind ++ [r] } :: ws else w :: holdBehind r ws

/-- A request waits at its home. -/
def State.waitBehind (s : State) (r : DieRequest) : State := { s with dies := { s.dies with waits := holdBehind r s.dies.waits } }

/-- The ways of a filter set that a back-invalidation still keeps from being reused (R395). -/
def State.waysTaken (s : State) (block : Nat) : Nat :=
  (s.dies.waits.filter (fun w => w.back && decide (homeOf w.block = homeOf block) && decide (filterSet w.block = filterSet block))).length

/-- A home sends READ_DATA and records a compute die as holder (R392, R395). -/
def State.sendData (s : State) (d block : Nat) : State :=
  let h := homeOf block
  let c := s.cache h
  let t := if d < 4 then s.setCache h { c with filter := setHolders c.filter block (holders c.filter block ||| 2 ^ d) } else s
  (t.kpc 0x03 (blockStack block) 4096).sendDie ⟨.readData, h, d, block, none⟩

/-- A home takes a READ (R393, R395): while its filter has no way left, an entry is back-invalidated first. -/
def State.homeRead (s : State) (d block : Nat) : State :=
  let h := homeOf block
  let f := (s.cache h).filter
  if s.blockBusy block then s.waitBehind ⟨d, block, none⟩
  else
    match (if d < 4 ∧ holders f block = 0 then filterVictim f block (s.waysTaken block) else none) with
    | none => s.sendData d block
    | some (old, m) =>
      let t := s.setCache h { s.cache h with filter := setHolders f old 0 }
      let t := State.each (fun (t : State) (x : Nat) =>
        (t.sendDie ⟨.invalidate, h, x, old, none⟩).add (O.sfBackInvalidations h) 1) t (maskDies m)
      { t with dies := { t.dies with waits := t.dies.waits ++ [⟨old, true, none, maskDies m, [⟨d, block, none⟩]⟩] } }

/-- A core's MOVE_TENSOR has its answer for a block (R392, R394). -/
def State.moveServed (s : State) (c block : Nat) : State :=
  s.modCore c (fun k => { k with inflight := k.inflight.map (fun i => { i with asked := i.asked.map (dropFirst (fun b => decide (b = block))) }) })

/-- A READ or WRITE of a die is complete (R390): the core that waits for it goes on, and a request that waits for room leaves. -/
def State.opDone (s : State) (d block : Nat) (write : Bool) : State :=
  let mine := fun (o : DieOp) => decide (o.block = block)
  let c := s.cache d
  let o := (if write then c.writes else c.reads).find? mine
  let t := s.setCache d (if write then { c with writes := dropFirst mine c.writes } else { c with reads := dropFirst mine c.reads })
  let t := match o.bind DieOp.core with
    | some k => t.moveServed k block
    | none => t
  t.askLater d (homeOf block) write

/-- A write is complete at its home (R393, 5): WRITE_ACK goes to a writer on another die; a writer on the home die has no further to wait. -/
def State.homeWritten (s : State) (d block : Nat) : State :=
  if homeOf block = d then s.opDone d block true else s.sendDie ⟨.writeAck, homeOf block, d, block, none⟩

/-- A home takes a WRITE (R393): it writes its stack and sends INVALIDATE to every recorded holder but the writer. -/
def State.homeWrite (s : State) (d block : Nat) (content : Map Byte) : State :=
  if s.blockBusy block then s.waitBehind ⟨d, block, some content⟩
  else
    let h := homeOf block
    let f := blockFrame block
    let v := s.frame f
    let off := 4096 * (block % 16)
    let t := s.setFrame f { v with bytes := v.bytes.setBytes 0#8 off (content.bytes 0#8 0 4096),
                                   poison := v.poison.filter (fun b => decide (b ≠ block % 16)) }
    let t := (t.dropResident f 255).kpc 0x04 (blockStack block) 4096
    let c := t.cache h
    let m := holders c.filter block
    let gone := (maskDies m).filter (fun x => decide (x ≠ d))
    let t := t.setCache h { c with filter := setHolders c.filter block (if m.testBit d then 2 ^ d else 0) }
    if gone.isEmpty then t.homeWritten d block
    else
      let t := State.each (fun (t : State) (x : Nat) => t.sendDie ⟨.invalidate, h, x, block, none⟩) t gone
      { t with dies := { t.dies with waits := t.dies.waits ++ [⟨block, false, some d, gone, []⟩] } }

/-- A home serves a request. -/
def State.serveDie (s : State) (r : DieRequest) : State :=
  match r.content with
  | none => s.homeRead r.die r.block
  | some m => s.homeWrite r.die r.block m

/-- What follows when a wait has no INV_ACK left to come (R393, R395): its write is complete, and the home serves what waits behind. -/
def State.waitOver (s : State) (w : HomeWait) : State :=
  let t := match w.writer with
    | some d => s.homeWritten d w.block
    | none => s
  State.each State.serveDie t w.behind

/-- A home takes an INV_ACK of a die for a block: of the oldest wait that expects it. -/
def State.homeAck (s : State) (d block : Nat) : State :=
  match s.dies.waits.find? (fun w => decide (w.block = block) && w.acks.contains d) with
  | none => s
  | some w =>
    let left := w.acks.filter (fun x => decide (x ≠ d))
    if left.isEmpty then
      ({ s with dies := { s.dies with waits := dropFirst (fun x => decide (x = w)) s.dies.waits } }).waitOver w
    else
      { s with dies := { s.dies with waits := s.dies.waits.map (fun x => if x = w then { w with acks := left } else x) } }

/-- Whether a message of a kind for a block is on its way between two dies. -/
def State.inTransit (s : State) (kind : DieMsgKind) (src dst block : Nat) : Bool :=
  s.dies.msgs.any (fun m => decide (m.kind = kind) && decide (m.src = src) && decide (m.dst = dst) && decide (m.block = block))

/-- A READ that is on its way arrives at its home, if it is the next to arrive. -/
def State.readIn (s : State) (d block : Nat) : State :=
  match s.nextDie .read d (homeOf block) block with
  | some m => (s.takeDie m).homeRead d block
  | none => s

/-- A WRITE that is on its way arrives at its home, if it is the next to arrive. -/
def State.writeIn (s : State) (d block : Nat) : State :=
  match s.nextDie .write d (homeOf block) block with
  | some m => (s.takeDie m).homeWrite d block (m.content.getD Map.empty)
  | none => s

/-- A READ arrives at its home (R392, R396): one that is on its way, or one of a unit whose requests this model does not form itself; the latter
misses, or reads a block that has its line once more past the cache (R409). -/
def State.dieRead (s : State) (d block : Nat) : State :=
  if homeOf block = d ∨ s.reaches d block = false then s
  else if s.inTransit .read d (homeOf block) block then s.readIn d block
  else if 256 ≤ (onLink (homeOf block) (s.cache d).reads).length then s
  else
    (if !s.rlcOn d || (s.cache d).lines.contains block then s.askHome d ⟨block, none, none⟩ else s.missRead d block none).readIn d block

/-- A WRITE arrives at its home (R390, R393): one that is on its way, or one of a unit whose requests this model does not form itself. A write by
the home die itself starts there. -/
def State.dieWrite (s : State) (d block : Nat) (content : Map Byte) : State :=
  if s.reaches d block = false then s
  else if homeOf block = d then s.homeWrite d block content
  else if s.inTransit .write d (homeOf block) block then s.writeIn d block
  else if 64 ≤ (onLink (homeOf block) (s.cache d).writes).length then s
  else (s.askHome d ⟨block, none, some content⟩).writeIn d block

/-- READ_DATA arrives (R392, Table 15.3): it fills a line unless the cache is off, and serves its unit. -/
def State.dataIn (s : State) (d block : Nat) : State :=
  match s.nextDie .readData (homeOf block) d block with
  | none => s
  | some m =>
    let t := s.takeDie m
    let c := t.cache d
    (t.setCache d { c with lines := if t.rlcOn d then fillLine c.lines block else c.lines }).opDone d block false

/-- An INVALIDATE arrives (R393, R395): the holder drops its line, if it has one, and answers INV_ACK. -/
def State.invalidateIn (s : State) (d block : Nat) : State :=
  match s.nextDie .invalidate (homeOf block) d block with
  | none => s
  | some m => ((s.takeDie m).invalidateLine block d).sendDie ⟨.invAck, d, homeOf block, block, none⟩

/-- An INV_ACK arrives at the home (R393). -/
def State.ackIn (s : State) (d block : Nat) : State :=
  match s.nextDie .invAck d (homeOf block) block with
  | none => s
  | some m => (s.takeDie m).homeAck d block

/-- A WRITE_ACK arrives: the write is complete at the writer (R393). -/
def State.writeAckIn (s : State) (d block : Nat) : State :=
  match s.nextDie .writeAck (homeOf block) d block with
  | none => s
  | some m => (s.takeDie m).opDone d block true

/-- Every INV_ACK that a die still owes counts as given: it has no line any more (R397). -/
def State.acksOf (s : State) (d : Nat) : State :=
  State.each (fun (t : State) (w : HomeWait) => if w.acks.contains d then t.homeAck d w.block else t) s s.dies.waits

/-- Whether a message outlives the reset of a die (R397, R403): the requests of other dies to it, its answers to them, and what passes between
others. -/
def DieMsg.outlives (m : DieMsg) (d : Nat) : Bool :=
  if m.dst = d then decide (m.kind.cls = 0)
  else decide (m.src ≠ d) || decide (m.kind = .readData) || decide (m.kind = .writeAck)

/-- A compute die's caches when it leaves reset (R397): its lines and filter are empty, no other die has a line or a filter bit of it. What it
owes other homes counts as given; what other dies wait for is replayed after UP (R403), so its answers still reach them. -/
def State.dieRestarts (s : State) (d : Nat) : State :=
  let mine := s.dies.waits.filter (fun w => decide (homeOf w.block = d))
  let t := { s with dies := { s.dies with
    caches := s.dies.caches.change (fun c => c.without d),
    waits := (s.dies.waits.filter (fun (w : HomeWait) => decide (homeOf w.block ≠ d))).map (fun (w : HomeWait) =>
      { w with behind := w.behind.filter (fun (r : DieRequest) => decide (r.die ≠ d)) }),
    msgs := s.dies.msgs.filter (fun (m : DieMsg) => m.outlives d) } }
  let t := (t.setCache d DieCache.empty).acksOf d
  let t := State.each (fun (t : State) (m : DieMsg) =>
    if m.src = d ∧ m.kind = .readData ∧ m.dst < 4 then
      let c := t.cache d
      t.setCache d { c with filter := setHolders c.filter m.block (holders c.filter m.block ||| 2 ^ m.dst) }
    else t) t t.dies.msgs
  State.each (fun (t : State) (w : HomeWait) =>
    let t := match w.writer with
      | some x => if x = d then t else t.homeWritten x w.block
      | none => t
    State.each State.serveDie t (w.behind.filter (fun r => decide (r.die ≠ d)))) t mine

/-- A compute die is excluded: its messages and everything that waits for it are discarded (R397, R403). -/
def State.dieGone (s : State) (d : Nat) : State :=
  let clean := fun (c : DieCache) =>
    { c.without d with reads := c.reads.filter (fun o => decide (homeOf o.block ≠ d)), writes := c.writes.filter (fun o => decide (homeOf o.block ≠ d)),
                       later := c.later.filter (fun o => decide (homeOf o.block ≠ d)) }
  let t := { s with dies := { s.dies with
    caches := s.dies.caches.change clean,
    waits := (s.dies.waits.filter (fun (w : HomeWait) => decide (homeOf w.block ≠ d) && decide (w.writer ≠ some d))).map (fun (w : HomeWait) =>
      { w with behind := w.behind.filter (fun (r : DieRequest) => decide (r.die ≠ d)) }),
    msgs := s.dies.msgs.filter (fun (m : DieMsg) => decide (m.dst ≠ d) && decide (m.src ≠ d)) } }
  (t.setCache d DieCache.empty).acksOf d

end Sys2Proof.Machine
end

