-- ==== Sys2Proof/Machine/Moves.lean ====
section
/-! DEFINITION. Move descriptors (R107-R110): their fields, the checks at issue, and what a move reads and writes. -/

namespace Sys2Proof.Machine

/-- Source address after its selector (Table 5.7). -/
def mvSrc (x : Map W64) (d : Bytes) : Nat := addrOf x (byteField d 8 8) (byteField d 24 1)
/-- Destination address after its selector. -/
def mvDst (x : Map W64) (d : Bytes) : Nat := addrOf x (byteField d 16 8) (byteField d 25 1)
/-- DIR. -/
def mvDir (d : Bytes) : Nat := byteField d 26 1
/-- PEER. -/
def mvPeer (d : Bytes) : Nat := byteField d 27 1
/-- ROW_BYTES. -/
def mvRow (d : Bytes) : Nat := byteField d 28 4
/-- ROWS. -/
def mvRows (d : Bytes) : Nat := byteField d 32 4
/-- SRC_STRIDE. -/
def mvSrcStride (d : Bytes) : Nat := byteField d 36 4
/-- DST_STRIDE. -/
def mvDstStride (d : Bytes) : Nat := byteField d 40 4

/-- Whether the fields of a move make it invalid (R97, R107, Table 5.7). -/
def mvInvalid (own op : Nat) (d : Bytes) : Bool :=
  !selOk (byteField d 24 1) || !selOk (byteField d 25 1) || !zeroBytes d 44 64
    || (if op = 0x63 then decide (1 < mvDir d) else decide (mvDir d ≠ 0))
    || (if op = 0x62 then decide (63 < mvPeer d) || decide (mvPeer d = own) else decide (mvPeer d ≠ 0))
    || decide (mvRow d < 64) || decide (2 ^ 24 < mvRow d) || decide (mvRow d % 64 ≠ 0)
    || decide (mvRows d = 0) || decide (65536 < mvRows d) || decide (2 ^ 24 < mvRow d * mvRows d)
    || (decide (1 < mvRows d) && (decide (mvSrcStride d % 64 ≠ 0) || decide (mvDstStride d % 64 ≠ 0)))

/-- The rows of one side of a move by address. -/
def mvRowsAt (a stride : Nat) (d : Bytes) : List Nat := (natsFrom 0 (mvRows d)).map (fun i => a + i * stride)

/-- Whether every row lies in a space. -/
def rowsIn (inside : Nat → Nat → Bool) (a stride : Nat) (d : Bytes) : Bool := (mvRowsAt a stride d).all (fun r => inside r (mvRow d))

/-- Whether rows of the source share a byte with rows of the destination (R108). -/
def rowsMeet (x : Map W64) (d : Bytes) : Bool :=
  let n := mvRow d
  (mvRowsAt (mvSrc x d) (mvSrcStride d) d).any (fun a =>
    (mvRowsAt (mvDst x d) (mvDstStride d) d).any (fun b => decide (a < b + n) && decide (b < a + n)))

/-- Whether `n` bytes from `a` lie in the tensor address space (Table 5.1). -/
def inTensor (a n : Nat) : Bool := decide (a + n ≤ 2 ^ 48)

/-- The tensor blocks (address / 4,096) that the rows of one side touch, in order. -/
def mvBlocks (a stride : Nat) (d : Bytes) : List Nat := (mvRowsAt a stride d).flatMap (fun r => blocksOf r (mvRow d))

/-- The work item whose version a core's accesses to its weight window use (R240): of a core that the Pacer has dispatched. -/
def State.itemOf (s : State) (c : Nat) : Option (Nat × Nat) :=
  let i := s.bentSlot (c / 64)
  if i = 0xFF then none
  else
    match (s.slot i).item with
    | none => none
    | some it => ((s.slot i).micro? it.mb).map (fun m => (i, batonVersion m.baton))

/-- Whether a core may write a tensor block: no window of a planned slot (R240), a bucket only while it is FILLING (R267), a ring block
only as R309 allows. -/
def State.blockWritable (s : State) (b : Nat) : Bool :=
  !(s.inWindow (b / 16))
    && (match s.bucketOf (b / 16) with
        | some (i, k) => decide ((s.bucket i k).state = 1)
        | none => true)
    && (match s.ringKeyOf b with
        | some (i, out, k) => s.ringWritable i out k
        | none => true)

/-- Whether a move writes an outgoing ring block twice (R309: a block that is written is not written again). -/
def State.ringTwice (s : State) : List Nat → Bool
  | [] => false
  | b :: r => (r.contains b && (s.ringKeyOf b).isSome) || State.ringTwice s r

/-- Whether a core may read a tensor block: no optimizer window of a planned slot (R240). -/
def State.blockReadable (s : State) (b : Nat) : Bool := !(s.planned.any (fun i => s.inOptimizer i (b / 16)))

/-- The fault of a move's addresses at issue (R108-R110, R240, R267, R309): 0 none. -/
def State.mvFault (s : State) (c op : Nat) (d : Bytes) : Nat :=
  let x := (s.core c).x
  let src := mvSrc x d
  let dst := mvDst x d
  let ss := mvSrcStride d
  let ds := mvDstStride d
  let sCore := rowsIn inCore src ss d
  let dCore := rowsIn inCore dst ds d
  let sBent := rowsIn inBent src ss d
  let dBent := rowsIn inBent dst ds d
  if src % 64 ≠ 0 ∨ dst % 64 ≠ 0 then 0x02
  else if op = 0x60 then (if !(sCore && dCore) then 0x02 else if rowsMeet x d then 0x03 else 0)
  else if op = 0x61 then (if (sCore && dBent) || (sBent && dCore) then 0 else 0x02)
  else if op = 0x62 then
    (if !(sCore && dCore) || decide ((s.core (c / 64 * 64 + mvPeer d)).state = .off) then 0x02 else 0)
  else if mvDir d = 0 then
    let bs := mvBlocks src ss d
    if !(rowsIn inTensor src ss d) || !(dCore || dBent) || !(bs.all s.blockReadable) then 0x02
    else if bs.all (fun b => s.mapped (b / 16)) then 0 else 0x04
  else
    let bs := mvBlocks dst ds d
    if !(rowsIn inTensor dst ds d) || !(sCore || sBent) || decide (dst % 4096 ≠ 0) || decide (mvRow d % 4096 ≠ 0)
        || (decide (1 < mvRows d) && decide (ds % 4096 ≠ 0)) || !(bs.all s.blockWritable) || s.ringTwice bs then 0x02
    else if bs.all (fun b => s.mapped (b / 16)) then 0 else 0x04

/-- X registers of a move's selectors. -/
def mvXs (d : Bytes) : List Nat :=
  ([24, 25].filter (fun i => selUse (byteField d i 1))).map (fun i => selReg (byteField d i 1))

/-- Issue a move descriptor (R107, R108). -/
def State.mvIssue (s : State) (c op : Nat) (effect : State → Core → Bytes → State) : State :=
  s.issue c op
    (fun s c d => { invalid := mvInvalid (c % 64) op d, xs := mvXs d, tiles := [], fault := s.mvFault c op d, next := (s.core c).dptr + 64 })
    effect

/-- What became of an attempt to run a descriptor in its unit. -/
inductive Ran where
  /-- It waits. -/
  | waits
  /-- It is complete. -/
  | done (t : State)
  /-- It has begun and waits for something that another row brings. -/
  | begun (t : State)
  /-- It faults. -/
  | faults (t : State) (code : Nat)

/-- Write the rows of a local destination: own core memory or Bent window, or a peer's core memory. -/
def State.putRows (s : State) (c peer : Nat) (dst stride : Nat) (rows : List Bytes) : State :=
  (rows.foldl (fun (p : State × Nat) bs =>
    ((if peer = c then p.1.writeLocal c p.2 bs else p.1.modCore peer (fun k => { k with mem := k.mem.setBytes 0#8 p.2 bs })),
      p.2 + stride)) (s, dst)).1

/-- Count the bytes of tensor memory that the HBM of their stacks delivers or takes (Tables 18.3, 18.4). -/
def State.countHbm (s : State) (event b : Nat) (blocks : List (Nat × Nat × Nat)) : State :=
  (State.each (fun (t : State) (x : Nat × Nat × Nat) => t.kpc event (frameStack x.2.1) 4096) s blocks).bpc b 0x05 (4096 * blocks.length)

/-- Change the issued descriptor of a core at a position. -/
def State.modIssued (s : State) (c pos : Nat) (f : Issued → Issued) : State :=
  s.modCore c (fun k => { k with inflight := modNth f pos k.inflight })

/-- The blocks of other dies that the page mover of a die reads and that no resident copy has (R392): the state, and those that it waits for, as
blocks of their frames. A block is (address / 4,096, frame, pool). -/
def State.askReads (s : State) (c : Nat) : List (Nat × Nat × Nat) → State × List Nat
  | [] => (s, [])
  | x :: r =>
    let b := 16 * x.2.1 + x.1 % 16
    let (t, served) := s.wantRead (c / 768) b (some c)
    let (t, rest) := State.askReads t c r
    (t, if served then rest else b :: rest)

/-- The suspect of a first read by the page mover of a core's die that fails its check while the re-read passes (Table 16.2): the Bent of a resident
copy, the stack of a block of the own die, the die link that a block came over, or the die whose cache had it. -/
def State.readSuspect (s : State) (c : Nat) (i : Issued) (x : Nat × Nat × Nat) : Nat :=
  let b := 16 * x.2.1 + x.1 % 16
  if s.isResident (c / 64) x.2.1 then s.suspect susBent (c / 64)
  else if homeOf b = c / 768 then s.suspect susStack (frameStack x.2.1)
  else if i.came.contains b then s.suspect susLink ((linkBetween (homeOf b) (c / 768)).getD 0)
  else s.suspect susDie (c / 768)

/-- The blocks of a tensor read whose first read fails: block, suspect, and whether the re-read passes (R409). -/
def State.firstFails (s : State) (c : Nat) (i : Issued) (list : List (Nat × Nat × Nat)) : List (Nat × Nat × Bool) :=
  list.filterMap (fun x =>
    (i.reads.find? (fun r => decide (r.block = x.1))).map (fun r => (x.1, s.readSuspect c i x, r.rereadPasses)))

/-- The end of a MOVE_TENSOR with DIR 0x00: its blocks are verified and its bytes go to their destination (R109, R409). -/
def State.endTensorRead (s : State) (c : Nat) (i : Issued) (list : List (Nat × Nat × Nat)) : Ran :=
  let d := i.desc
  let (t, ok) := (s.bpc (c / 64) 0x0B list.length).verify (s.firstFails c i list) list
  if !ok then .faults t 0x07
  else
    let rows := (mvRowsAt (mvSrc i.x d) (mvSrcStride d) d).map (fun r => t.tensorBytes (s.itemOf c) r (mvRow d))
    .done ((t.putRows c c (mvDst i.x d) (mvDstStride d) rows).pc c 0x0E (mvRow d * mvRows d))

/-- MOVE_TENSOR from tensor memory (R109, R238, R310, R392): it waits for ring blocks that have not landed, which its watchdog does not time, and
then for the blocks of other dies that it asks for. -/
def State.runTensorRead (s : State) (c pos : Nat) (i : Issued) : Ran :=
  let d := i.desc
  let src := mvSrc i.x d
  let bs := distinct (mvBlocks src (mvSrcStride d) d)
  let unlanded := bs.any (fun b =>
    match s.ringKeyOf b with
    | some (n, false, k) => !((s.slot n).landed.contains k)
    | _ => false)
  let list := bs.filterMap (fun b => (s.resolve (s.itemOf c) (b / 16)).map (fun f => (b, f, (s.page (b / 16)).pool)))
  if unlanded then
    if i.ring.isSome then .waits
    else .begun (s.modIssued c pos (fun i =>
      { i with stage := .begun, ring := some (i.due - s.now), due := s.now + s.rd (O.chWaitLimit (c / 64)) }))
  else if !(bs.all (fun b => s.mapped (b / 16))) then .faults s 0x04
  else
    match i.asked with
    | some [] => s.endTensorRead c i list
    | some _ => .waits
    | none =>
      let cold := list.filter (fun x => !(s.isResident (c / 64) x.2.1))
      let near := cold.filter (fun x => decide (homeOf (16 * x.2.1 + x.1 % 16) = c / 768))
      let t := (s.countReads (c / 64) (distinct (list.map (fun x => x.2.1)))).countHbm 0x03 (c / 64) near
      let (t, far) := t.askReads c cold
      if far.isEmpty then t.endTensorRead c i list
      else .begun ((t.bpc (c / 64) 0x05 (4096 * far.length)).modIssued c pos (fun i =>
        { i with stage := .begun, asked := some far, came := far, due := i.ring.elim i.due (fun r => s.now + r), ring := none }))

/-- The tensor blocks that the rows of a MOVE_TENSOR with DIR 0x01 write, each with its content (R109). -/
def State.movedBlocks (s : State) (c : Nat) (i : Issued) : List (Nat × Bytes) :=
  let d := i.desc
  ((mvRowsAt (mvDst i.x d) (mvDstStride d) d).zip (mvRowsAt (mvSrc i.x d) (mvSrcStride d) d)).flatMap (fun p =>
    (natsFrom 0 (mvRow d / 4096)).map (fun n => (p.1 / 4096 + n, s.readLocal c (p.2 + 4096 * n) 4096)))

/-- Whether a write of a block is complete at once: the block is of the writer's own die, no other die holds it and nothing waits for it (R393). -/
def State.plainWrite (s : State) (d block : Nat) : Bool :=
  decide (homeOf block = d) && decide (holders (s.cache d).filter block = 0) && !s.blockBusy block

/-- The page mover of a core's die writes a block (R390, R393): at its own stack, or by a WRITE to the block's home. -/
def State.moveBlock (s : State) (c : Nat) (p : Nat × Bytes) : State :=
  let f := (s.page (p.1 / 16)).frame
  let d := c / 768
  let block := 16 * f + p.1 % 16
  let t := (s.dropResident f (c / 64)).writeResident (c / 64) f (4096 * (p.1 % 16)) p.2
  if s.plainWrite d block then t.writeFrameBy d f (4096 * (p.1 % 16)) p.2
  else
    let m := (Map.empty : Map Byte).setBytes 0#8 0 p.2
    if homeOf block = d then
      (t.setCache d { t.cache d with writes := (t.cache d).writes ++ [⟨block, some c, some m⟩] }).homeWrite d block m
    else t.askHome d ⟨block, some c, some m⟩

/-- The end of a MOVE_TENSOR with DIR 0x01 (R266, R309, R394): outgoing ring blocks are sent; the last micro-batch's W makes bucket blocks final. -/
def State.endTensorWrite (s : State) (c : Nat) (i : Issued) : State :=
  let d := i.desc
  let bs := mvBlocks (mvDst i.x d) (mvDstStride d) d
  let t := (s.bpc (c / 64) 0x0B bs.length).pc c 0x0E (mvRow d * mvRows d)
  let t := State.each (fun (t : State) (b : Nat) =>
    match t.ringKeyOf b with
    | some (n, true, k) => t.sendRing n k
    | _ => t) t bs
  let n := t.bentSlot (c / 64)
  let last := decide (n ≠ 0xFF) && ((t.slot n).item).elim false (fun it => decide (it.kind = 3) && decide (it.mb + 1 = t.rd (O.microBatches n)))
  if last then t.finalBlocks bs else t

/-- The writes of a core's MOVE_TENSOR that its die still waits for. -/
def State.openWrites (s : State) (c : Nat) : List Nat :=
  (((s.cache (c / 768)).writes ++ (s.cache (c / 768)).later).filter (fun o => decide (o.core = some c))).map DieOp.block

/-- MOVE_TENSOR to tensor memory (R109, R238, R393, R394): whole blocks with new check values; the copies of other Bents are dropped; it completes
when its writes are complete. -/
def State.runTensorWrite (s : State) (c pos : Nat) (i : Issued) : Ran :=
  let bs := mvBlocks (mvDst i.x i.desc) (mvDstStride i.desc) i.desc
  match i.asked with
  | some [] => .done (s.endTensorWrite c i)
  | some _ => .waits
  | none =>
    if !(bs.all (fun b => s.mapped (b / 16))) then .faults s 0x04
    else if !(bs.all s.blockWritable) then .faults s 0x02
    else
      let t := State.each (fun (t : State) (p : Nat × Bytes) => t.moveBlock c p) s (s.movedBlocks c i)
      let t := t.bpc (c / 64) 0x05 (4096 * bs.length)
      let far := t.openWrites c
      if far.isEmpty then .done (t.endTensorWrite c i)
      else .begun (t.modIssued c pos (fun i => { i with stage := .begun, asked := some far }))

/-- Run a move (R107-R110). -/
def State.runMove (s : State) (c pos : Nat) (i : Issued) : Ran :=
  let d := i.desc
  let op := dOp d
  if op = 0x63 then (if mvDir d = 0 then s.runTensorRead c pos i else s.runTensorWrite c pos i)
  else
    let peer := if op = 0x62 then c / 64 * 64 + mvPeer d else c
    if (s.core peer).state = .off then .done s
    else
      let rows := (mvRowsAt (mvSrc i.x d) (mvSrcStride d) d).map (fun r => s.readLocal c r (mvRow d))
      .done ((s.putRows c peer (mvDst i.x d) (mvDstStride d) rows).pc c 0x0E (mvRow d * mvRows d))

end Sys2Proof.Machine
end

