-- ==== Sys2Proof/Machine/Pictures.lean ====
section
/-! DEFINITION. From decoded pictures to video tokens: the window (R324), deinterlacing, frame selection, cropping and scaling at the
decoder (R331-R334), colour conversion and patch tokens at the sink (R335, R336). -/

namespace Sys2Proof.Machine

/-- Whether a presentation time lies in a window (R324). -/
def inPtsWindow (start stop p : Nat) : Bool :=
  decide ((p + 2 ^ 33 - start % 2 ^ 33) % 2 ^ 33 < (stop + 2 ^ 33 - start % 2 ^ 33) % 2 ^ 33)

/-! ### Deinterlacing (R331) -/

/-- The mean of two lines, rounded up. -/
def meanLine (a b : List Nat) : List Nat := (a.zip b).map (fun p => (p.1 + p.2 + 1) / 2)

/-- The lines of one field of a plane (`odd` for the bottom field), each missing line made from the field's lines above and below it. -/
def fieldRows (rows : List (List Nat)) (odd : Bool) : List (List Nat) :=
  (natsFrom 0 rows.length).map (fun y =>
    if decide (y % 2 = 1) = odd then rows.getD y []
    else
      let above := if 1 ≤ y then rows[y - 1]? else none
      match above, rows[y + 1]? with
      | some a, some b => meanLine a b
      | some a, none => a
      | none, some b => b
      | none, none => rows.getD y [])

/-- One field of a plane as a plane. -/
def planeField (p : Plane) (odd : Bool) : Plane := { p with rows := fieldRows p.rows odd }

/-- One field of a picture as a frame at a time. -/
def pictureField (p : Picture) (odd : Bool) (pts : Nat) : Picture :=
  { p with pts := pts % 2 ^ 33, luma := planeField p.luma odd, cb := planeField p.cb odd, cr := planeField p.cr odd }

/-- The frames that DEINTERLACE makes of a picture (R331, R332): 0 WEAVE, 1 FIELD, 2 TOP_ONLY. -/
def deinterlaced (mode : Nat) (p : Picture) : List Picture :=
  if !p.interlaced ∨ mode = 0 then [p]
  else if mode = 1 then
    [pictureField p (!p.topFirst) p.pts, pictureField p p.topFirst (p.pts + p.fieldTicks)]
  else [pictureField p false (if p.topFirst then p.pts else p.pts + p.fieldTicks)]

/-- The frames in the window, of which every FRAME_STRIDE-th is kept (R332). -/
def keptFrames (mode stride start stop : Nat) (ps : List Picture) : List Picture :=
  let fs := (ps.flatMap (deinterlaced mode)).filter (fun f => inPtsWindow start stop f.pts)
  (fs.zip (natsFrom 0 fs.length)).filterMap (fun f => if f.2 % stride = 0 then some f.1 else none)

/-! ### Cropping and scaling (R333, R334) -/

/-- The cropped size of a frame of `w` × `h` (R333). -/
def cropSize (mode w h ow oh : Nat) : Nat × Nat :=
  if mode = 0 then (w, h)
  else
    let hc := 2 * (w * oh / (2 * ow))
    if hc ≤ h then (w, hc) else (2 * (h * ow / (2 * oh)), h)

/-- The part of a plane from an offset, of a size. -/
def cropRows (rows : List (List Nat)) (x y w h : Nat) : List (List Nat) := ((rows.drop y).take h).map (fun r => (r.drop x).take w)

/-- Neighbours replaced by their mean: the width halves. -/
def halveLine : List Nat → List Nat
  | a :: b :: r => (a + b + 1) / 2 :: halveLine r
  | _ => []

/-- Halve while the width is at least twice the output's. -/
def prescale (out : Nat) (l : List Nat) : Nat → List Nat
  | 0 => l
  | n + 1 => if 2 * out ≤ l.length then prescale out (halveLine l) n else l

/-- X16 of an output place (R334). -/
def scaleAt (out width x : Nat) : Nat :=
  min (((2 * x + 1) * width - out) * 65536 / (2 * out)) ((width - 1) * 65536)

/-- The value between two neighbours of a line at a place, times 256. -/
def sampleLine (l : List Nat) (x16 : Nat) : Nat :=
  let i := x16 / 65536
  let f := x16 / 256 % 256
  l.getD i 0 * (256 - f) + l.getD (min (i + 1) (l.length - 1)) 0 * f

/-- One line scaled to `out` places; each value is times 256. -/
def scaleLine (out : Nat) (l : List Nat) : List Nat :=
  let p := prescale out l 13
  (natsFrom 0 out).map (fun x => sampleLine p (scaleAt out p.length x))

/-- Rows as columns: `n` columns. -/
def columns (n : Nat) (rows : List (List Nat)) : List (List Nat) := (natsFrom 0 n).map (fun x => rows.map (fun r => r.getD x 0))

/-- Rows scaled to `ow` × `oh` (R334). -/
def scaleRows (ow oh : Nat) (rows : List (List Nat)) : List (List Nat) :=
  let cols := (columns ow (rows.map (scaleLine ow))).map (fun c => (scaleLine oh c).map (fun v => (v + 32768) / 65536))
  columns oh cols

/-- A plane of a frame of `w` × `h` cropped and scaled; a subsampled plane takes its own size and halved offsets (R334). -/
def planeFitted (p : Plane) (mode w h ow oh : Nat) : Plane :=
  let c := cropSize mode w h ow oh
  let x := (w - c.1) / 4 * 2
  let y := (h - c.2) / 4 * 2
  let sx := if p.width < w then 2 else 1
  let sy := if p.height < h then 2 else 1
  ⟨ow, oh, scaleRows ow oh (cropRows p.rows (x / sx) (y / sy) ((c.1 + sx - 1) / sx) ((c.2 + sy - 1) / sy))⟩

/-- The matrix that colour conversion takes (R335): the signalled one of 1, 5, 6 and 9; BT.709 or BT.601 by the display height else. -/
def matrixOf (code height : Nat) : Nat :=
  if code = 1 ∨ code = 5 ∨ code = 6 ∨ code = 9 then code else if 576 < height then 1 else 5

/-- A kept frame as the decoder sends it on (R333, R334). -/
def pictureFitted (p : Picture) (mode ow oh : Nat) : Picture :=
  let w := p.luma.width
  let h := p.luma.height
  { p with matrix := matrixOf p.matrix h, luma := planeFitted p.luma mode w h ow oh, cb := planeFitted p.cb mode w h ow oh,
           cr := planeFitted p.cr mode w h ow oh, cc := [] }

/-! ### Colour (R335) -/

/-- The FP32 value nearest p / q. -/
def ratioF32 (p q : Nat) : W32 := (toF32 (.fin false (p * 2 ^ 200 / q * 2 + (if p * 2 ^ 200 % q = 0 then 0 else 1)) (-201))).1

/-- The FP32 value nearest an exact integer difference times an FP32 factor. -/
def rnScaled (v : Int) (f : W32) : W32 := (toF32 ((Num.fin (decide (v < 0)) v.natAbs 0).mul (f32 f)).1).1

/-- One rounding of a product, a sum, a difference. -/
def rnMul (a b : W32) : W32 := (f32Mul a b).1
/-- A sum. -/
def rnAdd (a b : W32) : W32 := (f32Add a b).1
/-- A difference. -/
def rnSub (a b : W32) : W32 := (f32Sub a b).1

/-- Kr and Kb of a matrix, in ten-thousandths. -/
def matrixK (code : Nat) : Nat × Nat := if code = 5 ∨ code = 6 then (2990, 1140) else if code = 9 then (2627, 593) else (2126, 722)

/-- The three channels of a pixel (R335). -/
def pixelChannels (p : Picture) (ycc : Bool) (gain bias : W32) (y cb cr : Nat) : List W32 :=
  let u := 2 ^ (p.depth - 8)
  let top := 2 ^ p.depth - 1
  let sy := if p.fullRange then ratioF32 1 top else ratioF32 1 (219 * u)
  let sc := if p.fullRange then ratioF32 1 top else ratioF32 1 (224 * u)
  let mid : Int := (2 ^ (p.depth - 1) : Nat)
  let vy := rnScaled ((y : Int) - (if p.fullRange then 0 else (16 * u : Nat))) sy
  let vb := rnScaled ((cb : Int) - mid) sc
  let vr := rnScaled ((cr : Int) - mid) sc
  let k := matrixK p.matrix
  let kg := 10000 - k.1 - k.2
  let c1 := ratioF32 (2 * (10000 - k.1)) 10000
  let c2 := ratioF32 (2 * (10000 - k.2)) 10000
  let c3 := ratioF32 (2 * k.2 * (10000 - k.2)) (10000 * kg)
  let c4 := ratioF32 (2 * k.1 * (10000 - k.1)) (10000 * kg)
  let ch := if ycc then [vy, vb, vr]
    else [rnAdd vy (rnMul c1 vr), rnSub (rnSub vy (rnMul c3 vb)) (rnMul c4 vr), rnAdd vy (rnMul c2 vb)]
  ch.map (fun c => rnAdd (rnMul c gain) bias)

/-- The converted channels of one place of a frame. -/
def channelsAt (p : Picture) (ycc : Bool) (gain bias : W32) (row col : Nat) : List W32 :=
  pixelChannels p ycc gain bias ((p.luma.rows.getD row []).getD col 0) ((p.cb.rows.getD row []).getD col 0)
    ((p.cr.rows.getD row []).getD col 0)

/-! ### Patch tokens (R336) -/

/-- The bytes of a token: its elements, its block scales, zeros up to its size (R336, R339). -/
def tokenBytesOf (conv size : Nat) (elems : List W32) : Bytes :=
  match convOf conv with
  | none => List.replicate size 0#8
  | some c =>
    let r := convertRun c (elems.map f32) (elems.map (fun _ => Rnd.rne))
    let b := r.1 ++ r.2.1
    (b ++ List.replicate (size - b.length) 0#8).take size

/-- The bytes that `n` elements and their block scales occupy under a conversion control. -/
def tokenSize (conv n : Nat) : Nat :=
  match convOf conv with
  | none => 0
  | some c => c.fmt.bytesOf n + (if c.block = 0 then 0 else n / c.block)

/-- The settings of the Layout engine's patch work. -/
structure Patch where
  t    : Nat
  h    : Nat
  w    : Nat
  rows : Nat
  cols : Nat
  ycc  : Bool
  gain : W32
  bias : W32

/-- Video tokens of a sample of `n` frames (R336). -/
def Patch.tokens (a : Patch) (n : Nat) : Nat := (n + a.t - 1) / a.t * a.rows * a.cols

/-- The elements of token `k` of a sample (R336): the last frame stands in for those that its last group lacks. -/
def Patch.elements (a : Patch) (frames : List Picture) (k : Nat) : List W32 :=
  let tp := k / (a.rows * a.cols)
  let yp := k / a.cols % a.rows
  let xp := k % a.cols
  (natsFrom 0 a.t).flatMap (fun dt =>
    match frames[min (a.t * tp + dt) (frames.length - 1)]? with
    | none => []
    | some f =>
      (natsFrom 0 a.h).flatMap (fun dh =>
        (natsFrom 0 a.w).flatMap (fun dw => channelsAt f a.ycc a.gain a.bias (a.h * yp + dh) (a.w * xp + dw))))

end Sys2Proof.Machine
end

