-- ==== Sys2Proof/Machine/Audio.lean ====
section
/-! DEFINITION. Audio: downmix, alignment, resampling (R338) at the decoder, and audio tokens (R339) at the sink. -/

namespace Sys2Proof.Machine

/-- The FP32 value nearest the square root of one half. -/
def downK : W32 := 0x3F3504F3#32
/-- The FP32 value nearest 1 / (1 + √2). -/
def downG : W32 := 0x3ED413CD#32

/-- A sample of a channel: a channel that the stream does not carry, and a place past its end, is +0. -/
def chanAt (c : Option (List W32)) (n : Nat) : W32 := (c.getD []).getD n 0#32

/-- Samples of the longest channel. -/
def pcmLength (a : Pcm) : Nat := ([a.l, a.r, a.c, a.lfe, a.ls, a.rs].map (fun c => (c.getD []).length)).foldl max 0

/-- Whether a source carries only C. -/
def onlyC (a : Pcm) : Bool := a.c.isSome && a.l.isNone && a.r.isNone && a.lfe.isNone && a.ls.isNone && a.rs.isNone
/-- Whether a source carries only L and R. -/
def onlyLR (a : Pcm) : Bool := a.l.isSome && a.r.isSome && a.c.isNone && a.lfe.isNone && a.ls.isNone && a.rs.isNone

/-- One side of the two-channel downmix (R338). -/
def downSide (side c s : W32) : W32 := rnMul downG (rnAdd (rnAdd side (rnMul downK c)) (rnMul downK s))

/-- Lo and Ro of a sample. -/
def stereoAt (a : Pcm) (n : Nat) : W32 × W32 :=
  if onlyLR a then (chanAt a.l n, chanAt a.r n)
  else if onlyC a then (chanAt a.c n, chanAt a.c n)
  else (downSide (chanAt a.l n) (chanAt a.c n) (chanAt a.ls n), downSide (chanAt a.r n) (chanAt a.c n) (chanAt a.rs n))

/-- The channels after downmix to `n` channels (R338). -/
def downmix (a : Pcm) (n : Nat) : List (List W32) :=
  let at_ := natsFrom 0 (pcmLength a)
  if n = 1 then
    [at_.map (fun i => if onlyC a then chanAt a.c i else let p := stereoAt a i; rnMul (rnAdd p.1 p.2) 0x3F000000#32)]
  else [at_.map (fun i => (stereoAt a i).1), at_.map (fun i => (stereoAt a i).2)]

/-- A channel aligned to the start of the window (R338). -/
def alignAt (start pts0 rate : Nat) (l : List W32) : List W32 :=
  let ahead := (start + 2 ^ 33 - pts0 % 2 ^ 33) % 2 ^ 33
  if ahead < 2 ^ 32 then l.drop (ahead * rate / 90000)
  else List.replicate ((2 ^ 33 - ahead) * rate / 90000) 0#32 ++ l

/-- The sum of a group in ascending order, one rounding at each addition. -/
def groupSum : List W32 → W32
  | [] => 0#32
  | a :: r => r.foldl rnAdd a

/-- The first stage of resampling: groups of `d` become their mean. -/
def decimate (d : Nat) (l : List W32) : List W32 :=
  (natsFrom 0 (l.length / d)).map (fun j => rnMul (groupSum ((l.drop (d * j)).take d)) (ratioF32 1 d))

/-- A place of a sequence as R338 reads it: the last sample past the end, +0 when there is none. -/
def heldAt (l : List W32) (i : Nat) : W32 := l.getD (min i (l.length - 1)) 0#32

/-- The second stage: output sample `n` of a sequence at rate `fs` brought to rate `ft`. -/
def interpolate (b : List W32) (fs ft n : Nat) : W32 :=
  let x := n * fs * 65536 / ft
  let i := x / 65536
  let d := rnSub (heldAt b (i + 1)) (heldAt b i)
  rnAdd (heldAt b i) (toF32 ((f32 d).mul (.fin false (x % 65536) (-16))).1).1

/-- The target rate (Table 13.15). -/
def audioRateHz (v : Nat) : Nat := if v = 1 then 48000 else 16000

/-- Output samples of a window (R338). -/
def windowSamples (start stop ft : Nat) : Nat := (stop + 2 ^ 33 - start % 2 ^ 33) % 2 ^ 33 * ft / 90000

/-- A channel at the target rate over the window (R338). -/
def resampled (start stop ft pts0 fs : Nat) (l : List W32) : List W32 :=
  let a := alignAt start pts0 fs l
  let d := fs / ft
  let b := if 2 * ft ≤ fs then decimate d a else a
  let r := if 2 * ft ≤ fs then fs / d else fs
  (natsFrom 0 (windowSamples start stop ft)).map (interpolate b r ft)

/-- The PCM of a sample as the decoder sends it (R338, R349): the channels at the target rate. -/
def samplePcm (start stop ft channels : Nat) (a : Pcm) : List (List W32) :=
  (downmix a channels).map (resampled start stop ft a.pts0 a.rate)

/-- Audio tokens of a sample (R339). -/
def audioTokens (per : Nat) (pcm : Option (List (List W32))) : Nat :=
  match pcm with
  | some (c :: _) => (c.length + per - 1) / per
  | _ => 0

/-- The elements of audio token `j`: sample-major, +0 past the end (R339). -/
def audioElements (per : Nat) (pcm : List (List W32)) (j : Nat) : List W32 :=
  (natsFrom (j * per) per).flatMap (fun n => pcm.map (fun c => c.getD n 0#32))

end Sys2Proof.Machine
end

