-- ==== Sys2Proof/Machine/Shuffle.lean ====
section
/-! DEFINITION. Positions and the stream index (R318), and the shuffle of R344. -/

namespace Sys2Proof.Machine

/-- The smallest even width from `b` up whose range holds `n` (R344). -/
def shuffleBits (n b : Nat) : Nat → Nat
  | 0 => b
  | k + 1 => if 2 ^ b < n then shuffleBits n (b + 2) k else b

/-- One round of the Feistel network. -/
def feistelRound (k0 k1 h e stream : Nat) (lr : Nat × Nat) (i : Nat) : Nat × Nat :=
  (lr.2, lr.1 ^^^ ((philox k0 k1 ⟨lr.2, i, e % 2 ^ 32, stream⟩).a % 2 ^ h))

/-- The eight-round network on [0, 2^(2h)). -/
def feistel (k0 k1 h e stream y : Nat) : Nat :=
  let r := (natsFrom 0 8).foldl (feistelRound k0 k1 h e stream) (y / 2 ^ h, y % 2 ^ h)
  r.1 * 2 ^ h + r.2

/-- The network applied until its value lies below `n`. -/
def cycleWalk (k0 k1 h e stream n y : Nat) : Nat → Nat
  | 0 => y
  | k + 1 => let z := feistel k0 k1 h e stream y
             if n ≤ z then cycleWalk k0 k1 h e stream n z k else z

/-- The sample id of position `p` in data epoch `e` (R344): the walk returns below `n` within 2^b evaluations. -/
def shuffle (seed stream n p e : Nat) : Nat :=
  let b := shuffleBits n 2 19
  cycleWalk (seed % 2 ^ 32) (seed / 2 ^ 32 % 2 ^ 32) (b / 2) e stream n p (2 ^ b)

/-- The global position of slot `u` (R318). -/
def State.slotGlobal (s : State) (u : Nat) : Nat := u * s.rd O.replicas + s.rd O.dataReplica
/-- The data epoch of slot `u`. -/
def State.slotEpoch (s : State) (u : Nat) : Nat := s.slotGlobal u / s.rd O.samplesTotal
/-- The position of slot `u`. -/
def State.slotPosition (s : State) (u : Nat) : Nat := s.slotGlobal u % s.rd O.samplesTotal
/-- The sample id of slot `u`. -/
def State.slotSample (s : State) (u : Nat) : Nat :=
  shuffle (s.rd O.jobSeed) (s.rd O.shuffleStream) (s.rd O.samplesTotal) (s.slotPosition u) (s.slotEpoch u)

/-- The first stream index of a data epoch: the first `u` whose global position reaches it. -/
def State.epochStart (s : State) (e : Nat) : Nat :=
  (e * s.rd O.samplesTotal - s.rd O.dataReplica + s.rd O.replicas - 1) / s.rd O.replicas

end Sys2Proof.Machine
end

