-- ==== Sys2Proof/Machine/Sink.lean ====
section
/-! DEFINITION. The sink of the data engine (R316, R317, R345-R347, R349): slots that arrive, candidates in stream order, the candidate
ring, and the decoders' view of the sinks' cursors. -/

namespace Sys2Proof.Machine

/-- Whether the package is a decoder (R316). -/
def State.isDecoder (s : State) : Bool := (s.rd O.dataRole).testBit 0
/-- Whether the package is a sink. -/
def State.isSink (s : State) : Bool := (s.rd O.dataRole).testBit 1

/-- The package of a decoder index; 0xFFFF for none. -/
def State.decoderAt (s : State) (i : Nat) : Nat := if i < 255 then s.rd (O.decoderTable i) else 0xFFFF
/-- The decoders of the replica: index and package. -/
def State.decoderList (s : State) : List (Nat × Nat) :=
  ((natsFrom 0 255).map (fun i => (i, s.rd (O.decoderTable i)))).filter (fun d => decide (d.2 ≠ 0xFFFF))
/-- The sinks of the replica: slice and package. -/
def State.sinkList (s : State) : List (Nat × Nat) :=
  ((natsFrom 0 128).map (fun i => (i, s.rd (O.sinkTable i)))).filter (fun d => decide (d.2 ≠ 0xFFFF))
/-- The own decoder index. -/
def State.ownDecoder (s : State) : Nat := ((s.decoderList.find? (fun d => decide (d.2 = s.node.id))).map Prod.fst).getD 0
/-- The own slice as a sink. -/
def State.ownSink (s : State) : Nat := ((s.sinkList.find? (fun d => decide (d.2 = s.node.id))).map Prod.fst).getD 0

/-- Whether the package is the sink that offers candidates to a slot (R347). -/
def State.sinkFor (s : State) (i : Nat) : Bool :=
  s.isSink && decide (s.jobStageOf i = 0) && decide (s.rd (O.replica i) = s.rd O.dataReplica)
    && decide (s.rd (O.seqSlice i) < 128) && decide (s.rd (O.sinkTable (s.rd (O.seqSlice i))) = s.node.id)

/-- The slot that the sink offers its candidates to. -/
def State.sinkSlot (s : State) : Option Nat := s.planned.find? s.sinkFor

/-- Change the data engine. -/
def State.modData (s : State) (f : DataEngine → DataEngine) : State := { s with data := f s.data }

/-- A drop enters DROP_LOG (R343, Table 13.16): what DETAIL holds is not given (log entry 4, DESIGN CHOICE). -/
def State.logDrop (s : State) (u id cause : Nat) : State :=
  let (d, t) := s.free
  let r := natLe 8 u ++ natLe 8 id ++ natLe 1 cause ++ natLe 3 0 ++ natLe 4 d ++ natLe 8 t.time
  t.modData (fun e => { e with drops := takeLast 256 (e.drops ++ [r]) })

/-! ### Cursors (R349) -/

/-- The last cursor of a sink: START_U before it sent one. -/
def State.cursorOf (s : State) (slice : Nat) : Nat := max (s.rd O.startU) (s.data.cursors.get 0 slice)

/-- The lowest cursor of the replica's sinks. -/
def State.lowestCursor (s : State) : Nat :=
  match s.sinkList.map (fun d => s.cursorOf d.1) with
  | [] => s.rd O.startU
  | c :: r => r.foldl min c

/-- A sink's cursor is known: results that every sink has passed are no longer kept. -/
def State.takeCursor (s : State) (slice at_ : Nat) : State :=
  let t := s.modData (fun e => { e with cursors := e.cursors.set 0 slice (max (e.cursors.get 0 slice) at_) })
  t.modData (fun e => { e with kept := e.kept.filter (fun k => decide (t.lowestCursor ≤ k.1)) })

/-- The sink sends its DATA_CURSOR to every decoder (R349). -/
def State.sendCursor (s : State) : State :=
  State.each (fun (t : State) (d : Nat × Nat) =>
    if d.2 = t.node.id then t.takeCursor t.ownSink (t.rd O.dataCursor)
    else t.emit (.cursor d.2 t.ownSink (t.rd O.dataCursor))) s s.decoderList

/-! ### The candidate ring (R346) -/

/-- First page of the candidate ring of a slot. -/
def candPage (i : Nat) : Nat := slotPage i + 0xC00000

/-- Frames of the candidate ring that have no page yet. -/
def ownCand : Nat := 0x701

/-- The ring's pages that are not mapped are mapped onto the frames set aside for it. -/
def State.mapCandRing (s : State) (i : Nat) : State :=
  let ps := (natsFrom (candPage i) (s.rd O.candRingPages)).filter (fun p => !s.mapped p)
  let fs := (s.frames.entries.filter (fun e => decide (e.2.owner = ownCand) && decide (e.2.use = 1))).map Prod.fst
  State.each (fun (t : State) (q : Nat × Nat) => (t.setPage q.1 ⟨6, q.2⟩).setFrame q.2 { t.frame q.2 with owner := 0 }) s (ps.zip fs)

/-- The Layout engine's settings. -/
def State.patch (s : State) : Patch :=
  { t := s.rd O.patchT, h := s.rd O.patchH, w := s.rd O.patchW, rows := s.rd O.outHeight / s.rd O.patchH,
    cols := s.rd O.outWidth / s.rd O.patchW, ycc := decide (s.rd O.colourOut = 1), gain := BitVec.ofNat 32 (s.rd O.actGain),
    bias := BitVec.ofNat 32 (s.rd O.actBias) }

/-- Tokens of a sample in a candidate. -/
def SinkSample.tokens (x : SinkSample) : Nat := x.video + x.audio

/-- Declared tokens of a candidate (R345). -/
def candTokens (xs : List SinkSample) : Nat := (xs.map SinkSample.tokens).sum

/-- The bytes of token `k` of a sample: its video tokens, then its audio tokens (R346). -/
def State.sampleToken (s : State) (x : SinkSample) (k : Nat) : Bytes :=
  let size := s.rd O.tokenBytes
  if k < x.video then tokenBytesOf (s.rd O.actConv) size (s.patch.elements x.sample.frames k)
  else tokenBytesOf (s.rd O.audioConv) size
    (audioElements (s.rd O.audioTokenSamples) (x.sample.audio.getD []) (k - x.video))

/-- The bytes of the tokens `lo` to `hi - 1` of a candidate. -/
def State.tokenRun (s : State) (lo hi : Nat) : List SinkSample → Bytes
  | [] => []
  | x :: r =>
    let n := x.tokens
    ((natsFrom 0 n).filter (fun k => decide (lo ≤ k) && decide (k < hi))).flatMap (s.sampleToken x)
      ++ State.tokenRun s (lo - n) (hi - n) r

/-- A record of 60 bytes with its check (Tables 13.11, 13.12). -/
def checked60 (b : Bytes) : Bytes := b ++ natLe 4 (crc32c b).toNat

/-- A sample entry (Table 13.12). -/
def State.sampleEntry (s : State) (x : SinkSample) (first caption : Nat) : Bytes :=
  let p := x.sample
  let concealed := decide (0 < p.picturesConcealed + p.audioConcealed)
  checked60 (natLe 8 p.sampleId ++ natLe 8 (s.slotPosition x.u) ++ natLe 4 (s.slotEpoch x.u) ++ natLe 4 first ++ natLe 4 x.video
    ++ natLe 4 x.audio ++ natLe 4 caption ++ natLe 4 p.captions.length
    ++ natLe 2 (concealed.toNat + 2 * p.audio.isSome.toNat + 4 * p.truncated.toNat) ++ natLe 2 p.picturesConcealed
    ++ natLe 4 p.frames.length ++ natLe 8 p.sourceId ++ natLe 4 p.audioConcealed)

/-- The entries of a candidate's samples. -/
def State.sampleEntries (s : State) (first caption : Nat) : List SinkSample → Bytes
  | [] => []
  | x :: r => s.sampleEntry x first caption ++ State.sampleEntries s (first + x.tokens) (caption + x.sample.captions.length) r

/-- Pages that hold `n` bytes. -/
def bytesPages (n : Nat) : Nat := (n + pageSize - 1) / pageSize

/-- What a candidate is made of: declared tokens, this slice's first token and tokens, token pages, caption bytes, all pages. -/
structure CandShape where
  tokens   : Nat
  first    : Nat
  count    : Nat
  pages    : Nat
  captions : Nat
  total    : Nat

/-- The shape of a candidate on a slot's slice (R346). -/
def State.candShape (s : State) (i : Nat) (xs : List SinkSample) : CandShape :=
  let n := candTokens xs
  let t := (n + s.rd O.jobSeqShare - 1) / s.rd O.jobSeqShare
  let m := s.rd (O.seqSlice i)
  let count := min ((m + 1) * t) n - m * t
  let pages := bytesPages (count * s.rd O.tokenBytes)
  let cap := (xs.map (fun (x : SinkSample) => x.sample.captions.length)).sum
  ⟨n, m * t, count, pages, cap, 1 + pages + bytesPages cap⟩

/-- The candidate header (Table 13.11). -/
def State.candHeader (s : State) (h : CandShape) (xs : List SinkSample) : Bytes :=
  checked60 (natLe 1 1 ++ natLe 1 0 ++ natLe 2 xs.length ++ natLe 4 h.tokens ++ natLe 4 h.first ++ natLe 4 h.count
    ++ natLe 4 (s.rd O.tokenBytes) ++ natLe 4 (pageSize * (1 + h.pages)) ++ natLe 4 h.captions ++ natLe 4 0
    ++ natLe 8 ((xs.head?.map SinkSample.u).getD 0) ++ natLe 8 ((xs.getLast?.map SinkSample.u).getD 0) ++ natLe 12 0)

/-- Write a candidate into the ring from a page on (R346). -/
def State.writeCandidate (s : State) (page : Nat) (h : CandShape) (xs : List SinkSample) : State :=
  let a := page * pageSize
  let t := s.writeTensor none a (s.candHeader h xs ++ s.sampleEntries 0 0 xs) 2
  let t := t.writeTensor none (a + pageSize) (t.tokenRun h.first (h.first + h.count) xs) (h.pages + 1)
  t.writeTensor none (a + pageSize * (1 + h.pages)) (xs.flatMap (fun (x : SinkSample) => x.sample.captions)) (h.total + 1)

/-- Place the oldest candidate that waits: at the ring's place, or at its first page where it would run past the end. None while its slot
does not run or its pages are held (R346, R347). -/
def State.placeOne (s : State) : Option State :=
  match s.data.waiting, s.sinkSlot with
  | xs :: rest, some i =>
    let h := s.candShape i xs
    let at_ := if s.data.ringAt + h.total ≤ s.rd O.candRingPages then s.data.ringAt else 0
    let page := candPage i + at_
    if s.rd O.dataState ≠ 1 ∨ s.stage i ≠ 2 ∨ s.rd O.candRingPages < h.total
        ∨ (s.data.inUse.any (fun r => decide (page < r.1 + r.2) && decide (r.1 < page + h.total))) = true then none
    else
      let t := ((if s.mapped page then s else s.mapCandRing i)).writeCandidate page h xs
      let u := (xs.head?.map SinkSample.u).getD 0
      let c : Candidate := { tokens := h.tokens, samples := xs.length, position := s.slotPosition u, epoch := s.slotEpoch u, first := u,
                             page := page, pages := h.total, members := xs.map (fun x => (x.u, x.sample.sampleId)) }
      let t := t.modData (fun e => { e with waiting := rest, ringAt := at_ + h.total, offers := e.offers ++ [c],
                                            inUse := e.inUse ++ [(page, h.total)] })
      some ((t.add O.samplesDelivered xs.length).sendCursor)
  | _, _ => none

/-- Place candidates while they find room. -/
def State.placeAll (s : State) : Nat → State
  | 0 => s
  | n + 1 =>
    match s.placeOne with
    | none => s
    | some t => State.placeAll t n

/-- Candidates that wait are placed as soon as they can be. -/
def State.settleSink (s : State) : State := if s.data.waiting.isEmpty then s else s.placeAll s.data.waiting.length

/-! ### Slots in stream order (R317, R345) -/

/-- The candidate that forms is closed. -/
def State.closeForming (s : State) : State :=
  if s.data.forming.isEmpty then s else s.modData (fun e => { e with waiting := e.waiting ++ [e.forming], forming := [] })

/-- Take a delivered sample into a candidate (R345). -/
def State.formSample (s : State) (u : Nat) (p : SamplePayload) : State :=
  let x : SinkSample := ⟨u, p, s.patch.tokens p.frames.length, audioTokens (s.rd O.audioTokenSamples) p.audio⟩
  if s.rd O.pipeMaxTokens < x.tokens then (s.logDrop u p.sampleId 7).add O.dropsOversize 1
  else
    let s := if s.rd O.pipeMaxTokens < candTokens s.data.forming + x.tokens then s.closeForming else s
    let t := s.modData (fun e => { e with forming := e.forming ++ [x] })
    if t.rd O.batchSamples ≤ t.data.forming.length then t.closeForming else t

/-- Assemble the slots that have arrived, in stream order (R317). -/
def State.assemble (s : State) : Nat → State
  | 0 => s
  | n + 1 =>
    match s.data.arrived.find? (fun a => decide (a.1 = s.data.expect)) with
    | none => s
    | some (u, p) =>
      let t := s.modData (fun e => { e with arrived := e.arrived.filter (fun a => decide (a.1 ≠ u)), expect := u + 1 })
      let t := t.wr O.dataCursor (u + 1)
      match p with
      | .sample x => State.assemble (t.formSample u x) n
      | _ => State.assemble t n

/-- A slot's result arrives at the sink. -/
def State.arrive (s : State) (u : Nat) (p : SlotPayload) : State :=
  if s.rd O.dataState ≠ 1 ∨ s.isSink = false ∨ u < s.data.expect ∨ (s.data.arrived.any (fun a => decide (a.1 = u))) = true then s
  else
    let t := s.modData (fun e => { e with arrived := e.arrived ++ [(u, p)] })
    (t.assemble (t.data.arrived.length)).settleSink

/-- The transfer of a slot fails: the sink asks for it again; after three failures of one slot it is FAULTED (R349). -/
def State.transferFails (s : State) (u : Nat) : State :=
  if s.rd O.dataState ≠ 1 ∨ s.isSink = false ∨ u < s.data.expect ∨ (s.data.arrived.any (fun a => decide (a.1 = u))) = true then s
  else
    let n := s.data.failures.get 0 u + 1
    let t := s.modData (fun e => { e with failures := e.failures.set 0 u n })
    if 3 ≤ n then t.wrAll [(O.dataState, 3), (O.dataFault, 0x01000000)]
    else t.emit (.slotAgain (s.decoderAt (u % s.rd O.decoders)) u)

end Sys2Proof.Machine
end

