-- ==== Sys2Proof/Machine/Units.lean ====
section
/-! DEFINITION. Execution in the units of a core (R101, R102): the matrix engine with its chain buffers and recompute samples, the
move unit, the channel unit; and `settle`, which carries every unit, the reductions and the step as far as they can go. -/

namespace Sys2Proof.Machine

/-- The effects of an issued descriptor are complete. -/
def State.finish (s : State) (c pos : Nat) : State := s.modIssued c pos (fun i => i.finish (s.coreCycles c))

/-! ### The matrix engine -/

/-- The partner of a core's next selected MM (R417): the next core of the Bent after the previous partner that is not OFF and not the core
itself. -/
def State.nextPartner (s : State) (c : Nat) : Option Nat :=
  let k := s.core c
  let from_ := (k.partner.getD c) % 64
  ((natsFrom 1 64).map (fun n => c / 64 * 64 + (from_ + n) % 64)).find? (fun p => decide (p ≠ c) && decide ((s.core p).state ≠ .off))

/-- Whether an MM is selected for recompute, and its partner; a full buffer at the partner abandons the selection (R416, R418). -/
def State.selectSample (s : State) (c : Nat) : Option Nat × State :=
  let n := s.rd O.recomputeN
  if n = 0 then (none, s)
  else
    let pick := Config.freeSelect s.fresh n
    let t := { s with fresh := s.fresh + 1 }
    if !pick then (none, t)
    else
      match t.nextPartner c with
      | none => (none, t)
      | some p =>
        let u := t.modCore c (fun k => { k with partner := some p })
        if ((u.core p).sample).isSome then (none, u.add O.recomputeAbandoned 1) else (some p, u)

/-- Send the tile of an MM to the chain buffer of its next core (R135): it waits while that buffer is full. -/
def State.chainOut (s : State) (c : Nat) (d : Bytes) : Ran :=
  let n := c / 64 * 64 + mmNext d
  if (s.core n).state = .off then .faults s 0x11
  else if ((s.core n).chain).isSome then .begun s
  else .done (s.modCore n (fun k => { k with chain := some ((s.core c).tile (mmTile d)) }))

/-- The passes of an MM over its starting tile, its counts, and its recompute sample (R126-R134, R417). -/
def State.mmPasses (s : State) (c pos : Nat) (i : Issued) (start : Tile) : Ran :=
  let d := i.desc
  let k := s.core c
  let r := mmRun i.x ⟨k.mem, (s.bent (c / 64)).mem⟩ d start
  let t := s.modCore c (fun k => k.setTile (mmTile d) r.1)
  let t := (t.add (O.mxRetries (c / 64) (c % 64)) r.2.1).add (O.mxRangeLow (c / 64) (c % 64)) r.2.2.2
  let t := t.add (O.mxSaturated (c / 64) (c % 64)) r.2.2.1.toNat
  let t := (t.pc c 0x0B (mmMacs d * (r.2.1 + 1))).pc c 0x12 r.2.1
  let (pick, t) := t.selectSample c
  let t := t.modIssued c pos (fun i => { i with stage := .begun, shadow := some start, sample := pick })
  match pick with
  | some p => .begun (t.modCore p (fun k => { k with sample := some ⟨c, d, i.x, start, r.1, t.coreCycles c⟩ }))
  | none => if mmChainOut d then t.chainOut c d else .done t

/-- An MM whose chain input buffer is full loads it (R135); a conflict faults and leaves the buffer full. -/
def State.mmLoad (s : State) (c pos : Nat) (i : Issued) (v : Tile) : Ran :=
  if tileConflict v.status i.desc then .faults s 0x10
  else ((s.modCore c (fun k => { (k.setTile (mmTile i.desc) v) with chain := none })).mmPasses c pos i v)

/-- Begin an MM (R125, R126, R135). -/
def State.runMm (s : State) (c pos : Nat) (i : Issued) : Ran :=
  let d := i.desc
  let k := s.core c
  if mmChainIn d then
    match k.chain with
    | none => .begun (s.modIssued c pos (fun i => { i with stage := .begun }))
    | some v => s.mmLoad c pos i v
  else if mmZero d then
    match s.mmPasses c pos i Tile.empty with
    | .done t => .done (t.modIssued c pos (fun x => { x with shadow := some (k.tile (mmTile d)) }))
    | .begun t => .begun (t.modIssued c pos (fun x => { x with shadow := some (k.tile (mmTile d)) }))
    | .faults t n => .faults (t.modIssued c pos (fun x => { x with shadow := some (k.tile (mmTile d)) })) n
    | .waits => .waits
  else s.mmPasses c pos i (k.tile (mmTile d))

/-- Run a matrix descriptor (R126, R138, R141). -/
def State.runMatrix (s : State) (c pos : Nat) (i : Issued) : Ran :=
  let d := i.desc
  let k := s.core c
  if dOp d = 0x10 then s.runMm c pos i
  else if dOp d = 0x18 then
    .done (s.modCore c (fun k => (natsFrom 0 4).foldl (fun k t => if (byteField d 8 1).testBit t then k.setTile t Tile.empty else k) k))
  else if dOp d = 0x19 then
    let r := tsRun i.rng i.seed i.x k.mem d (k.tile (byteField d 13 1 % 4))
    let t := r.1.foldl (fun (t : State) p => t.writeLocal c p.1 p.2) s
    .done (t.modCore c (fun k => k.raise r.2))
  else .done (s.modCore c (fun k => k.setX (selReg (byteField d 9 1)) (BitVec.ofNat 64 (k.tile (byteField d 8 1 % 4)).status)))

/-! ### The channel unit (R181-R184, R192) -/

/-- ON_REFUSE. -/
def chOn (d : Bytes) : Nat := byteField d 11 1
/-- SIZE in granules. -/
def chSize (d : Bytes) : Nat := byteField d 16 2
/-- The address after its selector. -/
def chAddr (x : Map W64) (d : Bytes) : Nat := addrOf x (byteField d 12 4) (byteField d 9 1)

/-- Write the status word of a channel descriptor (Table 8.8). -/
def State.chStatus (s : State) (c : Nat) (d : Bytes) (gen code sender bits size : Nat) : State :=
  let sel := byteField d 10 1
  if selUse sel then
    s.modCore c (fun k => k.setX (selReg sel) (BitVec.ofNat 64 (gen * 2 ^ 32 + code * 2 ^ 24 + sender * 2 ^ 16 + bits + size)))
  else s

/-- The fault that ON_REFUSE asks for a refusal with a status: 0 none (Table 8.7). -/
def chRefuseFault (d : Bytes) (st : Nat) : Nat :=
  if st = 0x22 ∧ (chOn d).testBit 0 then 0x32 else if st = 0x23 ∧ (chOn d).testBit 1 then 0x33 else 0

/-- A refusal: counted for SEND and CONTRIBUTE, its CODE written (R182, R183). -/
def State.chRefuse (s : State) (c : Nat) (d : Bytes) (st : Nat) (counts : Bool) : Ran :=
  if chRefuseFault d st ≠ 0 then .faults s (chRefuseFault d st)
  else
    let t := if counts then s.add (if st = 0x22 then O.chRefusedStale (c / 64) else O.chRefusedClosed (c / 64)) 1 else s
    .done (t.chStatus c d ((s.core c).endp (chEp d)).gen st 0 0 0)

/-- The largest message of a queue that a binding names, in granules; a remote queue's is not known here. -/
def State.bindMax (s : State) (e : Endpoint) : Nat := if s.ownQueue e.queue then qMsgMax (s.qword (nameQueue e.queue)) else 1024

/-- The kind of endpoint an opcode needs (Table 8.6). -/
def chKind (op : Nat) : Nat := if op = 0x70 then 1 else if op = 0x72 then 2 else 3

/-- The fault of a channel descriptor at issue (R181, R182, R183): 0 none. -/
def State.chFault (s : State) (c : Nat) (d : Bytes) : Nat :=
  let op := dOp d
  let e := (s.core c).endp (chEp d)
  let n := chSize d
  let m := s.bindMax e
  let a := chAddr (s.core c).x d
  let own := s.ownQueue e.queue
  if e.kind ≠ chKind op then 0x30
  else if (op = 0x70 ∧ (n = 0 ∨ m < n)) ∨ (op = 0x72 ∧ (if own then n ≠ m else n = 0 ∨ m < n)) ∨ (op = 0x71 ∧ (n = 0 ∨ 1024 < n))
      ∨ (op = 0x73 ∧ n ≠ 0) then 0x31
  else if op ≠ 0x73 ∧ (a % 64 ≠ 0 ∨ inLocal a (64 * n) = false) then 0x02
  else if op = 0x71 ∨ op = 0x73 then 0
  else
    let st := s.bindStatus e
    if st ≠ 0 then chRefuseFault d st
    else if s.returnPlane e && decide (e.reserved = 0) then 0x34
    else 0

/-- Whether the fields of a channel descriptor make it invalid (R97, Table 8.7). -/
def chInvalid (d : Bytes) : Bool :=
  decide (15 < byteField d 8 1) || !selOk (byteField d 9 1) || !selOk (byteField d 10 1) || decide (3 < chOn d) || !zeroBytes d 18 64

/-- Take one credit or one reservation of a binding (R182, R189): none when there is none. -/
def State.chPay (s : State) (c ep : Nat) : Option State :=
  let e := (s.core c).endp ep
  if s.returnPlane e then
    (if e.reserved = 0 then none else some (s.modEndp c ep (fun e => { e with reserved := e.reserved - 1 })))
  else if e.credit = 0 then none
  else some (s.modEndp c ep (fun e => { e with credit := e.credit - 1 }))

/-- A paid SEND or CONTRIBUTE sends: a message on its way to a queue of this package, or one that the Relay link takes (R177, R184). -/
def State.chSend (s : State) (c pos : Nat) (i : Issued) : Ran :=
  let d := i.desc
  let e := (s.core c).endp (chEp d)
  let p := s.readLocal c (chAddr i.x d) (64 * chSize d)
  let q := nameQueue e.queue
  if s.ownQueue e.queue then
    let f : Flight := { origin := .endpoint c (chEp d) e.gen, queue := q, gen := e.gen, contribute := decide (dOp d = 0x72),
                        sender := e.sender, seq := dSeq d, count := e.accepted, payload := p, checks := payloadChecks p }
    .begun (({ s with flights := s.flights ++ [f] }).modIssued c pos (fun i => { i with stage := .begun }))
  else
    let t := s.emit (.channelMessage (namePkg e.queue) q (messageHeader (chSize d) e.sender 0 e.gen (dSeq d) e.accepted (payloadChecks p)) p)
    let t := t.modEndp c (chEp d) (fun e => { e with accepted := (e.accepted + 1) % 2 ^ 32 })
    let t := t.relaySent ((t.relayTo (namePkg e.queue)).getD 32) (128 + p.length)
    .done (((t.add (O.chSent (c / 64)) 1).pc c 0x10 p.length).chStatus c d e.gen 0 0 0 0)

/-- Run a SEND or CONTRIBUTE: with the credit it took at issue it sends; otherwise it waits for credit, which ends when its binding becomes
stale or closed (R182). -/
def State.runSend (s : State) (c pos : Nat) (i : Issued) : Ran :=
  let st := s.bindStatus ((s.core c).endp (chEp i.desc))
  if i.paid then s.chSend c pos i
  else if st ≠ 0 then s.chRefuse c i.desc st true
  else
    match s.chPay c (chEp i.desc) with
    | none => .waits
    | some t => (t.modIssued c pos (fun i => { i with paid := true })).chSend c pos { i with paid := true }

/-- Run a RECV: it waits while its queue is open and empty (R181, R183). -/
def State.runRecv (s : State) (c pos : Nat) (i : Issued) : Ran :=
  let d := i.desc
  let ep := chEp d
  let e := (s.core c).endp ep
  let q := nameQueue e.queue
  let st := s.bindStatus e
  if e.kind ≠ 3 then .faults s 0x30
  else if st = 0x22 then s.chRefuse c d st false
  else
    match s.headFor q c ep with
    | none => if st = 0x23 then s.chRefuse c d st false else .waits
    | some m =>
      let h := s.slotHeader q m.slot
      let p := s.slotPayload q m.slot
      if chSize d < hSize h then .faults s 0x31
      else if payloadChecks p ≠ hChecks h (payloadChecks p).length then
        .faults (s.landedFails 0 (s.suspect susBent (q / 64))) 0x36
      else
        let (t, back) := s.takeHead q c ep
        let t := t.modIssued c pos (fun i => { i with credit := back })
        let t := (t.writeLocal c (chAddr i.x d) p).add (O.chReceived (c / 64)) 1
        .done ((t.pc c 0x11 p.length).chStatus c d e.gen 0 (hSender h) (hFlags h * 2 ^ 14 % 2 ^ 16) (hSize h))

/-- Run a PROBE (R183). -/
def State.runProbe (s : State) (c : Nat) (i : Issued) : Ran :=
  let d := i.desc
  let ep := chEp d
  let e := (s.core c).endp ep
  let st := s.bindStatus e
  if e.kind ≠ 3 then .faults s 0x30
  else if st = 0x22 then s.chRefuse c d st false
  else
    match s.headFor (nameQueue e.queue) c ep with
    | none => if st = 0x23 then s.chRefuse c d st false else .done (s.chStatus c d e.gen 0 0 0 0)
    | some m =>
      let h := s.slotHeader (nameQueue e.queue) m.slot
      .done (s.chStatus c d e.gen 0 (hSender h) (hFlags h * 2 ^ 14 % 2 ^ 16) (hSize h))

/-- Run a channel descriptor. -/
def State.runChannelUnit (s : State) (c pos : Nat) (i : Issued) : Ran :=
  if dOp i.desc = 0x71 then s.runRecv c pos i
  else if dOp i.desc = 0x73 then s.runProbe c i
  else s.runSend c pos i

/-! ### Settling -/

/-- Whether an issued descriptor lets the next one of its unit begin: complete, or begun and only waiting for acceptance (channel) or for
its recompute (matrix). -/
def Issued.passes (i : Issued) : Bool :=
  match i.stage with
  | .complete => true
  | .queued => false
  | .begun => decide (opUnit (dOp i.desc) = 4) || (i.sample.isSome && !chainsOut i.desc)

/-- The position of the first descriptor of a unit that holds the unit. -/
def holderAt (unit : Nat) : List Issued → Nat → Option Nat
  | [], _ => none
  | i :: r, n => if opUnit (dOp i.desc) = unit ∧ i.passes = false then some n else holderAt unit r (n + 1)

/-- Run one descriptor in its unit; the result goes into the state. -/
def State.runAt (s : State) (c pos unit : Nat) (i : Issued) : Option State :=
  let r := if unit = 1 then (if i.stage = .begun then .waits else s.runMatrix c pos i)
           else if unit = 3 then s.runMove c pos i else s.runChannelUnit c pos i
  match r with
  | .done t => some (t.finish c pos)
  | .begun t => some t
  | .faults t code => some (t.faultIssued c pos code)
  | .waits => none

/-- Carry a unit of a core on, at most `n` descriptors. -/
def State.runUnit (s : State) (c unit : Nat) : Nat → State
  | 0 => s
  | n + 1 =>
    match holderAt unit (s.core c).inflight 0 with
    | none => s
    | some pos =>
      match (s.core c).inflight[pos]? with
      | none => s
      | some i =>
        match s.runAt c pos unit i with
        | none => s
        | some t => State.runUnit t c unit n

/-- Carry the units of every core on. -/
def State.sweep (s : State) : State :=
  State.each (fun t c =>
    if (t.core c).inflight.isEmpty then t else ((t.runUnit c 1 9).runUnit c 3 9).runUnit c 4 9) s (s.cores.entries.map Prod.fst)

/-- What is still to be done: 2 for a queued, 1 for a begun descriptor. -/
def State.undone (s : State) : Nat :=
  (s.cores.entries.map (fun c => (c.2.inflight.map (fun i =>
    match i.stage with
    | .queued => 2
    | .begun => 1
    | .complete => 0)).sum)).sum

/-- Sweep until nothing moves. -/
def State.sweeps (s : State) : Nat → State
  | 0 => s
  | n + 1 =>
    let t := s.sweep
    if t.undone < s.undone then State.sweeps t n else t

/-- Carry on whatever can go on: units, reductions and the step, stops and drains, candidates that wait (R101, R274, R252, R421, R346). -/
def State.settle (s : State) : State :=
  let t := (s.sweeps (s.undone + 1)).advanceReduction
  (State.each (fun t i => t.settleStop i) t allSlots).settleDrain.settleSink

/-- The outcome of a command that may let waiting units go on. -/
def settled (s t : State) : Host.Outcome State Fault Refusal := done s t.settle

/-- The outcome of a descriptor row. -/
def settledRow (c : Nat) (s t : State) : Host.Outcome State Fault Refusal := if 3072 ≤ c then .fault .noSuchUnit else settled s t

end Sys2Proof.Machine
end

