-- ==== Sys2Proof/Machine/Control.lean ====
section
/-! DEFINITION. Control descriptors (R105), retirement (R102), the WAITING state (R112) and the descriptor watchdog (R117). -/

namespace Sys2Proof.Machine

/-- The address a jump of OFFSET descriptors from DPTR leads to (R105): the offset in bytes 12 to 15. -/
def jumpTo (dptr : Nat) (d : Bytes) : Int := (dptr : Int) + 64 * signed 32 (byteField d 12 4)

/-- Issue a control descriptor: `invalid`, the X registers it uses, and whether it jumps, decide its plan. -/
def State.control (s : State) (c op : Nat) (invalid : Core → Bytes → Bool) (xs : Bytes → List Nat) (jumps : Core → Bytes → Bool)
    (effect : State → Core → Bytes → State) : State :=
  s.issue c op
    (fun s c d =>
      let k := s.core c
      { invalid := invalid k d, xs := xs d, tiles := [], fault := 0,
        next := if jumps k d then jumpTo k.dptr d else (k.dptr : Int) + 64 })
    (fun t k d => effect (if jumps k d then t.pc c 0x09 1 else t) k d)

/-- No register. -/
def noXs (_ : Bytes) : List Nat := []
/-- No jump. -/
def noJump (_ : Core) (_ : Bytes) : Bool := false

/-- NOP (R105). -/
def execNop (core : Nat) (s : State) : Host.Outcome State Fault Refusal :=
  settledRow core s (s.control core 0x00 (fun _ d => !zeroBytes d 8 64) noXs noJump (fun t _ _ => t))

/-- HALT (R105): with nothing before it, it retires at once; the core is HALTED with HALT_CODE. -/
def State.halt (s : State) (c : Nat) : State :=
  s.control c 0x01 (fun _ d => !zeroBytes d 9 64) noXs noJump (fun t _ d => (t.retireHead c).enterHalted c (byteField d 8 1))

/-- HALT (R105). -/
def execHalt (core : Nat) (s : State) : Host.Outcome State Fault Refusal := settledRow core s (s.halt core)

/-- WAIT (R105): its condition is the wait condition of issue. -/
def execWait (core : Nat) (s : State) : Host.Outcome State Fault Refusal :=
  settledRow core s (s.control core 0x02
    (fun _ d => decide (1 < byteField d 8 1) || decide (dWait d = 0) || !zeroBytes d 9 64) noXs noJump (fun t _ _ => t))

/-- TARGET of a SIGNAL, as a core; a target equal to the own index is the core itself (Table 5.5). -/
def sigTarget (c : Nat) (d : Bytes) : Nat := if byteField d 12 1 = 0xFF then c else c / 64 * 64 + byteField d 12 1

/-- Whether a SIGNAL is invalid. -/
def sigInvalid (c : Nat) (d : Bytes) : Bool :=
  (decide (63 < byteField d 12 1) && decide (byteField d 12 1 ≠ 0xFF)) || (decide (byteField d 10 2 ≠ 0) && decide (sigTarget c d ≠ c))
    || !zeroBytes d 13 64

/-- SIGNAL's effect: clears own flags, sets the target's; a set toward a peer that is not RUNNING, WAITING or STOPPING is lost and counted
(Table 5.5); a set prevails over a clear (R103). -/
def State.signal (s : State) (c : Nat) (d : Bytes) : State :=
  let p := sigTarget c d
  if p = c then (s.modCore c (fun k => k.clearFlags (byteField d 10 2))).setFlags c (byteField d 8 2)
  else if (s.core p).active then s.setFlags p (byteField d 8 2)
  else (s.modCore p (fun k => { k with lost := k.lost + 1 }))

/-- SIGNAL (R105). -/
def execSignal (core : Nat) (s : State) : Host.Outcome State Fault Refusal :=
  settledRow core s (s.control core 0x03 (fun _ d => sigInvalid core d) noXs noJump (fun t _ d => t.signal core d))

/-- FENCE (R104, R105): every write of an earlier descriptor is visible when it retires, and nothing is read ahead of issue, so that
beyond its wait for them nothing is left to do. -/
def execFence (core : Nat) (s : State) : Host.Outcome State Fault Refusal :=
  settledRow core s (s.control core 0x04 (fun _ d => decide (2 < byteField d 8 1) || !zeroBytes d 9 64) noXs noJump (fun t _ _ => t))

/-- The value LOOP leaves in its counter. -/
def loopValue (k : Core) (d : Bytes) : W64 := k.xr (selReg (byteField d 8 1)) - 1#64

/-- LOOP (R105). -/
def execLoop (core : Nat) (s : State) : Host.Outcome State Fault Refusal :=
  settledRow core s (s.control core 0x05
    (fun _ d => !selOk (byteField d 8 1) || !selUse (byteField d 8 1) || !zeroBytes d 9 12 || !zeroBytes d 16 64)
    (fun d => [selReg (byteField d 8 1)]) (fun k d => decide (loopValue k d ≠ 0#64))
    (fun t k d => t.modCore core (fun n => n.setX (selReg (byteField d 8 1)) (loopValue k d))))

/-- The condition of BRANCH_FLAG on the flags at issue (Table 5.5). -/
def flagCond (flags : Nat) (d : Bytes) : Bool :=
  let m := byteField d 8 2
  match byteField d 10 1 with
  | 0 => decide (flags &&& m = m)
  | 1 => decide (flags &&& m ≠ 0)
  | 2 => decide (flags &&& m = 0)
  | _ => decide (flags &&& m ≠ m)

/-- BRANCH_FLAG (R105). -/
def execBranchFlag (core : Nat) (s : State) : Host.Outcome State Fault Refusal :=
  settledRow core s (s.control core 0x06
    (fun _ d => decide (byteField d 8 2 = 0) || decide (3 < byteField d 10 1) || decide (1 < byteField d 11 1) || !zeroBytes d 16 64)
    noXs (fun k d => flagCond k.flags d)
    (fun t k d => if flagCond k.flags d ∧ byteField d 11 1 = 1 then
        t.modCore core (fun n => n.clearFlags (k.flags &&& byteField d 8 2)) else t))

/-- The term X(B) + IMM modulo 2^64 of BRANCH_X and XOP: B selector in byte `b`, IMM in bytes 16 to 23 (R105). -/
def termB (x : Map W64) (b : Nat) (d : Bytes) : W64 := BitVec.ofNat 64 (selVal x (byteField d b 1) + byteField d 16 8)

/-- The condition of BRANCH_X (Table 5.5). -/
def xCond (k : Core) (d : Bytes) : Bool :=
  let a := k.xr (selReg (byteField d 8 1))
  let b := termB k.x 9 d
  match byteField d 10 1 with
  | 0 => decide (a = b)
  | 1 => decide (a ≠ b)
  | 2 => decide (a.toNat < b.toNat)
  | 3 => decide (b.toNat ≤ a.toNat)
  | 4 => decide (a.toInt < b.toInt)
  | _ => decide (b.toInt ≤ a.toInt)

/-- The registers of selectors in the named bytes. -/
def selXs (d : Bytes) (at_ : List Nat) : List Nat := (at_.filter (fun i => selUse (byteField d i 1))).map (fun i => selReg (byteField d i 1))

/-- BRANCH_X (R105). -/
def execBranchX (core : Nat) (s : State) : Host.Outcome State Fault Refusal :=
  settledRow core s (s.control core 0x07
    (fun _ d => !selOk (byteField d 8 1) || !selUse (byteField d 8 1) || !selOk (byteField d 9 1) || decide (5 < byteField d 10 1)
      || !zeroBytes d 11 12 || !zeroBytes d 24 64)
    (fun d => selXs d [8, 9]) xCond (fun t _ _ => t))

/-- The X operations (Table 5.6). -/
def xopValue (op : Nat) (a b : W64) : W64 :=
  let n := b.toNat % 64
  match op with
  | 0 => a + b
  | 1 => a - b
  | 2 => a * b
  | 3 => a &&& b
  | 4 => a ||| b
  | 5 => a ^^^ b
  | 6 => a <<< n
  | 7 => a >>> n
  | 8 => a.sshiftRight n
  | 9 => if a.toNat < b.toNat then a else b
  | 10 => if a.toNat < b.toNat then b else a
  | 11 => if a.toInt < b.toInt then a else b
  | 12 => if a.toInt < b.toInt then b else a
  | _ => b

/-- XOP (R105). -/
def execXop (core : Nat) (s : State) : Host.Outcome State Fault Refusal :=
  settledRow core s (s.control core 0x08
    (fun _ d => !selOk (byteField d 8 1) || !selUse (byteField d 8 1) || !selOk (byteField d 9 1) || !selOk (byteField d 10 1)
      || decide (0x0D < byteField d 11 1) || !zeroBytes d 12 16 || !zeroBytes d 24 64)
    (fun d => selXs d [8, 9, 10]) noJump
    (fun t k d => t.modCore core (fun n => n.setX (selReg (byteField d 8 1))
      (xopValue (byteField d 11 1) (BitVec.ofNat 64 (selVal k.x (byteField d 9 1))) (termB k.x 10 d)))))

/-- DESCRIPTOR_RETIRE (R102). -/
def execDescriptorRetire (core : Nat) (s : State) : Host.Outcome State Fault Refusal := settledRow core s (s.retireHead core)

/-- X registers that a descriptor names (R99). -/
def descXs (d : Bytes) : List Nat :=
  let op := dOp d
  if op = 0x05 then selXs d [8] else if op = 0x07 then selXs d [8, 9] else if op = 0x08 then selXs d [8, 9, 10]
  else if op = 0x10 then selXs d [28, 29, 42, 43] else if op = 0x19 then selXs d [12] else if op = 0x1A then selXs d [9]
  else if op = 0x50 then selXs d [8, 9, 10, 11, 12] else if 0x60 ≤ op ∧ op ≤ 0x63 then selXs d [24, 25]
  else if 0x70 ≤ op ∧ op ≤ 0x73 then selXs d [9, 10] else if 0x30 ≤ op ∧ op < 0x60 then selXs d [36, 42, 27] else []

/-- Tiles that a descriptor names (R99). -/
def descTiles (d : Bytes) : List Nat :=
  let op := dOp d
  if op = 0x10 then [mmTile d] else if op = 0x18 then (natsFrom 0 4).filter (fun t => (byteField d 8 1).testBit t)
  else if op = 0x19 then [byteField d 13 1 % 4] else if op = 0x1A then [byteField d 8 1 % 4]
  else if 0x30 ≤ op ∧ op < 0x60 then (([10, 12, 14].map (fun i => byteField d i 2)).filter (fun o => decide (opdKind o = 2))).map opdTile
  else []

/-- Whether the wait condition alone holds a core's next descriptor (R99, R112). -/
def Core.onlyWaits (k : Core) : Bool :=
  let d := k.mem.bytes 0#8 k.dptr 64
  !k.waitMet && k.pending.isNone && !(waitsAll d && !k.inflight.isEmpty) && decide (k.inflight.length < 8)
    && k.room (opUnit (dOp d)) && !(k.hazard (descXs d) (descTiles d))

/-- A core whose next descriptor has been held only by its wait condition enters WAITING (R112); a wait on a channel flag is timed against
CH_WAIT_LIMIT (R194). -/
def State.coreWaiting (s : State) (c : Nat) : State :=
  let k := s.core c
  if k.state = .running ∧ k.onlyWaits then
    s.setCore c { k with state := .waiting,
                         waitDue := if k.awaited.isEmpty then none else some (s.now + s.rd (O.chWaitLimit (c / 64))) }
  else s

/-- CORE_WAITING (R112). -/
def execCoreWaiting (core : Nat) (s : State) : Host.Outcome State Fault Refusal := coreRow core s (s.coreWaiting core)

/-- An issued descriptor has been issued for longer than WD_LIMIT: the core faults with WATCHDOG at it (R117, R428). A wait for a ring
block is not timed (R310). -/
def State.watchdog (s : State) (c pos : Nat) : State :=
  match (s.core c).inflight[pos]? with
  | none => s
  | some i =>
    if s.now ≤ i.due ∨ i.ring.isSome then s
    else if ((s.core c).inflight.take (pos + 1)).all (fun i => decide (i.stage = .complete)) then
      State.each (fun t _ => t.retireHead c) s (natsFrom 0 (pos + 1))
    else (((s.add (O.wdExpiries (c / 64)) 1).expiry 1 (s.suspect susCore c)).faultIssued c pos 0x06)

/-- WATCHDOG (R117). -/
def execWatchdog (core pos : Nat) (s : State) : Host.Outcome State Fault Refusal := settledRow core s (s.watchdog core pos)

end Sys2Proof.Machine
end

