-- ==== Sys2Proof/Machine/Matrix.lean ====
section
/-! DEFINITION. The matrix and move descriptors (R107-R110, R119-R141), and the two chain waits of an MM (R135). -/

namespace Sys2Proof.Machine

/-- The tile that an MM finds at issue, for the check of R125: none where ZERO empties it or CHAIN_IN loads it. -/
def mmFinds (k : Core) (d : Bytes) : Nat := if mmZero d || mmChainIn d then 0 else (k.tile (mmTile d)).status

/-- MM (R119-R135). -/
def execMm (core : Nat) (s : State) : Host.Outcome State Fault Refusal :=
  settledRow core s (s.issue core 0x10
    (fun s c d =>
      let k := s.core c
      { invalid := mmInvalid k.x (c % 64) d, xs := descXs d, tiles := [mmTile d],
        fault := if mmOutside k.x d then 0x02 else if tileConflict (mmFinds k d) d then 0x10 else 0, next := k.dptr + 64 })
    (fun t _ _ => t))

/-- The position of the first MM of a core that waits on a chain: `loaded` tells whether it already has its tile (R135). -/
def waitingMm (loaded : Bool) (l : List Issued) : Option Nat :=
  l.findIdx? (fun i => decide (dOp i.desc = 0x10) && decide (i.stage = .begun) && i.sample.isNone && (i.shadow.isSome == loaded))

/-- Take the result of a waiting MM into the state. -/
def State.mmResult (s : State) (c pos : Nat) : Ran → State
  | .done t => t.finish c pos
  | .begun t => t
  | .faults t code => t.faultIssued c pos code
  | .waits => s

/-- An MM with CHAIN_IN that waited for its buffer loads it (R135). -/
def State.chainLoad (s : State) (c : Nat) : State :=
  match waitingMm false (s.core c).inflight with
  | none => s
  | some pos =>
    match (s.core c).inflight[pos]?, (s.core c).chain with
    | some i, some v => s.mmResult c pos (s.mmLoad c pos i v)
    | _, _ => s

/-- CHAIN_LOAD (R135). -/
def execChainLoad (core : Nat) (s : State) : Host.Outcome State Fault Refusal := settledRow core s (s.chainLoad core)

/-- An MM with CHAIN_OUT that waited for the next core's buffer transfers its tile (R135). -/
def State.chainTransfer (s : State) (c : Nat) : State :=
  match waitingMm true (s.core c).inflight with
  | none => s
  | some pos =>
    match (s.core c).inflight[pos]? with
    | none => s
    | some i => s.mmResult c pos (s.chainOut c i.desc)

/-- CHAIN_TRANSFER (R135). -/
def execChainTransfer (core : Nat) (s : State) : Host.Outcome State Fault Refusal := settledRow core s (s.chainTransfer core)

/-- TILE_CLEAR (R141): a mask of 0 is invalid. -/
def execTileClear (core : Nat) (s : State) : Host.Outcome State Fault Refusal :=
  settledRow core s (s.issue core 0x18
    (fun s c d => { invalid := decide (byteField d 8 1 = 0) || decide (15 < byteField d 8 1) || !zeroBytes d 9 64, xs := [],
                    tiles := descTiles d, fault := 0, next := (s.core c).dptr + 64 })
    (fun t _ _ => t))

/-- TILE_STORE (R138, R139): an EMPTY tile makes it invalid. -/
def execTileStore (core : Nat) (s : State) : Host.Outcome State Fault Refusal :=
  settledRow core s (s.issue core 0x19
    (fun s c d =>
      let k := s.core c
      { invalid := tsInvalid k.x d, xs := descXs d, tiles := descTiles d,
        fault := if field (k.tile (byteField d 13 1 % 4)).status 6 2 = 0 then 0x01 else if tsOutside k.x d then 0x02 else 0,
        next := k.dptr + 64 })
    (fun t _ _ => t))

/-- TILE_STAT (R141). -/
def execTileStat (core : Nat) (s : State) : Host.Outcome State Fault Refusal :=
  settledRow core s (s.issue core 0x1A
    (fun s c d => { invalid := decide (3 < byteField d 8 1) || !selOk (byteField d 9 1) || !selUse (byteField d 9 1) || !zeroBytes d 10 64,
                    xs := descXs d, tiles := [byteField d 8 1 % 4], fault := 0, next := (s.core c).dptr + 64 })
    (fun t _ _ => t))

/-- MOVE_LOCAL (R107). -/
def execMoveLocal (core : Nat) (s : State) : Host.Outcome State Fault Refusal :=
  settledRow core s (s.mvIssue core 0x60 (fun t _ _ => t))

/-- MOVE_BENT (R107). -/
def execMoveBent (core : Nat) (s : State) : Host.Outcome State Fault Refusal :=
  settledRow core s (s.mvIssue core 0x61 (fun t _ _ => t))

/-- MOVE_PEER (R110). -/
def execMovePeer (core : Nat) (s : State) : Host.Outcome State Fault Refusal :=
  settledRow core s (s.mvIssue core 0x62 (fun t _ _ => t))

/-- MOVE_TENSOR (R109): `reads` are the blocks whose first read fails its check (R409). -/
def execMoveTensor (core : Nat) (reads : List BlockRead) (s : State) : Host.Outcome State Fault Refusal :=
  settledRow core s (s.mvIssue core 0x63 (fun t _ _ =>
    t.modIssued core ((t.core core).inflight.length - 1) (fun i => { i with reads := reads })))

/-- Expiry of the wait of a move for a ring block (R310): CH_WAIT_TIMEOUT, with WAIT_QUEUE and the peer all ones. -/
def State.ringWaitTimeout (s : State) (c : Nat) : State :=
  match (s.core c).inflight.findIdx? (fun i => i.ring.isSome && decide (i.due < s.now)) with
  | none => s
  | some pos =>
    let b := c / 64
    let t := (s.add (O.chWaitExpiries b) 1).expiry 2 (s.suspect susCore c)
    let t := t.wrAll [(O.waitCore b, c % 64), (O.waitKind b, 0), (O.waitQueue b, 0xFFFFFFFF), (O.peerCore b, 0xFFFF), (O.peerState b, 0),
      (O.peerWaitQueue b, 0xFFFFFFFF)]
    t.faultIssued c pos 0x35

/-- RING_WAIT_TIMEOUT (R310). -/
def execRingWaitTimeout (core : Nat) (s : State) : Host.Outcome State Fault Refusal := settledRow core s (s.ringWaitTimeout core)

end Sys2Proof.Machine
end

