-- ==== Sys2Proof/Machine/Guards.lean ====
section
/-! DEFINITION. What a write must meet before it has its effect, in the order of R63: the levels, the recovery objects of
Walk mode, the ranges that depend on other objects, and the states that forbid a write. -/

namespace Sys2Proof.Machine

/-- The recovery objects of Table 17.5. -/
def isRecovery (k : Nat) : Bool :=
  [O.startControl, O.bootPreference, O.bootImageA, O.bootImageB, O.bootSlotControl, O.restoreStored].contains k

/-- The level a read of an object needs (R46, R49, R467). -/
def readLevel (s : State) (k : Nat) : Nat :=
  if 0xF000 ≤ keyIndex k then 1
  else if 0xA010 ≤ keyIndex k ∧ keyIndex k < 0xA440 ∧ s.rd O.counterUserRead = 0 then 1
  else 0

/-- The level a write of an object needs (R49, R423). -/
def writeLevel (k : Nat) : Nat := if k = O.drainFlag then 2 else 1

/-- The bound that a Bent's timeouts keep (R194, R426): CH_WAIT_LIMIT above WD_LIMIT, BENT_TIMEOUT above their sum. -/
def bentTimeoutRange (s : State) (k v : Nat) : Bool :=
  let b := keyBent k
  let wd := s.rd (O.wdLimit b)
  let ch := s.rd (O.chWaitLimit b)
  let bt := s.rd (O.bentTimeout b)
  if k = O.wdLimit b then decide (v + ch < bt)
  else if k = O.chWaitLimit b then decide (wd < v) && decide (wd + v < bt)
  else if k = O.bentTimeout b then decide (wd + ch < v)
  else true

/-- The range of a torus identity (R384): DX × DY × DZ at most 16,384 and PACKAGE_ID below it. -/
def identityRange (s : State) (k v : Nat) : Bool :=
  let f := fun (n : Nat) => if keySub k = n then v else s.rd (0x7000 * 256 + n)
  let p := f 2 * f 3 * f 4
  decide (p ≤ 16384) && decide (f 1 < p)

/-- The range of RC_MODE in either bank (R278, Table 11.4): at most 8 channels hold ONE_BIT. -/
def rcModeRange (s : State) (v : Nat) : Bool :=
  let held := (natsFrom 0 32).filter (fun n => decide (s.rd (O.rcMode n) = 2) || decide (s.rd (O.nextRcMode n) = 2))
  decide (v ≤ 2) && (decide (v ≠ 2) || decide (held.length < 8))

/-- Whether an object lies in one of the 16 records from a base. -/
def inSlots (base k : Nat) : Bool := decide (base ≤ keyIndex k) && decide (keyIndex k < base + 16)

/-- Ranges that depend on other objects or on a rule of their own. -/
def extraRange (s : State) (k v : Nat) : Bool :=
  let i := keyIndex k
  let j := keySub k
  if k = O.reportQuiet then decide (v ≤ s.rd O.reportHoldMax)
  else if k = O.reportHoldMax then decide (s.rd O.reportQuiet ≤ v)
  else if k = O.holdMax then decide (s.rd O.holdBase ≤ v)
  else if k = O.hostL0p then decide (v = 0) || s.feature 5
  else if k = O.chunkBytes then decide (v % 4096 = 0)
  else if i = 0x7000 then identityRange s k v
  else if inSlots 0x5010 k ∧ j = 4 then decide (v < s.rd (O.rgMembers (i % 0x10)))
  else if inSlots 0x5410 k ∧ j = 4 then decide (v < s.rd (O.rgMembers (i % 0x10) + 0x40000))
  else if (0x5100 ≤ i ∧ i < 0x5120 ∧ j = 5) ∨ (0x5500 ≤ i ∧ i < 0x5520 ∧ j = 5) then rcModeRange s v
  else if inBentBlock k then bentTimeoutRange s k v
  else
    match counterPart k with
    | some (level, 0) => selectDefined level v
    | _ => true

/-- Whether an object is a counter that only a written 0 changes. -/
def keyIsCounter (k : Nat) : Bool := (rowOf k).elim false (fun r => decide (r.rule = .clear))

/-- Whether every slot is UNUSED. -/
def State.allUnused (s : State) : Bool := allSlots.all (fun i => decide (s.stage i = 0))

/-- Whether the step has reached REDUCED at a step from which the written learning rate applies (R250). -/
def State.lrFixed (s : State) : Bool :=
  s.commit.reduced && decide (s.rd O.optLrStep ≤ s.rd O.stepNumber)

/-- Whether the state allows a write of an object of a Bent block (R118, R170): a core's objects while it is not OFF, a queue's
configuration while it is UNUSED. -/
def bentWriteAllowed (s : State) (k : Nat) : Bool :=
  let o := keyOff k
  if o < 0x20 ∧ o ≠ 0x0B ∧ o ≠ 0x1D then decide ((s.core (keyCore k)).state ≠ .off)
  else if o = 0x20 then decide ((s.queue (keyCore k)).state = 0)
  else true

/-- Whether the state allows a write of an RW object of the pipeline, the allocator and the reduction (R200, R204, R229, R250, R261, R290, R300,
R302, R315): a counter is bound by it only where the rule speaks of every other field of its record (R204, R261, R315). OPT_LR and OPT_STREAM
count as fields that R261 fixes, since it excepts OPT_LR_NEXT and OPT_LR_STEP alone (log entry 40). -/
def planWriteAllowed (s : State) (k : Nat) : Bool :=
  let i := keyIndex k
  let slot := i % 0x10
  let bound := (decide (0x4200 ≤ i) && decide (i < 0x4220)) || inSlots 0x4310 k || inSlots 0x6100 k
  if keyIsCounter k && !bound then true
  else if inSlots 0x4000 k || inSlots 0x4310 k || inSlots 0x6030 k || inSlots 0x6210 k || (inSlots 0x6100 k && decide (keySub k ≠ 0x0C)) then
    decide (s.stage slot = 0) || decide (k = O.stageControl slot)
  else if i = 0x4040 then s.allUnused
  else if 0x4200 ≤ i ∧ i < 0x4220 then decide (keySub k = 2) || decide (s.rd (O.relayState (i - 0x4200)) = 0)
  else if k = O.optLrNext ∨ k = O.optLrStep then !s.lrFixed
  else if k = O.optLr ∨ k = O.optStream ∨ k = O.optBeta1 ∨ k = O.optBeta2 ∨ k = O.optEps ∨ k = O.optWd ∨ k = O.optMomentRnd then s.allUnused
  else if i = 0x4300 then decide (keySub k = 2) || decide (s.rd O.jobState = 0)
  else if k = O.nonfinitePolicy then s.activeGroups.isEmpty
  else if inSlots 0x5010 k then decide (keySub k = 2) || !s.rgActive slot
  else if inSlots 0x5020 k then !s.rgActive slot
  else if 0x5100 ≤ i ∧ i < 0x5120 then
    (let g := s.rd (O.rcSlot (i - 0x5100))
     !(decide (g < 16) && s.rgActive g))
  else if 0x5400 ≤ i ∧ i < 0x5600 then decide (s.rd O.reshardState ≠ 1)
  else true

/-- Whether the state allows a write of an object; where not, the write returns STATE. Objects with an effect of their own judge the rest
themselves. -/
def writeAllowed (s : State) (k : Nat) : Bool :=
  let i := keyIndex k
  if inBentBlock k then bentWriteAllowed s k
  else if 0x4000 ≤ i ∧ i < 0x7000 then planWriteAllowed s k
  else if 0x8000 ≤ i ∧ i < 0x9000 then decide (k = O.dataControl) || decide (s.rd O.dataState = 0)
  else if 0xA000 ≤ i ∧ i < 0xB000 then (counterBent k).elim true s.bentOn
  else true

/-- The first check a write of a numeric object fails, in the order of R63; OK when it passes all. -/
def checkWrite (s : State) (level k len v : Nat) : Nat :=
  if 0xF000 ≤ keyIndex k then (if s.walk then stWalk else stLevel)
  else if (rowsOf (keyIndex k)).isEmpty then stNoObject
  else if keySub k = 0 then
    (if s.walk then stWalk else if level < 1 then stLevel else stReadOnly)
  else
    match rowOf k with
    | none => stNoSubindex
    | some r =>
      if s.walk && !(isRecovery k || decide (level = 2)) then stWalk
      else if level < writeLevel k then stLevel
      else if r.acc = .const ∨ r.acc = .ro then stReadOnly
      else if r.type = .dom ∨ r.type.size ≠ len then stType
      else if !(r.type.admits v && r.rule.admits v && extraRange s k v) then stRange
      else if !writeAllowed s k then stState
      else stOk

/-- The first check a read of a numeric object fails, in the order of R63. -/
def checkRead (s : State) (level k : Nat) : Nat :=
  if 0xF000 ≤ keyIndex k then (if level < 1 then stLevel else stOk)
  else if (rowsOf (keyIndex k)).isEmpty then stNoObject
  else if keySub k = 0 then stOk
  else
    match rowOf k with
    | none => stNoSubindex
    | some r =>
      if level < readLevel s k then stLevel
      else if r.acc = .wo then stWriteOnly
      else if r.type = .dom then stType
      else stOk

/-- The first check of a DOMAIN transfer that fails: `write` tells its direction, `stop` where it ends. A READ_DOMAIN of a vendor diagnostic is
answered TYPE: none is taken to be a DOMAIN (log entry 112, DESIGN CHOICE). -/
def checkDomain (s : State) (level k : Nat) (write : Bool) (size stop : Nat) : Nat :=
  if 0xF000 ≤ keyIndex k then (if write then (if s.walk then stWalk else stLevel) else if level < 1 then stLevel else stType)
  else if (rowsOf (keyIndex k)).isEmpty then stNoObject
  else if keySub k = 0 then
    (if write then (if s.walk then stWalk else if level < 1 then stLevel else stReadOnly) else stType)
  else
    match rowOf k with
    | none => stNoSubindex
    | some r =>
      if write && s.walk && !(isRecovery k || decide (level = 2)) then stWalk
      else if level < (if write then writeLevel k else readLevel s k) then stLevel
      else if write && (decide (r.acc = .const) || decide (r.acc = .ro)) then stReadOnly
      else if !write && decide (r.acc = .wo) then stWriteOnly
      else if r.type ≠ .dom then stType
      else if size < stop then stRange
      else if write && !(isBentObj 0x28 k || isBentObj 0x0A k || writeAllowed s k) then stState
      else if !write && isBentObj 0x0A k && decide ((s.core (keyCore k)).state = .off) then stState
      else stOk

end Sys2Proof.Machine
end

