-- ==== Sys2Proof/Machine/Mgmt.lean ====
section
/-! DEFINITION. The management transport: taking a frame, sessions and sequencing, deferred completions, and the shared
course of every request (R54-R63). A row's meaning supplies what the request does once it is accepted. -/

namespace Sys2Proof.Machine

/-- What a request comes to once it is executed. -/
inductive Served where
  /-- Completed with a status and a response payload. -/
  | done (t : State) (status : Nat) (payload : Bytes)
  /-- READ_DOMAIN content from an offset: answered by segments (R58). -/
  | segs (t : State) (off : Nat) (content : Bytes)
  /-- Answered DEFERRED at once; completes with what it waits for (R60). -/
  | deferred (t : State) (w : Waits)
  /-- Not answered yet; answered with its final status at completion, or DEFERRED after 10 ms (R60, R453). -/
  | open_ (t : State) (w : Waits)
  /-- Part of a transfer: no answer yet (R59). -/
  | silent (t : State)
  /-- OPEN_SESSION granted: the new session (R57). -/
  | opened (t : State) (id : Nat) (level : Nat)

/-- Commands of Table 3.5. -/
def cmdRead : Nat := 1
/-- WRITE. -/
def cmdWrite : Nat := 2
/-- READ_DOMAIN. -/
def cmdReadDomain : Nat := 3
/-- WRITE_DOMAIN. -/
def cmdWriteDomain : Nat := 4
/-- SUBSCRIBE. -/
def cmdSubscribe : Nat := 5
/-- UNSUBSCRIBE. -/
def cmdUnsubscribe : Nat := 6
/-- OPEN_SESSION. -/
def cmdOpenSession : Nat := 7
/-- CLOSE_SESSION. -/
def cmdCloseSession : Nat := 8
/-- SERVICE_WRITE. -/
def cmdServiceWrite : Nat := 9

/-- The limit of a carrier's sessions (Table 3.6). -/
def carrierLimit (s : State) : Carrier → Nat
  | .tally => s.rd O.levelMaxTally
  | .host => s.rd O.levelMaxHost
  | .torus => s.rd O.levelMaxTorus

/-- The first unused session id from `c` upward, cyclically in 1 to 65,535 (R57 leaves the choice of id open). -/
def freeSessionId (s : State) (c : Nat) : Nat → Nat
  | 0 => c % 65535 + 1
  | n + 1 =>
    if (s.session? (c % 65535 + 1)).isSome then freeSessionId s (c + 1) n else c % 65535 + 1

/-- Whether a posted frame of the same session stands in the host window since before a frame: the requests of one session are taken in the
order they arrived (R57). -/
def postedBefore (l : List (Nat × Frame)) (f : Frame) : Bool :=
  (l.takeWhile (fun p => decide (p ≠ (f.slot, f)))).any (fun p => decide (p.2.session = f.session))

/-- Take a posted frame from its slot of the host window; a frame of another carrier is taken as it comes (R56), on the Tally port with the
framing of Table 3.6 (R383). -/
def takeFrame (s : State) (f : Frame) : Option State :=
  match f.carrier with
  | .host =>
    if s.mgmt.requests.contains (f.slot, f) && !postedBefore s.mgmt.requests f then
      some { s with mgmt := { s.mgmt with requests := s.mgmt.requests.erase (f.slot, f) } }
    else none
  | .tally => if f.ether.type = 0x88B6 ∧ f.ether.dst = s.fuses.tallyMac then some s else none
  | .torus => if s.walk then none else some s

/-- Answer an accepted request with what it came to. -/
def answer (f : Frame) (remembers : Bool) : Served → State
  | .done t st p =>
    let u := t.respond f f.session st p
    if remembers then u.remember f.session f.seq st else u
  | .segs t off content =>
    let u := State.each (fun t g => t.send f.carrier f.source g) t (segments t f off content 64)
    if remembers then u.remember f.session f.seq stOk else u
  | .deferred t w =>
    let o : Outstanding := ⟨f.session, f.seq, f.command, f.key, f.source, f.flags, f.carrier, f.ether.src, t.now, true, w⟩
    ({ t with mgmt := { t.mgmt with outstanding := t.mgmt.outstanding ++ [o] } }).respond f f.session stDeferred []
  | .open_ t w =>
    let o : Outstanding := ⟨f.session, f.seq, f.command, f.key, f.source, f.flags, f.carrier, f.ether.src, t.now, false, w⟩
    { t with mgmt := { t.mgmt with outstanding := t.mgmt.outstanding ++ [o] } }
  | .silent t => t
  | .opened t id level => t.respond f id stOk (natLe 1 level)

/-- Serve OPEN_SESSION (R57): payload the requested level; SERVICE is treated as OPERATOR; at most 64 sessions. -/
def serveOpen (s : State) (f : Frame) : Served :=
  if f.body.length ≠ 1 then .done s stType []
  else if 2 < leNat f.body then .done s stRange []
  else if 64 ≤ s.mgmt.sessions.length then .done s stBusy []
  else
    let (v, t) := s.free
    let id := freeSessionId t v 65
    let level := min (min (leNat f.body) 1) (carrierLimit s f.carrier)
    let e : Session := { id := id, level := level, carrier := f.carrier, proxied := f.isProxied, source := f.source, station := f.ether.src,
                         lastFrame := s.now, remembered := [], subs := [], queue := [], count := 0, overflow := false }
    .opened { t with mgmt := { t.mgmt with sessions := t.mgmt.sessions ++ [e] } } id level

/-- Forward a frame whose DEST is another package (R55): PROXIED set, SOURCE the own id so that the response returns
here, an OPEN_SESSION lowered to the entry carrier's limit, which the frame can tell the target in no other way (Table 3.6, log entry 96,
DEDUCED). -/
def proxyFrame (s : State) (f : Frame) : Frame :=
  Frame.seal { f with carrier := .torus, slot := 0, flags := f.flags ||| 4, source := s.node.id, ether := Ether.none,
                      payload := if f.command = cmdOpenSession ∧ f.body.length = 1 then
                                   natLe 1 (min (leNat f.body) (carrierLimit s f.carrier)) else f.body }

/-- Refuse a request of which nothing is executed; a WRITE_DOMAIN is answered once, by its LAST frame (R59). -/
def State.deny (s : State) (f : Frame) (status : Nat) : State :=
  if f.command = cmdWriteDomain ∧ f.isLast = false then s else s.respond f f.session status []

/-- The status of a command that session 0x0000 does not allow (R57): LEVEL, after the checks that R63 puts before it. -/
def openRefusal (s : State) (f : Frame) : Nat :=
  let named := decide (f.command = cmdWrite) || decide (f.command = cmdWriteDomain) || decide (f.command = cmdSubscribe)
    || decide (f.command = cmdUnsubscribe)
  if !named || decide (0xF000 ≤ f.index) then stLevel
  else if (rowsOf f.index).isEmpty then stNoObject
  else if decide (f.sub ≠ 0) && (rowOf f.key).isNone then stNoSubindex
  else if decide (f.command = cmdWrite ∨ f.command = cmdWriteDomain) && s.walk && !isRecovery f.key then stWalk
  else stLevel

/-- Whether session 0x0000 has 8 requests outstanding on a frame's carrier (R57): only the host window holds answers back. -/
def openFull (s : State) (f : Frame) : Bool :=
  decide (f.carrier = .host)
    && decide (8 ≤ (s.heldAnswers (fun g => decide (g.session = 0) || decide (g.command = cmdOpenSession))).length)

/-- A request on the open session 0x0000 (R57): OPEN_SESSION, READ and READ_DOMAIN at USER, nothing remembered, at most 8 outstanding on a
carrier. -/
def openRequest (s : State) (f : Frame) (serve : State → Nat → Served) : State :=
  if openFull s f then s.deny f stBusy
  else if f.command = cmdOpenSession then answer f false (serveOpen s f)
  else if f.command = cmdRead ∨ f.command = cmdReadDomain then answer f false (serve s 0)
  else s.deny f (openRefusal s f)

/-- A request on an opened session (R57): repeats, the limit of 8 outstanding, then execution. -/
def sessionRequest (s : State) (f : Frame) (e : Session) (serve : State → Nat → Served) : State :=
  let s := s.modSession e.id (fun e => { e with lastFrame := s.now })
  if f.command = cmdOpenSession then s.respond f f.session stState []
  else if s.answerHeld e.id f.seq then s
  else
    match e.remembered.reverse.find? (fun p => decide (p.1 = f.seq)) with
    | some p =>
      if f.command = cmdRead ∨ f.command = cmdReadDomain then answer f true (serve s e.level)
      else s.deny f p.2
    | none =>
      match s.mgmt.outstanding.find? (fun o => decide (o.session = e.id) && decide (o.seq = f.seq)) with
      | some o => if o.deferred then s.respond f f.session stDeferred [] else s
      | none =>
        let continues := s.mgmt.transfers.any (fun x => decide (x.session = e.id) && decide (x.seq = f.seq))
        if !continues && decide (8 ≤ s.outstandingCount e.id) then s.deny f stBusy
        else answer f true (serve s e.level)

/-- The course of a request frame for this package once the transport has judged it (R55, R57). -/
def dispatchRequest (s : State) (f : Frame) (serve : State → Nat → Served) : State :=
  if f.command = cmdServiceWrite ∧ (f.target ≠ s.node.id ∨ f.carrier = .torus) then s.respond f f.session stLevel []
  else if f.target ≠ s.node.id ∧ f.carrier ≠ .torus then
    if s.ready && s.reachable f.target then
      let p : Proxy := ⟨f.carrier, f.source, f.ether.src, f.session, f.seq, f.target⟩
      ({ s with mgmt := { s.mgmt with proxies := s.mgmt.proxies ++ [p] } }).send .torus f.target (proxyFrame s f)
    else s.deny { f with index := 0, sub := 0 } stState
  else if f.kind ≠ 1 then
    (if 2 ≤ f.kind ∧ f.kind ≤ 5 then s else s.respond f f.session stRange [])
  else if f.session = 0 then openRequest s f serve
  else
    match s.session? f.session with
    | none => s.deny f stClosed
    | some e => sessionRequest s f e serve

/-- Take a frame: judge it by R54, record it and run the request; `serve` is what the request does (R51). A frame whose framing the Tally
port does not accept is counted in TALLY_DISCARDED (R383). -/
def request (s : State) (f : Frame) (serve : State → Nat → Served) : State :=
  if !s.served then s
  else
    match takeFrame s f with
    | none => if f.carrier = .tally then s.add O.tallyDiscarded 1 else s
    | some t =>
      let u := t.trace f
      if !f.intact then u.add O.checkErrors 1
      else if f.version ≠ 1 then u.add O.versionErrors 1
      else dispatchRequest ((u.add O.framesReceived 1).kpc 0x10 0 1) f serve

/-- Whether a request's COMMAND is the one a row is about; an unknown COMMAND or KIND answers RANGE (Table 3.5). -/
def unknownCommand (f : Frame) : Bool := decide (f.command = 0) || decide (9 < f.command)

/-- What a numeric write does once it has passed the checks of `checkWrite`. -/
abbrev WriteEffect := State → Frame → Nat → Nat → Served

/-- Serve a WRITE of object `k` with value `v` at a level: the checks of R63, then the effect. -/
def serveWrite (effect : WriteEffect) (s : State) (f : Frame) (level : Nat) : Served :=
  let st := checkWrite s level f.key f.body.length (leNat f.body)
  if st = stOk then effect s f f.key (leNat f.body) else .done s st []

/-- The effect of a write that only stores the value (R51, R52). -/
def storeEffect (s : State) (_f : Frame) (k v : Nat) : Served := .done (s.wr k v) stOk []

/-- A WRITE row of its own: it applies to a frame that writes `v` of an object the row names, and leaves the state as it
is on any other frame (log entry 11, DESIGN CHOICE). -/
def writeRow (names : Nat → Nat → Bool) (effect : WriteEffect) (f : Frame) (s : State) : State :=
  if decide (f.command = cmdWrite) && names f.key (leNat f.body) then
    request s f (fun t level => serveWrite effect t f level)
  else s

end Sys2Proof.Machine
end

