-- ==== Sys2Proof/Machine/CoreRows.lean ====
section
/-! DEFINITION. Writes to the objects of a core (R114, R118) and of a Bent's random seed (R168). -/

namespace Sys2Proof.Machine

/-- Whether a core is one of a slot that is ARMED, RUNNING or STOPPING, whose CORE_CONTROL is refused (R200). -/
def State.paced (s : State) (c : Nat) : Bool := s.inSlot c

/-- A write of CORE_CONTROL (Table 5.11, R200). -/
def coreControlEffect (s : State) (_f : Frame) (k v : Nat) : Served :=
  let c := keyCore k
  let st := (s.core c).state
  if s.paced c then .done s stState []
  else if v = 1 then
    let e := s.rd (O.coreEntry (c / 64) (c % 64))
    if e % 64 ≠ 0 ∨ 0x80000 ≤ e then .done s stRange []
    else if st = .idle ∨ st = .halted then .done (s.startCore c e true) stOk [] else .done s stState []
  else if v = 2 then (if st = .running ∨ st = .waiting then .done (s.stopCore c).settle stOk [] else .done s stState [])
  else if v = 3 then (if st = .off then .done s stState [] else .done (s.resetCore c).settle stOk [])
  else .done s stRange []

/-- A core object written while its core is OFF (R118). -/
def State.coreOff (s : State) (k : Nat) : Bool := decide ((s.core (keyCore k)).state = .off)

/-- A write of CORE_FP_STATUS: each bit written 1 clears its flag (Table 5.14). -/
def fpStatusEffect (s : State) (_f : Frame) (k v : Nat) : Served :=
  if s.coreOff k then .done s stState []
  else if 32 ≤ v then .done s stRange []
  else .done (s.modCore (keyCore k) (fun c => { c with fp := c.fp &&& (31 - v) })) stOk []

/-- A write of RNG_SEED (R168, R304). -/
def seedEffect (s : State) (_f : Frame) (k v : Nat) : Served :=
  let b := keyBent k
  if s.rd O.jobState = 1 ∨ ((natsFrom (64 * b) 64).any (fun c => (s.core c).active)) = true then .done s stState []
  else .done (s.wr k v) stOk []

/-- CORE_START (R114). -/
def execCoreStart (f : Frame) (s : State) : Host.Outcome State Fault Refusal :=
  done s (writeRow (fun k v => isBentObj 0x01 k && decide (v = 1)) coreControlEffect f s)

/-- CORE_STOP (R114). -/
def execCoreStop (f : Frame) (s : State) : Host.Outcome State Fault Refusal :=
  done s (writeRow (fun k v => isBentObj 0x01 k && decide (v = 2)) coreControlEffect f s)

/-- CORE_RESET (R114). -/
def execCoreReset (f : Frame) (s : State) : Host.Outcome State Fault Refusal :=
  done s (writeRow (fun k v => isBentObj 0x01 k && decide (v = 3)) coreControlEffect f s)

/-- CORE_FP_STATUS_WRITE (R118). -/
def execCoreFpStatusWrite (f : Frame) (s : State) : Host.Outcome State Fault Refusal :=
  done s (writeRow (fun k _ => isBentObj 0x07 k) fpStatusEffect f s)

/-- RNG_SEED_WRITE (R168). -/
def execRngSeedWrite (f : Frame) (s : State) : Host.Outcome State Fault Refusal :=
  done s (writeRow (fun k _ => isBentObj 0x1D k && decide (keySub k = 1)) seedEffect f s)

end Sys2Proof.Machine
end

