-- ==== Sys2Proof/Machine/CounterRows.lean ====
section
/-! DEFINITION. The performance counters and the tag seed as written objects (R463-R466, R469), and a counter's wrap. -/

namespace Sys2Proof.Machine

/-- COUNTER_FREEZE (R465). -/
def execCounterFreeze (f : Frame) (s : State) : Host.Outcome State Fault Refusal :=
  done s (writeRow (fun k _ => decide (k = O.counterFreeze)) storeEffect f s)

/-- COUNTER_PRESET (R464): accepted while the counters are frozen too. -/
def execCounterPreset (f : Frame) (s : State) : Host.Outcome State Fault Refusal :=
  done s (writeRow (fun k _ => isCounterPart 1 k) storeEffect f s)

/-- A write of an overflow object clears the bits written 1 (R464). -/
def overflowClearEffect (s : State) (_f : Frame) (k v : Nat) : Served :=
  if counterPart k = some (0, 2) ∧ 16 ≤ v then .done s stRange []
  else .done (s.wr k (s.rd k - (s.rd k &&& v))) stOk []

/-- OVERFLOW_CLEAR (R464). -/
def execOverflowClear (f : Frame) (s : State) : Host.Outcome State Fault Refusal :=
  done s (writeRow (fun k _ => isCounterPart 2 k) overflowClearEffect f s)

/-- COUNTER_SELECT (R463): the value is unchanged. -/
def execCounterSelect (f : Frame) (s : State) : Host.Outcome State Fault Refusal :=
  done s (writeRow (fun k _ => isCounterPart 0 k) storeEffect f s)

/-- The value, overflow and select objects of a counter and its overflow bit; none where there is no such counter (Table 18.1). -/
def counterKeys (level unit ctr : Nat) : Option (Nat × Nat × Nat) :=
  if level = 0 ∧ unit < 3072 ∧ ctr < 4 then
    some (O.pcValue (unit / 64) ctr (unit % 64), O.pcOverflow (unit / 64) (unit % 64), O.pcSelect (unit / 64) ctr (unit % 64))
  else if level = 1 ∧ unit < 48 ∧ ctr < 8 then some (O.bpcValue unit ctr, O.bpcOverflow unit, O.bpcSelect unit ctr)
  else if level = 2 ∧ unit = 0 ∧ ctr < 32 then some (O.kpcValue ctr, O.kpcOverflow, O.kpcSelect ctr)
  else none

/-- A counter passes 2^48 - 1 (R464), which takes a selected event, counters that are not frozen, and a powered unit. -/
def State.counterWraps (s : State) (value overflow select ctr : Nat) : State :=
  if s.rd O.counterFreeze = 1 ∨ s.rd select % 256 = 0 ∨ s.served = false ∨ (counterBent value).elim false (fun b => !s.bentOn b) then s
  else s.wrAll [(value, 0), (overflow, s.rd overflow ||| 2 ^ ctr)]

/-- COUNTER_WRAP (R464). -/
def execCounterWrap (level unit ctr : Nat) (s : State) : Host.Outcome State Fault Refusal :=
  match counterKeys level unit ctr with
  | none => .fault .noSuchUnit
  | some (v, o, w) => done s (s.counterWraps v o w ctr)

/-- A write of TAG_SEED sets the tag state of every core (R469). -/
def tagSeedEffect (s : State) (_f : Frame) (k v : Nat) : Served :=
  let t := s.wr k v
  .done (State.each (fun (t : State) (b : Nat) =>
    if t.bentOn b then
      State.each (fun (t : State) (c : Nat) => t.modCore c (fun x => { x with tagState := tagInit v c })) t (natsFrom (64 * b) 64)
    else t) t (natsFrom 0 48)) stOk []

/-- TAG_SEED (R469). -/
def execTagSeed (f : Frame) (s : State) : Host.Outcome State Fault Refusal :=
  done s (writeRow (fun k _ => decide (k = O.tagSeed)) tagSeedEffect f s)

end Sys2Proof.Machine
end

