-- ==== Sys2Proof/Machine/MgmtRows.lean ====
section
/-! DEFINITION. The management commands that read, subscribe and hold sessions, the host window, and the timers of the
transport (chapter 03). -/

namespace Sys2Proof.Machine

/-- A row about one COMMAND: a frame with another known COMMAND is not this event and leaves the state; an unknown
COMMAND returns RANGE (Table 3.5, log entry 11, DESIGN CHOICE). -/
def commandRow (cmd : Nat) (serve : Frame → State → Nat → Served) (f : Frame) (s : State) : State :=
  if f.command = cmd then request s f (serve f)
  else if unknownCommand f then request s f (fun t _ => .done t stRange [])
  else s

/-- READ: the checks of R63, then the value of the object at this instant (R51). A vendor diagnostic's content is open
(R46, log entry 4, DESIGN CHOICE). -/
def serveRead (f : Frame) (s : State) (level : Nat) : Served :=
  let st := checkRead s level f.key
  if st ≠ stOk then .done s st []
  else if 0xF000 ≤ f.index then
    let (v, t) := s.free
    .done t stOk (natLe 8 v)
  else if f.sub = 0 then .done s stOk (natLe 1 (highestSub f.index))
  else
    match rowOf f.key with
    | none => .done s stNoSubindex []
    | some r => if r.type = .vstr then .done s stOk (s.readText f.key) else .done s stOk (s.readValue f.key r.type.size)

/-- READ (R51). -/
def execRead (f : Frame) (s : State) : Host.Outcome State Fault Refusal := done s (commandRow cmdRead serveRead f s)

/-- READ_DOMAIN: payload the length, 1 to 65,536; the content of one instant (R58). -/
def serveReadDomain (f : Frame) (s : State) (level : Nat) : Served :=
  let n := leNat f.body
  let st := checkDomain s level f.key false (domSize f.key) (f.offset + n)
  if st ≠ stOk ∧ st ≠ stRange ∧ st ≠ stState then .done s st []
  else if f.body.length ≠ 4 then .done s stType []
  else if n = 0 ∨ 65536 < n ∨ st = stRange then .done s stRange []
  else if st = stState then .done s stState []
  else .segs s f.offset (s.readDom f.key f.offset n)

/-- READ_DOMAIN (R58). -/
def execReadDomain (f : Frame) (s : State) : Host.Outcome State Fault Refusal :=
  done s (commandRow cmdReadDomain serveReadDomain f s)

/-- Expiry of the 100 ms limit on an incomplete WRITE_DOMAIN: discarded and answered STATE (R59). -/
def writeDomainTimeout (session seq : Nat) (s : State) : State :=
  match s.mgmt.transfers.find? (fun x => decide (x.session = session) && decide (x.seq = seq)) with
  | none => s
  | some x =>
    if !s.elapsed x.began 100000 then s
    else
      let t := { s with mgmt := { s.mgmt with transfers := s.mgmt.transfers.erase x } }
      let o : Outstanding := ⟨session, seq, cmdWriteDomain, x.key, x.source, x.flags, x.carrier, x.station, x.began, false, .prisum stState⟩
      (t.send x.carrier x.source (completionFrame t o 2 stState [])).remember session seq stState

/-- WRITE_DOMAIN_TIMEOUT (R59). -/
def execWriteDomainTimeout (session seq : Nat) (s : State) : Host.Outcome State Fault Refusal :=
  done s (writeDomainTimeout session seq s)

/-- SUBSCRIBE: a readable object; a second subscription of one object adds none; at most 256 a session (R62). -/
def serveSubscribe (f : Frame) (s : State) (level : Nat) : Served :=
  let st := checkRead s level f.key
  if st ≠ stOk ∧ st ≠ stType then .done s st []
  else
    match s.session? f.session with
    | none => .done s stClosed []
    | some e =>
      if e.subs.any (fun b => decide (b.key = f.key)) then .done s stOk []
      else if 256 ≤ e.subs.length then .done s stBusy []
      else .done (s.modSession e.id (fun x => { x with subs := x.subs ++ [⟨f.key, false, none⟩] })) stOk []

/-- SUBSCRIBE (R62). -/
def execSubscribe (f : Frame) (s : State) : Host.Outcome State Fault Refusal :=
  done s (commandRow cmdSubscribe serveSubscribe f s)

/-- UNSUBSCRIBE: of an object that the session does not follow returns OK and changes nothing (R62). -/
def serveUnsubscribe (f : Frame) (s : State) (level : Nat) : Served :=
  let st := checkRead s level f.key
  if st ≠ stOk ∧ st ≠ stType then .done s st []
  else .done (s.modSession f.session (fun x => { x with subs := x.subs.filter (fun b => decide (b.key ≠ f.key)) })) stOk []

/-- UNSUBSCRIBE (R62). -/
def execUnsubscribe (f : Frame) (s : State) : Host.Outcome State Fault Refusal :=
  done s (commandRow cmdUnsubscribe serveUnsubscribe f s)

/-- OPEN_SESSION (R57). -/
def execOpenSession (f : Frame) (s : State) : Host.Outcome State Fault Refusal :=
  done s (commandRow cmdOpenSession (fun f t _ => serveOpen t f) f s)

/-- CLOSE_SESSION: the session closes (R57). -/
def serveClose (f : Frame) (s : State) (_level : Nat) : Served := .done (s.closeSession f.session) stOk []

/-- CLOSE_SESSION (R57). -/
def execCloseSession (f : Frame) (s : State) : Host.Outcome State Fault Refusal :=
  done s (commandRow cmdCloseSession serveClose f s)

/-- A session that has carried no frame for SESSION_IDLE_LIMIT closes (R57). -/
def sessionIdle (id : Nat) (s : State) : State :=
  match s.session? id with
  | none => s
  | some e => if s.elapsed e.lastFrame (s.rd O.sessionIdleLimit * 1000000) then s.closeSession id else s

/-- SESSION_IDLE_TIMEOUT (R57). -/
def execSessionIdleTimeout (session : Nat) (s : State) : Host.Outcome State Fault Refusal :=
  done s (sessionIdle session s)

/-- The 60 s in which every SERVICE_WRITE returns BUSY end (R64). -/
def serviceLockoutEnd (s : State) : State :=
  match s.mgmt.lockedUntil with
  | none => s
  | some u => if u ≤ s.now then { s with mgmt := { s.mgmt with lockedUntil := none, failures := [] } } else s

/-- SERVICE_LOCKOUT_END (R64). -/
def execServiceLockoutEnd (s : State) : Host.Outcome State Fault Refusal := done s (serviceLockoutEnd s)

/-- A response to a proxied frame returns over the torus and is passed back on the entry carrier (R55); the request stays
proxied while a completion or further segments follow (R58, R60). An event of the proxied session, of which R55 does not speak, ends here
(log entry 120, DESIGN CHOICE). -/
def proxyResponse (f : Frame) (s : State) : State :=
  if !s.ready || decide (f.carrier ≠ .torus) then s
  else
    let t := s.trace f
    if !f.intact then t.add O.checkErrors 1
    else if f.version ≠ 1 then t.add O.versionErrors 1
    else
      let t := t.add O.framesReceived 1
      if f.kind = 2 ∨ f.kind = 3 ∨ f.kind = 5 then
        match t.mgmt.proxies.find? (fun p => decide (p.seq = f.seq) && decide (p.dest = f.source) &&
            (decide (p.session = f.session) || decide (f.command = cmdOpenSession))) with
        | none => t
        | some p =>
          let more := decide (f.status = stDeferred ∧ f.kind = 2) || decide (f.kind = 5 ∧ f.isLast = false)
          let u := if more then t else { t with mgmt := { t.mgmt with proxies := t.mgmt.proxies.erase p } }
          u.send p.carrier p.source (Frame.seal { f with carrier := p.carrier, dest := p.source, ether := { Ether.none with src := p.station } })
      else t

/-- PROXY_RESPONSE (R55). -/
def execProxyResponse (f : Frame) (s : State) : Host.Outcome State Fault Refusal := done s (proxyResponse f s)

/-- The event frame of a change for a session (R62): SEQUENCE the session's event count, the value as payload, none for
a DOMAIN. -/
def eventFrame (s : State) (e : Session) (k : Nat) : Frame :=
  let p := match rowOf k with
    | none => []
    | some r => if r.type = .dom then [] else if r.type = .vstr then s.readText k else s.readValue k r.type.size
  Frame.seal { carrier := e.carrier, slot := 0, carried := 0, version := 1, kind := 4, command := cmdSubscribe, status := 0,
               seq := (e.count + 1) % 65536, session := e.id, source := s.node.id, dest := 0, index := keyIndex k,
               sub := keySub k, flags := 0, offset := 0, length := p.length, payload := p,
               check := 0, ether := { Ether.none with src := e.station } }

/-- Whether a write of a session has not been answered yet: its response is to come, or is held back (R56, R62). -/
def State.writeUnanswered (s : State) (id : Nat) : Bool :=
  let isWrite := fun (c : Nat) => decide (c = cmdWrite) || decide (c = cmdWriteDomain) || decide (c = cmdServiceWrite)
  s.mgmt.outstanding.any (fun o => decide (o.session = id) && !o.deferred && isWrite o.command)
    || s.mgmt.held.any (fun f => decide (f.source = s.node.id) && decide (f.session = id) && decide (f.kind = 2) && isWrite f.command)

/-- An event for a changed object: at most one a millisecond and object, and none before the response of a write of the same session; a host
session's event waits in its queue of 64 while the event slots are full and is dropped when the queue is full (R56, R62). -/
def eventSend (id k : Nat) (s : State) : State :=
  match s.session? id with
  | none => s
  | some e =>
    match e.subs.find? (fun b => decide (b.key = k)) with
    | none => s
    | some b =>
      if !b.dirty || !(b.lastSent.elim true (fun t => s.elapsed t 1000)) || !s.served || s.writeUnanswered id then s
      else
        let sent := e.subs.map (fun x => if x.key = k then { x with dirty := false, lastSent := some s.now } else x)
        let f := eventFrame s e k
        if e.carrier = .host then
          if 64 ≤ e.queue.length then
            (s.modSession id (fun x => { x with subs := sent, count := x.count + 1, overflow := true })).add O.eventsDropped 1
          else
            State.refillEvents (s.modSession id (fun x =>
              { x with subs := sent, count := x.count + 1, queue := x.queue ++ [f] })) 1
        else
          (s.modSession id (fun x => { x with subs := sent, count := x.count + 1 })).send e.carrier
            e.source f

/-- EVENT_SEND (R62). -/
def execEventSend (session index sub : Nat) (s : State) : Host.Outcome State Fault Refusal :=
  done s (eventSend session (index * 256 + sub) s)

/-- Whether the host reaches the management window: its link is UP (R378-R381). -/
def State.hostReaches (s : State) : Bool := s.served && decide (s.rd O.hostLinkState = 3)

/-- The host posts request slots: each frame stands in the slot it names, whose bit of REQ_POST is written 1; a slot the
package has not yet taken keeps its frame (R56, Table 3.7). -/
def reqPost (frames : List Frame) (mask : Nat) (s : State) : State :=
  if !s.hostReaches then s
  else
    State.each (fun (t : State) (f : Frame) =>
      if decide (f.carrier = .host) && decide (f.slot < 16) && mask.testBit f.slot
          && t.mgmt.requests.all (fun p => decide (p.1 ≠ f.slot)) then
        { t with mgmt := { t.mgmt with requests := t.mgmt.requests ++ [(f.slot, f)] } }
      else t) s frames

/-- REQ_POST (R56). -/
def execReqPost (frames : List Frame) (mask : Nat) (s : State) : Host.Outcome State Fault Refusal :=
  done s (reqPost frames mask s)

/-- The host frees response slots; held responses are placed (R56). -/
def rspTake (mask : Nat) (s : State) : State :=
  if !s.hostReaches then s
  else
    let t := { s with mgmt := { s.mgmt with responses := s.mgmt.responses.filter (fun p => !mask.testBit p.1) } }
    State.refillResponses t t.mgmt.held.length

/-- RSP_TAKE (R56). -/
def execRspTake (mask : Nat) (s : State) : Host.Outcome State Fault Refusal := done s (rspTake mask s)

/-- The host frees event slots; queued events pass to them (R56, R62). -/
def evtTake (mask : Nat) (s : State) : State :=
  if !s.hostReaches then s
  else
    let t := { s with mgmt := { s.mgmt with events := s.mgmt.events.filter (fun p => !mask.testBit p.1) } }
    State.refillEvents t 16

/-- EVT_TAKE (R56). -/
def execEvtTake (mask : Nat) (s : State) : Host.Outcome State Fault Refusal := done s (evtTake mask s)

/-- The slots that hold a frame, a bit each (Table 3.7). -/
def slotMask (l : List (Nat × Frame)) : Nat := ((natsFrom 0 16).map (fun i => if l.any (fun p => decide (p.1 = i)) then 2 ^ i else 0)).sum

/-- The byte at an offset of the slots from `base`: of the frame in the slot; what an empty slot or the rest of one holds is open. -/
def slotByte (l : List (Nat × Frame)) (base off : Nat) : Byte :=
  match l.find? (fun p => decide (p.1 = (off - base) / 0x420)) with
  | none => Config.freeByte off
  | some p => (p.2.bytes[(off - base) % 0x420]?).getD (Config.freeByte off)

/-- What the host reads at an offset of its management window (R56, Table 3.7): the response and event slots, REQ_BUSY, RSP_READY and
EVT_READY, and 0 at every offset that the table does not name; a part that only the host writes reads as an open value. -/
def State.windowByte (s : State) (off : Nat) : Byte :=
  let word := fun (base v : Nat) => (natLe 4 v).getD (off - base) 0#8
  if off < 0x4200 then Config.freeByte off
  else if off < 0x8400 then slotByte s.mgmt.responses 0x4200 off
  else if off < 0xC600 then slotByte s.mgmt.events 0x8400 off
  else if off < 0xF000 then 0#8
  else if off < 0xF004 then Config.freeByte off
  else if off < 0xF008 then word 0xF004 (slotMask s.mgmt.requests)
  else if off < 0xF00C then word 0xF008 (slotMask s.mgmt.responses)
  else if off < 0xF010 then Config.freeByte off
  else if off < 0xF014 then word 0xF010 (slotMask s.mgmt.events)
  else if off < 0xF018 then Config.freeByte off
  else 0#8

/-- RESTORE_STORED: 0x01 marks every RWS object for its default at the next start, 0x00 removes the mark (R53). -/
def restoreEffect (s : State) (_f : Frame) (_k v : Nat) : Served :=
  .done { s with mgmt := { s.mgmt with restoreMark := decide (v = 1) } } stOk []

/-- RESTORE_STORED (R53). -/
def execRestoreStored (f : Frame) (s : State) : Host.Outcome State Fault Refusal :=
  done s (writeRow (fun k _ => decide (k = O.restoreStored)) restoreEffect f s)

/-- COUNTER_CLEAR: 0 clears the counter, any other value returns RANGE (R144 and the like of every chapter). -/
def execCounterClear (f : Frame) (s : State) : Host.Outcome State Fault Refusal :=
  done s (writeRow (fun k _ => keyIsCounter k) storeEffect f s)

/-- The Prisum controller has not completed a request within 10 ms of taking it: it answers DEFERRED (R60). -/
def requestDeferred (session seq : Nat) (s : State) : State :=
  match s.mgmt.outstanding.find? (fun o => decide (o.session = session) && decide (o.seq = seq) && !o.deferred) with
  | none => s
  | some o =>
    if !s.elapsed o.taken 10000 then s
    else
    let t := { s with mgmt := { s.mgmt with
      outstanding := s.mgmt.outstanding.map (fun x => if x = o then { x with deferred := true } else x) } }
    t.send o.carrier o.source (completionFrame t o 2 stDeferred [])

/-- REQUEST_DEFERRED (R60). -/
def execRequestDeferred (session seq : Nat) (s : State) : Host.Outcome State Fault Refusal :=
  done s (requestDeferred session seq s)

end Sys2Proof.Machine
end

