-- ==== Sys2Proof/Machine/Domains.lean ====
section
/-! DEFINITION. WRITE_DOMAIN (R59): gathering the frames of a transfer and applying them as one write; the rows of its own build on it. -/

namespace Sys2Proof.Machine

/-- What a complete transfer does: the state, the object, the offset and the bytes. -/
abbrev DomainEffect := State → Nat → Nat → Bytes → Served

/-- Bytes covered by the parts of a transfer from an offset on, without a gap. -/
def coveredFrom (parts : List (Nat × Bytes)) (at_ : Nat) : Nat → Nat
  | 0 => at_
  | n + 1 =>
    match parts.find? (fun p => decide (p.1 ≤ at_) && decide (at_ < p.1 + p.2.length)) with
    | none => at_
    | some p => coveredFrom parts (p.1 + p.2.length) n

/-- The lowest offset of the parts. -/
def lowestPart (parts : List (Nat × Bytes)) : Nat := ((parts.map Prod.fst).foldl (fun (m : Option Nat) a => some (m.elim a (min a))) none).getD 0

/-- The content of the parts laid over one another in the order of their arrival, from an offset on, `n` bytes. -/
def partsBytes (parts : List (Nat × Bytes)) (at_ n : Nat) : Bytes :=
  (parts.foldl (fun (m : Map Byte) p => m.setBytes 0#8 p.1 p.2) Map.empty).bytes 0#8 at_ n

/-- Drop the incomplete transfer of a session and SEQUENCE. -/
def State.dropTransfer (s : State) (session seq : Nat) : State :=
  { s with mgmt := { s.mgmt with transfers := s.mgmt.transfers.filter (fun x => !(decide (x.session = session) && decide (x.seq = seq))) } }

/-- Serve one frame of a WRITE_DOMAIN (R59): the frames of the transfer are gathered; once its bytes run without a gap from its lowest
offset to the end of its LAST frame, it is judged by the checks of R63 and applied as one write. -/
def serveWriteDomain (effect : DomainEffect) (f : Frame) (s : State) (level : Nat) : Served :=
  let t := s.dropTransfer f.session f.seq
  let old := s.mgmt.transfers.find? (fun x => decide (x.session = f.session) && decide (x.seq = f.seq))
  let x : Transfer := old.getD { session := f.session, seq := f.seq, carrier := f.carrier, source := f.source, station := f.ether.src, flags := f.flags,
                                 key := f.key, began := s.now, parts := [], stop := none }
  if x.key ≠ f.key then .done t stRange []
  else
    let x := { x with parts := x.parts ++ [(f.offset, f.body)],
                      stop := if f.isLast then some (f.offset + f.body.length) else x.stop }
    let lo := lowestPart x.parts
    let waits : Served := .silent { t with mgmt := { t.mgmt with transfers := t.mgmt.transfers ++ [x] } }
    match x.stop with
    | none => waits
    | some e =>
      if coveredFrom x.parts lo (x.parts.length + 1) < e then waits
      else
        let st := checkDomain s level f.key true (if lo + 65536 < e then 0 else domSize f.key) e
        if st ≠ stOk then .done t st [] else effect t f.key lo (partsBytes x.parts lo (e - lo))

/-- A WRITE_DOMAIN row of its own: it applies to a frame that addresses an object the row names (log entry 11, DESIGN CHOICE). -/
def domainRow (names : Nat → Bool) (effect : DomainEffect) (f : Frame) (s : State) : State :=
  if decide (f.command = cmdWriteDomain) && names f.key then request s f (serveWriteDomain effect f) else s

/-- Store the bytes in the dictionary. -/
def storeBytes (s : State) (k off : Nat) (bs : Bytes) : State := s.setDom k ((s.dom k).setBytes 0#8 off bs)

/-- A write of CORE_MEMORY: refused while the core is RUNNING, WAITING or STOPPING, and while it is OFF (R113, R118). -/
def coreMemoryEffect (s : State) (k off : Nat) (bs : Bytes) : Served :=
  let c := keyCore k
  if (s.core c).active || decide ((s.core c).state = .off) then .done s stState []
  else .done (s.modCore c (fun n => { n with mem := n.mem.setBytes 0#8 off bs })) stOk []

/-- CORE_MEMORY_WRITE (R113). -/
def execCoreMemoryWrite (f : Frame) (s : State) : Host.Outcome State Fault Refusal :=
  done s (domainRow (isBentObj 0x0A) coreMemoryEffect f s)

end Sys2Proof.Machine
end

