-- ==== Sys2Proof/Machine/Messages.lean ====
section
/-! DEFINITION. Acceptance of a message at its queue (R177, R184-R187, R192): a message takes a slot of the queue's storage in Bent memory, a
contribution its place in a round, and a complete round becomes one message. -/

namespace Sys2Proof.Machine

/-- Store a message in a slot: its header and its payload (R176, Table 8.5). -/
def State.storeMessage (s : State) (q slot sender mflags seq count : Nat) (checks : List W32) (payload : Bytes) : State :=
  s.writeSlot q slot 0 (messageHeader (payload.length / 64) sender mflags (s.queue q).gen seq count checks ++ payload)

/-- Wake the readers of a queue: a message or a combined result was accepted (R180). -/
def State.notifyReaders (s : State) (q : Nat) : State :=
  State.each (fun (t : State) (x : Nat × Nat × Endpoint) => if x.2.2.kind = 3 then t.notify x.1 x.2.1 else t) s (s.bindingsOf q)

/-! ### Combining rounds (R185, R186) -/

/-- MFLAGS of a combined result. -/
def combinedFlags (w : Nat) : Nat := 1 + 2 * (qArrival w).toNat

/-- Where the contribution of a sender stands in a round's slot, in deterministic mode. -/
def partOffset (w sender : Nat) : Nat := 128 + sender * (64 * qMsgMax w)

/-- Whether a round holds no contribution of a sender's present binding. -/
def Round.lacks (r : Round) (sender : Nat) : Bool := !(r.parts.any (fun x => decide (x.sender = sender) && !x.origins.isEmpty))

/-- Replace a round of a queue. -/
def State.setRound (s : State) (q : Nat) (r : Round) : State :=
  let v := s.queue q
  s.setQueue q { v with rounds := v.rounds.map (fun x => if x.slot = r.slot then r else x) }

/-- Remove a round from a queue. -/
def State.dropRound (s : State) (q slot : Nat) : State :=
  let v := s.queue q
  s.setQueue q { v with rounds := v.rounds.filter (fun x => decide (x.slot ≠ slot)) }

/-- The oldest round in which a sender has no contribution; a new one in a free slot when there is none (R185, R186). -/
def State.roundFor (s : State) (q sender : Nat) : Option (State × Round) :=
  let v := s.queue q
  match v.rounds.find? (fun r => r.lacks sender) with
  | some r => some (s, r)
  | none =>
    (s.freeSlotOf q).map (fun slot =>
      let r : Round := ⟨slot, [], []⟩
      ((s.writeSlot q slot 0 (messageHeader (qMsgMax (s.qword q)) 255 (combinedFlags (s.qword q)) v.gen 0 0 [])).setQueue q
        { v with rounds := v.rounds ++ [r] }, r))

/-- A contribution of a round fails its check: the Combine engine abandons the round (Table 16.3); its credit returns (log entry 100,
DESIGN CHOICE). -/
def State.roundFails (s : State) (q : Nat) (r : Round) : State :=
  let t := State.each (fun t o => t.returnCredit q o) (s.dropRound q r.slot) (r.parts.flatMap Contribution.origins)
  t.landedFails 0 (t.suspect susBent (q / 64))

/-- The words of an arrival-order round after a contribution, with what the Combine engine keeps beside them (R186). -/
def State.addArrival (s : State) (q : Nat) (r : Round) (payload : Bytes) : List Running :=
  let cfmt := qFmt (s.qword q)
  let n := payload.length / 4
  let old := s.slotBytes q r.slot 128 (4 * n)
  (natsFrom 0 n).map (fun i =>
    if r.parts.isEmpty then Running.first cfmt (wordAt payload i)
    else Running.add cfmt ⟨wordAt old i, r.keeps.getD i (0#32, none)⟩ (wordAt payload i))

/-- Place a contribution in its round: in the slot of its sender, or added to the running sums (R185, R186). -/
def State.placePart (s : State) (q : Nat) (r : Round) (f : Flight) : State × Round :=
  let w := s.qword q
  let part : Contribution := ⟨f.sender, f.checks, [f.origin]⟩
  if qArrival w then
    let l := s.addArrival q r f.payload
    let r := { r with parts := r.parts ++ [part], keeps := l.map Running.keep }
    ((s.writeSlot q r.slot 128 (ofWords (l.map Running.sum))).setRound q r, r)
  else
    let r := { r with parts := r.parts ++ [part] }
    ((s.writeSlot q r.slot (partOffset w f.sender) f.payload).setRound q r, r)

/-- The contributions of a complete round by sender index, each with its check values. -/
def State.roundParts (s : State) (q : Nat) (r : Round) : List (Bytes × List W32) :=
  let w := s.qword q
  (natsFrom 0 (qSenders w)).map (fun i =>
    (s.slotBytes q r.slot (partOffset w i) (64 * qMsgMax w),
     ((r.parts.find? (fun x => decide (x.sender = i))).elim [] Contribution.checks)))

/-- The result of a complete round; none when a contribution fails its check (R176, R185, R186). -/
def State.roundResult (s : State) (q : Nat) (r : Round) : Option Bytes :=
  let w := s.qword q
  if qArrival w then
    let sums := s.slotBytes q r.slot 128 (64 * qMsgMax w)
    some (ofWords ((natsFrom 0 (16 * qMsgMax w)).map (fun i => Running.out (qFmt w) ⟨wordAt sums i, r.keeps.getD i (0#32, none)⟩)))
  else
    let l := s.roundParts q r
    if l.any (fun p => decide (payloadChecks p.1 ≠ p.2)) then none else some (combineRound (qFmt w) (l.map Prod.fst))

/-- COMBINED_RESULT: when a round is complete its result, in the round's own slot, is a message that the queue accepts (R185). -/
def State.completeRound (s : State) (q : Nat) (r : Round) : State :=
  if r.parts.length < qSenders (s.qword q) then s
  else
    match s.roundResult q r with
    | none => s.roundFails q r
    | some p =>
      let t := (s.storeMessage q r.slot 255 (combinedFlags (s.qword q)) 0 0 (payloadChecks p) p).dropRound q r.slot
      let v := t.queue q
      (t.setQueue q { v with messages := v.messages ++ [⟨r.slot, [], r.parts.flatMap Contribution.origins⟩] }).notifyReaders q

/-! ### Acceptance -/

/-- What came of offering a message to a queue: it waits for a free slot, was accepted (UNDELIVERED set when no reader was
live), or is refused with a status (R177, R187, R192). -/
inductive Accepted where
  | full
  | taken (t : State) (undelivered : Bool)
  | refused (status : Nat)

/-- Offer a contribution to a combining queue: in arrival-order mode its checks are verified before it is added (R176, R186, R408). -/
def State.offerPart (s : State) (f : Flight) : Accepted :=
  match s.roundFor f.queue f.sender with
  | none => .full
  | some (t, r) =>
    if qArrival (s.qword f.queue) ∧ payloadChecks f.payload ≠ f.checks then
      .taken (t.roundFails f.queue { r with parts := r.parts ++ [⟨f.sender, [], [f.origin]⟩] }) false
    else
      let (u, r) := t.placePart f.queue r f
      .taken (u.completeRound f.queue r) false

/-- Offer a message to a PLAIN or BROADCAST queue. -/
def State.offerMessage (s : State) (f : Flight) : Accepted :=
  let q := f.queue
  match s.freeSlotOf q with
  | none => .full
  | some slot =>
    let broadcast := decide (qKind (s.qword q) = 2)
    let readers := if broadcast then s.liveReaders q else []
    let t := s.storeMessage q slot f.sender 0 f.seq f.count f.checks f.payload
    if broadcast && readers.isEmpty then
      .taken ((t.add (O.queueDropped (q / 64) (q % 64)) 1).returnCredit q f.origin) true
    else
      let v := t.queue q
      .taken ((t.setQueue q { v with messages := v.messages ++ [⟨slot, readers, [f.origin]⟩] }).notifyReaders q) false

/-- A package that sends to a queue is one of those that its generation notices go to. -/
def State.noteRemote (s : State) (q : Nat) (o : Origin) : State :=
  let v := s.queue q
  match o with
  | .remote p => if v.remotes.contains p then s else s.setQueue q { v with remotes := v.remotes ++ [p] }
  | .endpoint _ _ _ => s

/-- Whether a message of a size and a sender index can stand in a queue: a message of another package that cannot is refused as stale (log
entry 57). -/
def Flight.fits (f : Flight) (w : Nat) : Bool :=
  let n := f.payload.length
  decide (f.sender < qSenders w) && decide (0 < n) && decide (n ≤ 64 * qMsgMax w) && (decide (qKind w ≠ 1) || decide (n = 64 * qMsgMax w))

/-- Offer a message to its queue (R177, R185-R187, R192). -/
def State.offer (s : State) (f : Flight) : Accepted :=
  let v := s.queue f.queue
  if v.gen ≠ f.gen then .refused 0x22
  else if v.state ≠ 1 then .refused 0x23
  else if !f.fits (s.qword f.queue) then .refused 0x22
  else
    let t := (s.noteRemote f.queue f.origin).bpc (f.queue / 64) 0x0E 1
    if qKind (s.qword f.queue) = 1 then t.offerPart f else t.offerMessage f

end Sys2Proof.Machine
end

