-- ==== Sys2Proof/Machine/Channels.lean ====
section
/-! DEFINITION. Channels (chapter 08): queue controls, the endpoint table with its checks, the channel descriptors, acceptance of messages,
generation notices and the channel wait timeout. -/

namespace Sys2Proof.Machine

/-! ### Queue controls (Table 8.3) -/

/-- The queue that a QUEUE object belongs to. -/
def keyQueue (k : Nat) : Nat := 64 * keyBent k + (keySub k - 1)

/-- A write of QUEUE_CONTROL (R171, Table 8.3). While the Bent is not powered its queues cannot be used. -/
def queueControlEffect (s : State) (_f : Frame) (k v : Nat) : Served :=
  let q := keyQueue k
  let st := (s.queue q).state
  if s.bentOn (keyBent k) = false then .done s stState []
  else if v = 1 then
    (if st ≠ 0 then .done s stState []
     else if !s.queueFits q then .done s stRange []
     else .done (s.moveGen q 1) stOk [])
  else if v = 2 then (if st = 1 then .done (s.closeQueue q).settle stOk [] else .done s stState [])
  else if v = 3 then (if st = 2 then .done (s.moveGen q 1).settle stOk [] else .done s stState [])
  else if v = 4 then (if st = 2 then .done (s.moveGen q 0).settle stOk [] else .done s stState [])
  else .done s stRange []

/-- QUEUE_CREATE (R172). -/
def execQueueCreate (f : Frame) (s : State) : Host.Outcome State Fault Refusal :=
  done s (writeRow (fun k v => isBentObj 0x21 k && decide (v = 1)) queueControlEffect f s)

/-- QUEUE_CLOSE (R172). -/
def execQueueClose (f : Frame) (s : State) : Host.Outcome State Fault Refusal :=
  done s (writeRow (fun k v => isBentObj 0x21 k && decide (v = 2)) queueControlEffect f s)

/-- QUEUE_REOPEN (R172). -/
def execQueueReopen (f : Frame) (s : State) : Host.Outcome State Fault Refusal :=
  done s (writeRow (fun k v => isBentObj 0x21 k && decide (v = 3)) queueControlEffect f s)

/-- QUEUE_DELETE (R172). -/
def execQueueDelete (f : Frame) (s : State) : Host.Outcome State Fault Refusal :=
  done s (writeRow (fun k v => isBentObj 0x21 k && decide (v = 4)) queueControlEffect f s)

/-! ### The endpoint table (R174, R175) -/

/-- A write of ENDPOINT_TABLE (R175): bytes the transfer leaves out are as they read, with the read-only fields 0. -/
def endpointTableEffect (s : State) (k off : Nat) (bs : Bytes) : Served :=
  let c := keyCore k
  if s.coreOff k then .done s stState []
  else
    let now := (natsFrom 0 16).flatMap (fun e => (s.endpointBytes ((s.core c).endp e)).take 10 ++ List.replicate 6 0#8)
    let merged := (Map.empty.setBytes 0#8 0 now).setBytes 0#8 off bs
    let (st, t) := s.writeTable c (merged.bytes 0#8 0 256)
    .done t.settle st []

/-- ENDPOINT_TABLE_WRITE (R175). -/
def execEndpointTableWrite (f : Frame) (s : State) : Host.Outcome State Fault Refusal :=
  done s (domainRow (isBentObj 0x28) endpointTableEffect f s)

/-! ### Channel descriptors (R181-R184) -/

/-- A SEND or CONTRIBUTE at issue (R182): refused when its binding is stale or closed, with its effects complete at once; otherwise it takes its
credit, or waits for it behind an earlier one of its endpoint that waits (log entry 57). -/
def State.sendIssued (t : State) (c pos : Nat) (d : Bytes) : State :=
  let st := t.bindStatus ((t.core c).endp (chEp d))
  let behind := ((t.core c).inflight.take pos).any (fun i =>
    (decide (dOp i.desc = 0x70) || decide (dOp i.desc = 0x72)) && decide (chEp i.desc = chEp d) && decide (i.stage = .queued) && !i.paid)
  if st ≠ 0 then
    match t.chRefuse c d st true with
    | .done u => u.finish c pos
    | _ => t
  else if behind then t
  else
    match t.chPay c (chEp d) with
    | none => t
    | some u => u.modIssued c pos (fun i => { i with paid := true })

/-- Issue a channel descriptor, judged at issue (R182). -/
def State.chIssue (s : State) (c op : Nat) : State :=
  s.issue c op
    (fun s c d => { invalid := chInvalid d, xs := descXs d, tiles := [], fault := s.chFault c d, next := (s.core c).dptr + 64 })
    (fun t _ d =>
      let pos := (t.core c).inflight.length - 1
      if op = 0x70 ∨ op = 0x72 then t.sendIssued c pos d else t)

/-- SEND (R182). -/
def execSend (core : Nat) (s : State) : Host.Outcome State Fault Refusal := settledRow core s (s.chIssue core 0x70)

/-- RECV (R183). -/
def execRecv (core : Nat) (s : State) : Host.Outcome State Fault Refusal := settledRow core s (s.chIssue core 0x71)

/-- CONTRIBUTE (R182). -/
def execContribute (core : Nat) (s : State) : Host.Outcome State Fault Refusal := settledRow core s (s.chIssue core 0x72)

/-- PROBE (R183). -/
def execProbe (core : Nat) (s : State) : Host.Outcome State Fault Refusal := settledRow core s (s.chIssue core 0x73)

/-! ### Acceptance and notices -/

/-- Turn bits of bytes at positions: what reaches the queue differs from what was sent by these. -/
def damageBytes (bs : Bytes) (damage : List (Nat × Byte)) : Bytes :=
  damage.foldl (fun l p => modNth (fun b => b ^^^ p.2) p.1 l) bs

/-- Whether two flights are of one binding. -/
def Flight.sameBinding (a b : Flight) : Bool :=
  match a.origin, b.origin with
  | .endpoint c e _, .endpoint c' e' _ => decide (c = c') && decide (e = e')
  | .remote p, .remote p' => decide (p = p') && decide (a.queue = b.queue)
  | _, _ => false

/-- The position of the begun SEND or CONTRIBUTE of an endpoint that is first in program order. -/
def sendingAt (ep : Nat) (l : List Issued) : Option Nat :=
  l.findIdx? (fun i => (decide (dOp i.desc = 0x70) || decide (dOp i.desc = 0x72)) && decide (i.stage = .begun) && decide (chEp i.desc = ep))

/-- The SEND or CONTRIBUTE of an accepted message completes with its status (R184, R187, Table 8.8). -/
def State.sendAccepted (s : State) (c ep len : Nat) (undelivered : Bool) : State :=
  match sendingAt ep (s.core c).inflight with
  | none => s
  | some pos =>
    match (s.core c).inflight[pos]? with
    | none => s
    | some i =>
      let e := (s.core c).endp ep
      let bits := (if e.left then 0x2000 else 0) + (if undelivered then 0x1000 else 0)
      let t := s.modEndp c ep (fun e => { e with accepted := (e.accepted + 1) % 2 ^ 32, left := false })
      let t := (t.add (O.chSent (c / 64)) 1).pc c 0x10 len
      (t.chStatus c i.desc e.gen 0 0 bits 0).finish c pos

/-- The SEND or CONTRIBUTE of a refused message completes with its refusal, or faults by ON_REFUSE (R182, R192). -/
def State.sendRefused (s : State) (c ep q st gen : Nat) : State :=
  let t := if st = 0x23 then s.ungive q c ep gen else s
  match sendingAt ep (t.core c).inflight with
  | none => t
  | some pos =>
    match (t.core c).inflight[pos]? with
    | none => t
    | some i =>
      match t.chRefuse c i.desc st true with
      | .done u => u.finish c pos
      | .faults u code => u.faultIssued c pos code
      | .begun u => u
      | .waits => t

/-- The oldest message on its way of the binding that message `n` is of is written whole at its queue, damaged on the way as given:
accepted, refused, or left waiting for a slot (R177, R192, R193). -/
def State.messageAccept (s : State) (n : Nat) (damage : List (Nat × Byte)) : State :=
  match s.flights[n]? with
  | none => s
  | some g =>
    match s.flights.find? g.sameBinding with
    | none => s
    | some f0 =>
      let count := match f0.origin with
        | .endpoint c ep _ => ((s.core c).endp ep).accepted
        | .remote _ => f0.count
      let f := { f0 with count := count, payload := damageBytes f0.payload damage }
      let t := { s with flights := eraseFirst g.sameBinding s.flights }
      match t.offer f, f.origin with
      | .full, _ => s
      | .taken u und, .endpoint c ep _ => u.sendAccepted c ep f.payload.length und
      | .taken u _, .remote _ => u
      | .refused st, .endpoint c ep gen => t.sendRefused c ep f.queue st gen
      | .refused _, .remote p => (t.add (O.queueDropped (f.queue / 64) (f.queue % 64)) 1).noticeTo p f.queue

/-- MESSAGE_ACCEPT (R177). -/
def execMessageAccept (flight : Nat) (damage : List (Nat × Byte)) (s : State) : Host.Outcome State Fault Refusal :=
  settled s (s.messageAccept flight damage)

/-- A generation notice of a queue on another package (R193): bindings for another generation are stale and hold nothing; those of a
queue that closed are closed. -/
def State.generationNotice (s : State) (name gen : Nat) (closed : Bool) : State :=
  State.each (fun (t : State) (x : Nat × Nat × Endpoint) =>
    let e := x.2.2
    if e.kind ≠ 0 ∧ e.queue = name ∧ t.ownQueue name = false ∧ e.notice ≠ 0x22 then
      if e.gen ≠ gen then
        (t.modEndp x.1 x.2.1 (fun e => { e with notice := 0x22, credit := 0, reserved := 0 })).notify x.1 x.2.1
      else if closed then (t.modEndp x.1 x.2.1 (fun e => { e with notice := 0x23 })).notify x.1 x.2.1
      else t
    else t) s s.endpoints

/-- GENERATION_NOTICE (R193). -/
def execGenerationNotice (queue gen : Nat) (closed : Bool) (s : State) : Host.Outcome State Fault Refusal :=
  settled s (s.generationNotice queue gen closed)

/-! ### The channel wait timeout (R194, R195) -/

/-- The peer of a channel wait: the lowest live sender for a wait on a message, the reader for a wait on credit; none for an engine or
a remote package (R195). -/
def State.waitPeer (s : State) (e : Endpoint) : Option Nat :=
  let q := nameQueue e.queue
  if !(s.ownQueue e.queue) then none
  else if e.kind = 3 then
    let l := (s.bindingsOf q).filter (fun x => decide (x.2.2.kind ≠ 3) && decide (s.bindStatus x.2.2 = 0))
    (l.foldl (fun (b : Option (Nat × Nat)) x =>
      match b with
      | none => some (x.2.2.sender, x.1)
      | some p => if x.2.2.sender < p.1 then some (x.2.2.sender, x.1) else b) none).map Prod.snd
  else (s.readersOf q).head?

/-- Fill CH_WAIT_REPORT of a core's Bent for the lowest awaited endpoint (R195). -/
def State.waitReport (s : State) (c : Nat) (e : Endpoint) : State :=
  let b := c / 64
  let p := s.waitPeer e
  let their := match p with
    | some x => if (s.core x).state = .waiting then ((s.core x).awaited.head?).elim 0xFFFFFFFF (fun y => y.2.queue) else 0xFFFFFFFF
    | none => 0xFFFFFFFF
  s.wrAll [(O.waitCore b, c % 64), (O.waitKind b, if e.kind = 3 then 0 else 1), (O.waitQueue b, e.queue),
    (O.peerCore b, p.getD 0xFFFF), (O.peerState b, p.elim 0 (fun x => (s.core x).state.code)), (O.peerWaitQueue b, their)]

/-- Expiry of a channel flag wait: the report, then the fault at the descriptor that has not issued (R194, R195, R428). -/
def State.chWaitTimeout (s : State) (c : Nat) : State :=
  let k := s.core c
  match k.state, k.waitDue, k.awaited with
  | .waiting, some due, x :: _ =>
    if s.now ≤ due ∨ k.waitMet = true then s
    else
      let t := ((s.add (O.chWaitExpiries (c / 64)) 1).expiry 2 (s.suspect susCore c)).waitReport c x.2
      t.faultNext c 0x35 (k.mem.bytes 0#8 k.dptr 64)
  | _, _, _ => s

/-- CH_WAIT_TIMEOUT (R194). -/
def execChWaitTimeout (core : Nat) (s : State) : Host.Outcome State Fault Refusal := settledRow core s (s.chWaitTimeout core)

end Sys2Proof.Machine
end

