-- ==== Sys2Proof/Machine/Optimizer.lean ====
section
/-! DEFINITION. The Optimizer engine (R245-R251): the layout of a layer's state, one parameter's update, and the update of a layer. -/

namespace Sys2Proof.Machine

/-- Fields of a layer entry (Table 10.5): PARAMS. -/
def lePar (e : Bytes) : Nat := byteField e 0 4
/-- COMPUTE_OFF. -/
def leComp (e : Bytes) : Nat := byteField e 4 8
/-- STATE_OFF. -/
def leState (e : Bytes) : Nat := byteField e 12 8
/-- CONV. -/
def leConv (e : Bytes) : Nat := byteField e 20 2
/-- DECAY. -/
def leDecay (e : Bytes) : Bool := decide (byteField e 22 1 % 2 = 1)
/-- LR_MULT. -/
def leMult (e : Bytes) : W32 := BitVec.ofNat 32 (byteField e 24 4)
/-- The bucket of GRAD_ID (R265). -/
def leBucket (e : Bytes) : Nat := byteField e 31 1
/-- The first element of GRAD_ID within its bucket. -/
def leFirst (e : Bytes) : Nat := 32 * byteField e 28 3

/-- Offsets of the five parts of a layer's state in the optimizer window, and its end (R246). -/
def layerParts (e : Bytes) : Nat × Nat × Nat × Nat × Nat × Nat :=
  let p := lePar e
  let w := leState e
  let m := roundUp (w + 4 * p) 64
  let ms := roundUp (m + p) 64
  let v := roundUp (ms + p / 32) 64
  let vs := roundUp (v + p) 64
  (w, m, ms, v, vs, vs + p / 32)

/-- Bytes of the codes and of the scales that 32 parameters take in a compute copy (Table 4.9). -/
def computeBytes (c : Conv) : Nat × Nat :=
  let r := convertRun c (List.replicate 32 (f32 0#32)) (List.replicate 32 Rnd.rne)
  (r.1.length, r.2.1.length)

/-- Where a compute copy's codes and its scales start in the weight window, and its end: the scales of a block-scaled format follow the codes from
the next multiple of 64 bytes (R246; log entry 116, DESIGN CHOICE). -/
def computeParts (e : Bytes) (c : Conv) : Nat × Nat × Nat :=
  let n := lePar e / 32
  let codes := leComp e + n * (computeBytes c).1
  if (computeBytes c).2 = 0 then (leComp e, codes, codes) else (leComp e, roundUp codes 64, roundUp codes 64 + n * (computeBytes c).2)

/-- Bytes at an offset of a window given by its frames. -/
def State.windowBytes (s : State) (fs : List Nat) (off : Nat) : Nat → Bytes
  | 0 => []
  | n + 1 => (s.frame (fs.getD (off / pageSize) 0)).bytes.get 0#8 (off % pageSize) :: State.windowBytes s fs (off + 1) n

/-- Write bytes at an offset of a window given by its frames, for a die. -/
def State.writeWindow (s : State) (d : Nat) (fs : List Nat) (off : Nat) (bs : Bytes) : Nat → State
  | 0 => s
  | n + 1 =>
    if bs.isEmpty then s
    else
      let m := min bs.length (pageSize - off % pageSize)
      State.writeWindow (s.writeFrameBy d (fs.getD (off / pageSize) 0) (off % pageSize) (bs.take m)) d fs (off + m) (bs.drop m) n

/-- What the update of a layer uses of the optimizer record (R247). -/
structure OptRec where
  b1    : W32
  b2    : W32
  eps   : W32
  decay : Option W32
  lrs   : W32
  s     : Int
  bc1   : W32
  bc2   : W32

/-- lr of a layer as s and lrs (R247): lr × 2^s in [1, 2). -/
def splitLr (lr : W32) : Int × W32 :=
  match f32 lr with
  | .fin n m e => if m = 0 then (0, lr) else (-(topExp m e), (toF32 ((Num.fin n m e).shift (-(topExp m e)))).1)
  | _ => (0, lr)

/-- One parameter's update (R247): the new weight and moments. -/
def optStep (o : OptRec) (w g m v : W32) : W32 × W32 × W32 :=
  let one := 0x3F800000#32
  let a1 := subF one o.b1
  let a2 := subF one o.b2
  let m1 := addF (mulF o.b1 m) (mulF a1 g)
  let v1 := addF (mulF o.b2 v) (mulF a2 (mulF g g))
  let q := mulF (mulF m1 o.bc1) (fRsqrt (addF (mulF v1 o.bc2) o.eps)).1
  let q := match o.decay with
    | some l => addF q (mulF l w)
    | none => q
  let us := mulF o.lrs q
  let w1 := (toF32 ((f32 w).add (((f32 us).shift (-o.s)).neg)).1).1
  (w1, m1, v1)

/-- The moments of a block of 32: codes decoded through their scale. -/
def decodeMoments (codes : Bytes) (scale : Nat) : List W32 :=
  codes.map (fun c => (toF32 (scaled scale (Fmt.decode .k8 c.toNat))).1)

/-- What one block of 32 parameters comes to: bytes of the master weights, m codes, m scale, v codes, v scale, compute copy and its scales; and the
watch sums so far. -/
structure OptBlock where
  w  : Bytes
  m  : Bytes
  ms : Bytes
  v  : Bytes
  vs : Bytes
  c  : Bytes
  cs : Bytes
  u1 : W32
  u2 : W32

/-- The update of block `k` of a layer (R247, R248, R251). -/
def optBlock (o : OptRec) (word : Nat → Nat → Nat) (srM : Bool) (conv : Conv) (k : Nat) (ws gs ms vs : List W32) (u1 u2 : W32) : OptBlock :=
  let rows := (natsFrom 0 32).map (fun i => optStep o (ws.getD i 0#32) (gs.getD i 0#32) (ms.getD i 0#32) (vs.getD i 0#32))
  let kc : Conv := ⟨.k8, 2, 0, srM⟩
  let rnd := fun (sr : Bool) (stream : Nat) (f : Nat → Nat) =>
    (natsFrom 0 32).map (fun i => if sr then Rnd.sr (word stream (f (32 * k + i)) % 65536) else Rnd.rne)
  let mb := convertRun kc (rows.map (fun r => f32 r.2.1)) (rnd srM 0 (fun j => 2 * j))
  let vb := convertRun kc (rows.map (fun r => f32 r.2.2)) (rnd srM 0 (fun j => 2 * j + 1))
  let cb := convertRun conv (rows.map (fun r => f32 r.1)) (rnd conv.sr 1 (fun j => j))
  let ds := (rows.zip ws).map (fun p => subF p.1.1 p.2)
  { w := ofWords (rows.map (fun r => r.1)), m := mb.1, ms := mb.2.1, v := vb.1, vs := vb.2.1, c := cb.1, cs := cb.2.1,
    u1 := ds.foldl (fun a d => addF a (mulF d d)) u1, u2 := ws.foldl (fun a w => addF a (mulF w w)) u2 }

/-- A layer's update block by block, by an engine of die `d`, into the pending version's frames. `gs` are the reduced gradients. -/
def State.optBlocks (s : State) (d : Nat) (o : OptRec) (word : Nat → Nat → Nat) (srM : Bool) (conv : Conv) (e : Bytes) (cur new : Version)
    (gs : List W32) (u1 u2 : W32) (k : Nat) : Nat → State × W32 × W32
  | 0 => (s, u1, u2)
  | n + 1 =>
    let (wo, mo, mso, vo, vso, _) := layerParts e
    let ws := toWords (s.windowBytes cur.opt (wo + 128 * k) 128)
    let ms := decodeMoments (s.windowBytes cur.opt (mo + 32 * k) 32) (leNat (s.windowBytes cur.opt (mso + k) 1))
    let vs := decodeMoments (s.windowBytes cur.opt (vo + 32 * k) 32) (leNat (s.windowBytes cur.opt (vso + k) 1))
    let b := optBlock o word srM conv k ws (gs.take 32) ms vs u1 u2
    let t := s.writeWindow d new.opt (wo + 128 * k) b.w 2
    let t := t.writeWindow d new.opt (mo + 32 * k) b.m 2
    let t := t.writeWindow d new.opt (mso + k) b.ms 2
    let t := t.writeWindow d new.opt (vo + 32 * k) b.v 2
    let t := t.writeWindow d new.opt (vso + k) b.vs 2
    let (co, so, _) := computeParts e conv
    let t := t.writeWindow d new.weights (co + b.c.length * k) b.c 2
    let t := t.writeWindow d new.weights (so + b.cs.length * k) b.cs 2
    State.optBlocks t d o word srM conv e cur new (gs.drop 32) b.u1 b.u2 (k + 1) n

/-- Whether every shard that covers a layer's gradient holds delivered values (R247, R272). -/
def State.layerDelivered (s : State) (i : Nat) (e : Bytes) : Bool :=
  let b := leBucket e
  (natsFrom 0 (s.rgD 0 i)).all (fun j =>
    let (lo, n) := s.shard i b j
    decide (leFirst e + lePar e ≤ lo) || decide (lo + n ≤ leFirst e) || (s.bucket i b).shards.contains j)

/-- The blocks of a layer's gradient and of its state in the current version, with frames and pools. -/
def State.layerBlocks (s : State) (i : Nat) (e : Bytes) (cur : Version) : List (Nat × Nat × Nat) :=
  let (wo, _, _, _, _, stop) := layerParts e
  s.blockList none (s.bucketAddr i (leBucket e) (leFirst e)) (4 * lePar e)
    ++ (blocksOf wo (stop - wo)).map (fun b => (16 * s.optPage i + b, cur.opt.getD (b / 16) 0, 2))

/-- The parts of the pending version that a layer's update writes, offset and length: five in the optimizer window, two in the weight window. -/
def writtenParts (e : Bytes) (c : Conv) : List (Nat × Nat) × List (Nat × Nat) :=
  let p := lePar e
  let (w, m, ms, v, vs, _) := layerParts e
  let (co, so, _) := computeParts e c
  ([(w, 4 * p), (m, p), (ms, p / 32), (v, p), (vs, p / 32)], [(co, p / 32 * (computeBytes c).1), (so, p / 32 * (computeBytes c).2)])

/-- Whether a block lies whole within one of the parts. -/
def wholeIn (parts : List (Nat × Nat)) (b : Nat) : Bool := parts.any (fun x => decide (x.1 ≤ 4096 * b) && decide (4096 * (b + 1) ≤ x.1 + x.2))

/-- The blocks of a window that parts touch: those written whole, or those written in part. -/
def partBlocks (parts : List (Nat × Nat)) (whole : Bool) : List Nat :=
  (parts.flatMap (fun x => if x.2 = 0 then [] else blocksOf x.1 x.2)).eraseDups.filter (fun b => decide (wholeIn parts b = whole))

/-- The blocks of a pending version that the update of a layer writes only in part, with frames and pools: they are read and verified before the
new bytes are merged (Table 16.1). -/
def State.mergedBlocks (s : State) (i : Nat) (e : Bytes) (c : Conv) (new : Version) : List (Nat × Nat × Nat) :=
  let (o, w) := writtenParts e c
  (partBlocks o false).map (fun b => (16 * s.optPage i + b, new.opt.getD (b / 16) 0, 2))
    ++ (partBlocks w false).map (fun b => (16 * s.weightPage i + b, new.weights.getD (b / 16) 0, 1))

/-- A block written whole is no longer poisoned (R412): `b` is its place in a window of frames. -/
def State.blockCompleted (s : State) (fs : List Nat) (b : Nat) : State :=
  let f := fs.getD (b / 16) 0
  s.setFrame f { s.frame f with poison := (s.frame f).poison.filter (fun x => decide (x ≠ b % 16)) }

/-- The blocks that the update of a layer wrote whole get the check value of what they now hold (Table 16.1). -/
def State.layerWritten (s : State) (e : Bytes) (c : Conv) (new : Version) : State :=
  let (o, w) := writtenParts e c
  let t := State.each (fun t b => t.blockCompleted new.opt b) s (partBlocks o true)
  State.each (fun t b => t.blockCompleted new.weights b) t (partBlocks w true)

/-- The record of an update at a slot and layer (R247, R250). -/
def State.optRec (s : State) (i l : Nat) (e : Bytes) : OptRec :=
  let w := fun k => BitVec.ofNat 32 (s.rd k)
  let one := 0x3F800000#32
  let p := fun (n : Nat) => BitVec.ofNat 32 ((s.slot i).powers.get 0x3F800000 (2 * l + n))
  let lr := splitLr (mulF (BitVec.ofNat 32 (s.lrGlobal (s.rd O.stepNumber))) (leMult e))
  { b1 := w O.optBeta1, b2 := w O.optBeta2, eps := w O.optEps, decay := if leDecay e then some (w O.optWd) else none,
    lrs := lr.2, s := lr.1, bc1 := (fRcp (subF one (mulF (p 0) (w O.optBeta1)))).1, bc2 := (fRcp (subF one (mulF (p 1) (w O.optBeta2)))).1 }

/-- A layer's update is abandoned in the attempt. -/
def State.abandonLayer (s : State) (i l : Nat) : State := s.modSlot i (fun v => { v with gaveUp := v.gaveUp ++ [l] })

/-- The Optimizer engine meets UNMAPPED past a bucket's last page (R265): the active cores of its Bent fault, and the slot with them
(log entry 116, DESIGN CHOICE). -/
def State.layerUnmapped (s : State) (i l bent : Nat) : State :=
  ((s.abandonLayer i l).faultBentCores bent 0x04).stageFaultOf i sfCore 0 0

/-- The Optimizer engine updates a layer whose gradient is delivered (R245-R251): none of it when a block it reads fails for good, or lies past
the bucket on a page that is not mapped (R265). What it reads includes the blocks it writes in part (Table 16.1). -/
def State.updateLayer (s : State) (i l : Nat) : State :=
  let e := s.layerEntry i l
  match s.startPending i with
  | none => if (s.slot i).waiting then s else (s.modSlot i (fun v => { v with waiting := true })).add (O.vsWaits i) 1
  | some t =>
    let t := t.modSlot i (fun v => { v with waiting := false })
    match (t.slot i).current, (t.slot i).pending, convOf (leConv e) with
    | some cur, some new, some conv =>
      let bent := beBent (t.bucketEntry 0 i (leBucket e))
      let list := t.layerBlocks i e cur ++ t.mergedBlocks i e conv new
      let t := State.each (fun (t : State) (x : Nat × Nat × Nat) => t.engineRead (bent / 12) (16 * x.2.1 + x.1 % 16)) t list
      let (u, ok) := (t.bpc bent 0x0B list.length).verify [] list
      let at_ := u.bucketAddr i (leBucket e) (leFirst e)
      if (u.slot i).pending.isNone then u
      else if !ok then u.abandonLayer i l
      else if !(pagesOf at_ (4 * lePar e)).all u.mapped then u.layerUnmapped i l bent
      else
        let o := u.optRec i l e
        let step := u.rd O.stepNumber
        let seed := u.rd (O.rngSeed bent)
        let word := fun (k elem : Nat) => rngWord seed ((u.rd O.optStream + k) % 2 ^ 32) l step 0 elem
        let gs := toWords (u.tensorBytes none at_ (4 * lePar e))
        let (r, w1, w2) := u.optBlocks (bent / 12) o word (decide (u.rd O.optMomentRnd = 1)) conv e cur new gs 0#32 0#32 0 (lePar e / 32)
        let p := fun (n : Nat) => (mulF (BitVec.ofNat 32 ((u.slot i).powers.get 0x3F800000 (2 * l + n))) (if n = 0 then o.b1 else o.b2)).toNat
        ((r.layerWritten e conv new).modSlot i (fun v => { v with
          newPowers := (v.newPowers.set (2 ^ 32) (2 * l) (p 0)).set (2 ^ 32) (2 * l + 1) (p 1),
          layers := v.layers ++ [l],
          watch := v.watch ++ [⟨l, w1, w2⟩] })).add (O.optUpdated bent) (lePar e)
    | _, _, _ => t

end Sys2Proof.Machine
end

