-- ==== Sys2Proof/Machine/Stages.lean ====
section
/-! DEFINITION. STAGE_CONTROL (R200, R201): the checks of ARM (R216, R222, R224, R246, R305, R308), what ARM reserves and maps, RUN, STOP
and DISARM. -/

namespace Sys2Proof.Machine

/-- The slot of a stage, ring or schedule object. -/
def keySlot (k : Nat) : Nat := keyIndex k % 16

/-- Whether an object is STAGE_CONTROL. -/
def isStageControl (k : Nat) : Bool := decide (0x4000 ≤ keyIndex k) && decide (keyIndex k < 0x4010) && decide (keySub k = 2)

/-! ### The schedule program (R216) -/

/-- Entry `n` (1 to 64) of a slot's schedule program. -/
def State.sched (s : State) (i n : Nat) : Nat := s.rd (O.schedule i (n - 1))
/-- KIND of an entry: 0 END, 1 F, 2 B, 3 W, 4 LOOP. -/
def seKind (e : Nat) : Nat := field e 12 4
/-- ARG of an entry. -/
def seArg (e : Nat) : Nat := field e 0 8

/-- Whether entry `n` keeps the rules of R216. -/
def entryValid (wMode n e : Nat) : Bool :=
  decide (seKind e ≤ 4) && (decide (seKind e = 0 ∨ seKind e = 4) || decide (seArg e ≠ 0))
    && (decide (seKind e ≠ 4) || (decide (1 ≤ seArg e) && decide (seArg e < n))) && !(decide (wMode = 0) && decide (seKind e = 3))

/-- Whether a slot's schedule program is valid (R216). -/
def State.schedValid (s : State) (i : Nat) : Bool :=
  (natsFrom 1 64).any (fun n => decide (seKind (s.sched i n) = 0))
    && (natsFrom 1 64).all (fun n => entryValid (s.rd (O.wMode i)) n (s.sched i n))

/-! ### The checks of ARM -/

/-- Whether an object's value lies in the range of its row. -/
def State.inRange (s : State) (k : Nat) : Bool :=
  match rowOf k with
  | none => true
  | some r => r.type.admits (s.rd k) && r.rule.admits (s.rd k)

/-- Whether a Lane field is as Table 9.3 has it: required with a plane and an end, or 0xFF. -/
def State.laneField (s : State) (i n : Nat) (required : Bool) (plane role : Nat) : Bool :=
  if required then
    decide (n < 64) && decide (s.rd (O.lanePlane n) = plane) && decide (s.rd (O.laneRole n) = role) && decide (s.rd (O.laneStage n) = i)
      && decide (s.rd (O.laneMaxTokens n) = s.rd O.pipeMaxTokens)
  else decide (n = 0xFF)

/-- The Lane fields of a slot (Table 9.3). -/
def State.laneFields (s : State) (i : Nat) : Bool :=
  let first := decide (s.jobStageOf i = 0)
  let last := s.lastStage i
  s.laneField i (s.rd (O.inLane i)) (!first) 0 1 && s.laneField i (s.rd (O.outLane i)) (!last) 0 0
    && s.laneField i (s.rd (O.retInLane i)) (!last) 1 1 && s.laneField i (s.rd (O.retOutLane i)) (!first) 1 0

/-- The Lanes that a slot names. -/
def State.namedLanes (s : State) (i : Nat) : List Nat :=
  [s.rd (O.inLane i), s.rd (O.outLane i), s.rd (O.retInLane i), s.rd (O.retOutLane i)].filter (fun n => decide (n < 64))

/-- Bytes of storage of the queues configured in a Bent. -/
def State.bentStorage (s : State) (b : Nat) : Nat :=
  ((natsFrom (64 * b) 64).map (fun q => if (s.queue q).state = 0 then 0 else qStorage (s.qword q))).sum

/-- The stash rule of R222. -/
def State.stashOk (s : State) (i : Nat) : Bool :=
  decide (s.stashWorst i ≤ s.rd (O.stashAllotPages i)) && decide (s.rd (O.residentPages i) ≤ 512)
    && (s.slotBents i).all (fun b => decide (s.rd (O.residentPages i) * pageSize + s.bentStorage b ≤ 0x2000000))

/-- The deadline rule of R224. -/
def State.baseOk (s : State) (i : Nat) : Bool :=
  (s.slotBents i).all (fun b => decide (s.rd (O.wdLimit b) + s.rd (O.chWaitLimit b) + s.rd (O.bentTimeout b) < s.rd (O.stageTimeBase i)))

/-- Whether a layer's fields keep Table 10.5 and its parts lie in the windows of its slot (R246). -/
def State.layerOk (s : State) (i : Nat) (e : Bytes) : Bool :=
  let (_, _, _, _, _, stop) := layerParts e
  decide (lePar e % 32 = 0) && decide (leComp e % 64 = 0) && decide (leState e % 64 = 0)
    && (match convOf (leConv e) with
        | none => false
        | some c => decide ((computeParts e c).2.2 ≤ s.rd (O.weightPages i) * pageSize))
    && decide (stop ≤ s.rd (O.optPages i) * pageSize)

/-- Whether two Bents' slots do not clash: a slot's Bents are ENABLED and in no other slot (R201, check 11). -/
def State.bentsFree (s : State) (i : Nat) : Bool :=
  (s.slotBents i).all (fun b => decide (s.rd (O.bentState b) = 0) && (decide (s.bentSlot b = 0xFF) || decide (s.bentSlot b = i)))

/-- Whether a slot's ring record keeps R308. -/
def State.ringOk (s : State) (i : Nat) : Bool :=
  decide (s.rd (O.ringInRelay i) < 32) && decide (s.rd (O.ringOutRelay i) < 32)
    && decide (s.rd (O.relayRemote (s.rd (O.ringOutRelay i))) = s.rd (O.ringNext i))
    && decide (s.rd (O.relayRemote (s.rd (O.ringInRelay i))) = s.rd (O.ringPrev i))
    && decide (s.rd (O.ringFMode i) ≤ 1) && decide (s.rd (O.ringBMode i) ≤ 1)
    && decide (s.areaPages i 1 ≤ ringAreaPages) && decide (s.areaPages i 2 ≤ ringAreaPages)

/-- The checks of R305, in order: the status of the first that fails. -/
def State.jobCheck (s : State) (i : Nat) : Nat :=
  let n := s.rd O.stagesPerPackage
  let ring := decide (1 < s.rd (O.seqShare i))
  if s.rd O.jobState ≠ 1 then stState
  else if s.rd (O.jobStages i) ≠ s.rd O.pipePackages * n ∨ s.jobStageOf i ≠ s.rd O.pipeIndex * n + i then stRange
  else if s.rd (O.bentCount i) ≠ 48 / n ∨ s.rd (O.firstBent i) ≠ i * s.rd (O.bentCount i) then stRange
  else if s.rd (O.seqShare i) ≠ s.rd O.jobSeqShare ∨ s.rd O.replicas ≤ s.rd (O.replica i) then stRange
  else if ring && !s.ringOk i then stRange
  else if ring && !(decide (s.rd (O.relayState (s.rd (O.ringOutRelay i))) = 2) && decide (s.rd (O.relayState (s.rd (O.ringInRelay i))) = 2))
    then stState
  else stOk

/-- The fields of Table 9.11 that ARM checks (R201, check 1). -/
def planFields (i : Nat) : List Nat :=
  [O.jobStage i, O.jobStages i, O.firstBent i, O.bentCount i, O.seqShare i, O.seqSlice i, O.replica i, O.inFlightMax i, O.wMode i,
   O.wPendingMax i, O.microBatches i, O.residentPages i, O.stageTimeBase i, O.stageTimePerToken i]

/-- Whether an entry address is aligned and lies below the end of core memory. -/
def entryFits (a : Nat) : Bool := decide (a % 64 = 0) && decide (a < 0x80000)

/-- The checks 1 to 12 of R201, in order: the status of the first that fails. -/
def State.planCheck (s : State) (i : Nat) : Nat :=
  if !(planFields i).all s.inRange then stRange
  else if 48 < s.rd (O.firstBent i) + s.rd (O.bentCount i) then stRange
  else if s.rd (O.jobStages i) ≤ s.jobStageOf i ∨ s.rd (O.seqShare i) ≤ s.rd (O.seqSlice i) then stRange
  else if !([s.rd (O.fEntry i), s.rd (O.bEntry i), s.rd (O.wEntry i)].all entryFits) then stRange
  else if 64 < s.stashHolders i then stRange
  else if (s.rd (O.wMode i) = 0) ≠ (s.rd (O.wPendingMax i) = 0) then stRange
  else if !s.laneFields i then stRange
  else if !s.schedValid i then stRange
  else if !s.stashOk i then stRange
  else if !s.baseOk i then stRange
  else if !(s.usedLayers i).all (fun l => s.layerOk i (s.layerEntry i l)) then stRange
  else if !s.bentsFree i then stState
  else if !(s.namedLanes i).all s.laneOpen then stState
  else stOk

/-! ### What a slot holds -/

/-- Unmap every page of a slot's ring areas; their frames are free. -/
def State.unmapRings (s : State) (i : Nat) : State :=
  let t := State.each (fun (t : State) (a : Nat × Bool × Nat) =>
    State.each (fun (t : State) (p : Nat) => t.setPage p Page.none) t (natsFrom (ringPage i a.1 a.2.1 a.2.2) (t.areaPages i a.1))) s ringAreas
  (t.freeOwner (ownRing i)).wrAll [(O.ringState i, 0), (O.ringPages i, 0)]

/-- Give up everything that ARM took for a slot: micro-batches, stash, ring areas and versions (R200, R233). -/
def State.releaseSlot (s : State) (i : Nat) : State :=
  let t := ((s.discardAll i).restartSchedule i).modSlot i (fun v => { v with landed := [], sent := [], ringEarly := [] })
  let t := if t.rd (O.ringState i) = 1 then t.unmapRings i else t
  (t.freeOwner (ownStash i)).releaseVersions i

/-- Map the ring areas of a slot (R308): none when frames are short. -/
def State.mapRings (s : State) (i : Nat) : Option State :=
  if !s.hasRing i then some s
  else
    ringAreas.foldl (fun (o : Option State) a =>
      match o with
      | none => none
      | some (t : State) =>
        (t.takeFrames (t.slotHome i) 1 (ownRing i) 0 (t.areaPages i a.1)).map (fun p => p.2.mapPages (ringPage i a.1 a.2.1 a.2.2) 5 p.1))
      (some (s.wrAll [(O.ringState i, 1), (O.ringPages i, s.ringTotal i)]))

/-- Check 13 of R201: the stash allotment, the versions (R241) and the ring areas (R305); none when the allocator is short. -/
def State.takeSlot (s : State) (i : Nat) : Option State :=
  if !s.windowsMapped i then none
  else
    match s.takeFrames (s.slotHome i) 2 (ownStash i) 0 (s.rd (O.stashAllotPages i)) with
    | none => none
    | some (_, t) =>
      match t.takeFrames (t.slotHome i) 2 (ownVersions i) 0 (t.versionReserve i) with
      | none => none
      | some (_, t) => (t.mapRings i).map (fun t => t.adopt i)

/-- The slot's Bents learn their slot and role (R198). -/
def State.assignBents (s : State) (i : Nat) : State :=
  State.each (fun (t : State) (b : Nat) => t.wrAll [(O.pacerStage b, i), (O.pacerRole b, if b = t.rd (O.firstBent i) then 1 else 2)]) s (s.slotBents i)

/-- The slot's Bents belong to no slot; their resident copies go with PM_LIMIT (R236). -/
def State.dismissBents (s : State) (i : Nat) : State :=
  State.each (fun (t : State) (b : Nat) =>
    if t.bentSlot b = i then
      (t.setBent b { t.bent b with resident := [] }).wrAll [(O.pacerStage b, 0xFF), (O.pacerRole b, 0)]
    else t) s (natsFrom 0 48)

/-- ARM (R201, R305): the status and the state. -/
def State.arm (s : State) (i : Nat) : Nat × State :=
  let s := if s.rd (O.seqShare i) = 0 then s else s.wr (O.stashWorstPages i) (s.stashWorst i)
  let job := s.jobCheck i
  let plan := s.planCheck i
  if s.rd O.drainState ≠ 0 then (stState, s)
  else if job ≠ stOk then (job, s)
  else if plan ≠ stOk then (plan, s)
  else
    match (if s.stage i = 4 then s.releaseSlot i else s).takeSlot i with
    | none => (stState, s.add O.allocRefusals 1)
    | some t =>
      let t := (t.dismissBents i).assignBents i
      (stOk, (t.fillLedger i).wrAll [(O.stageState i, 1), (O.stageFault i, 0)])

/-- DISARM (R200, R208, R233). -/
def State.disarm (s : State) (i : Nat) : State :=
  let t := s.releaseSlot i
  let t := State.each (fun (t : State) (n : Nat) =>
    if t.rd (O.laneStage n) = i ∧ t.rd (O.laneState n) ≠ 0 then t.deleteLane n else t) t (natsFrom 0 64)
  let t := (t.dismissBents i).modSlot i (fun v => { v with stopDue := none, waiting := false, newPowers := Map.empty, layers := [],
                                                           watch := [], gaveUp := [] })
  t.wrAll [(O.stageState i, 0), (O.ledgerSlots i, 0), (O.ledgerPages i, 0), (O.stageFault i, 0)]

/-- A write of STAGE_CONTROL (Table 9.2). -/
def stageControlEffect (s : State) (_f : Frame) (k v : Nat) : Served :=
  let i := keySlot k
  let st := s.stage i
  if v = 1 then
    (if st = 0 ∨ st = 4 then
      let r := s.arm i
      .done r.2 r.1 []
     else .done s stState [])
  else if v = 2 then
    (if st = 1 ∧ ((s.slotCores i).all (fun c => decide ((s.core c).state = .idle) || decide ((s.core c).state = .halted))) = true then
      .done (s.wr (O.stageState i) 2) stOk []
     else .done s stState [])
  else if v = 3 then (if st = 2 ∨ st = 5 then .done ((s.stopSlot i).settleDrain) stOk [] else .done s stState [])
  else if v = 4 then (if st = 1 ∨ st = 4 then .done (s.disarm i).settleDrain stOk [] else .done s stState [])
  else .done s stRange []

/-- ARM (R201). -/
def execArm (f : Frame) (s : State) : Host.Outcome State Fault Refusal :=
  done s (writeRow (fun k v => isStageControl k && decide (v = 1)) stageControlEffect f s)

/-- RUN (R200). -/
def execRun (f : Frame) (s : State) : Host.Outcome State Fault Refusal :=
  done s (writeRow (fun k v => isStageControl k && decide (v = 2)) stageControlEffect f s)

/-- STAGE_STOP (R200). -/
def execStageStop (f : Frame) (s : State) : Host.Outcome State Fault Refusal :=
  done s (writeRow (fun k v => isStageControl k && decide (v = 3)) stageControlEffect f s)

/-- DISARM (R200). -/
def execDisarm (f : Frame) (s : State) : Host.Outcome State Fault Refusal :=
  done s (writeRow (fun k v => isStageControl k && decide (v = 4)) stageControlEffect f s)

end Sys2Proof.Machine
end

