-- ==== Sys2Proof/Machine/Batons.lean ====
section
/-! DEFINITION. A Baton at its reader (R206, R211-R213, R227, R243, R295): the step that it opens, its checks, the reservation that its acceptance
takes, and Batons whose step may not open yet. -/

namespace Sys2Proof.Machine

/-! ### The step -/

/-- Open the step of a micro-batch at the package, when it may open (Table 10.6): the first admission or acceptance of a step makes it
OPEN. None when the step is not the one that may be worked on now. -/
def State.openFor (s : State) (step : Nat) : Option State :=
  let n := s.rd O.stepNumber
  let st := s.rd O.stepState
  if st = 0 ∧ step = n then some (if s.commit.opened then s else s.openAttempt n (s.rd O.stepAttempt) true)
  else if st = 4 ∧ step = (n + 1) % 2 ^ 32 then some (s.openAttempt step 0 true)
  else if st = 5 ∧ step = n ∧ s.rd O.lastDecision % 16 = acDrop then some (s.openAttempt step 0 true)
  else none

/-- Open the step of a micro-batch, with the decisions that wait for it: whether it is open for the micro-batch then. -/
def State.enterStep (s : State) (step : Nat) : Bool × State :=
  match s.openFor step with
  | none => (false, s)
  | some t =>
    let u := t.takeDecisions t.commit.early.length
    match u.openFor step with
    | none => (false, u)
    | some v => (true, v)

/-- A slot that has done its step begins the schedule anew for the next (R216). -/
def State.renewSlot (s : State) (i : Nat) : State := if (s.slot i).stepDone then s.restartSchedule i else s

/-- A micro-batch of a step begins at a slot: STAGE_STEP, and the position of micro-batch 0 (Table 9.11). -/
def State.noteMicro (s : State) (i : Nat) (baton : Bytes) : State :=
  let t := s.wr (O.stageStep i) (batonStep baton)
  if batonId baton = 0 then
    t.wrAll [(O.stepFirstPosition i, byteField baton 32 5), (O.stepFirstEpoch i, byteField baton 40 4)]
  else t

/-! ### A Baton at its reader -/

/-- The stage fault BATON_CHECK of a Baton (R213, R243, R295): KIND is the work that a Baton of the Lane's plane is for. -/
def State.batonFault (s : State) (i n : Nat) (b : Bytes) : State := s.stageFaultOf i sfBaton (if s.laneReturn n then 2 else 1) (batonId b)

/-- Whether a Baton's FORMAT and CHECK are right and it belongs to the plane of its Lane (R213). -/
def State.batonOk (s : State) (n : Nat) (b : Bytes) : Bool :=
  decide (b.length = 64) && decide (byteField b 0 1 = 1) && decide (byteField b 60 4 = (crc32c (b.take 60)).toNat)
    && decide (byteField b 1 1 = (if s.laneReturn n then 1 else 0))

/-- Reserve room on a slot's return output Lane for a micro-batch (R211): none when slots or pages are short. What the reader's end still holds is
read there, or counted as away. -/
def State.reserve (s : State) (i tokens : Nat) : Option State :=
  let n := s.rd (O.retOutLane i)
  if n = 0xFF then some s
  else
    let p := s.pagesFor i tokens (s.rd O.retTokenBytes)
    let e := s.lane n
    let peer := if s.laneLocal n then s.lane (s.rd (O.lanePeerLane n)) else LaneEnd.unused
    if s.rd (O.laneDepth n) < e.credit + e.away + peer.held.length + 1
        ∨ s.rd (O.lanePages n) < e.pages + e.awayPages + peer.pagesHeld + p then none
    else some (s.modLane n (fun e => { e with credit := e.credit + 1, pages := e.pages + p }))

/-- Accept an F Baton whose pages have landed (R211, R243). -/
def State.acceptF (s : State) (i page : Nat) (b : Bytes) : State :=
  let t := s.renewSlot i
  let m : Micro := { id := batonId b, baton := b, f := 0, b := 0, w := 0, fSent := false, bSent := false, fInput := page, bInput := 0 }
  let t := ((t.modSlot i (fun v => { v with mbs := v.mbs ++ [m] })).noteMicro i b).pin i (batonVersion b)
  match t.reserve i (batonTokens b) with
  | some u => u
  | none => t.stageFaultOf i sfReserve 1 (batonId b)

/-- A micro-batch that has landed is discarded, and counted. -/
def State.discardParcel (s : State) (n : Nat) (p : Parcel) : State :=
  ((s.modLane n (fun e => { e with held := e.held.filter (fun q => decide (q ≠ p)) })).freeParcels n [p]).dropBaton n p

/-- Accept an F Baton whose step is open and whose pages have landed, or discard it (R213, R243, R295). -/
def State.acceptLanded (s : State) (n : Nat) (p : Parcel) (b : Bytes) : State :=
  let i := s.rd (O.laneStage n)
  let s := s.renewSlot i
  if ((s.slot i).version? (batonVersion b)).isNone ∨ byteField b 10 2 ≠ s.rd O.layoutEpoch then (s.discardParcel n p).batonFault i n b
  else if ((s.slot i).micro? (batonId b)).isSome then s.discardParcel n p
  else s.acceptF i p.page b

/-- Whether a step that may not open now may open here later: a step to come, or the one that an ABORT holds. -/
def State.stepAhead (s : State) (step : Nat) : Bool :=
  let ahead := (step + 2 ^ 32 - s.rd O.stepNumber) % 2 ^ 32
  if ahead = 0 then decide (s.rd O.stepState = 5) else decide (ahead < 2 ^ 31)

/-- Take an F Baton and its pages (R212, R213, R243, R295). One whose step may not open yet waits on its pages. -/
def State.takeForward (s : State) (n gen : Nat) (pages : List (Map Byte)) (b : Bytes) : State :=
  let i := s.rd (O.laneStage n)
  let gone : Parcel := ⟨batonId b, 0, pages.length, gen⟩
  if ((s.slot i).version? (batonVersion b)).isNone ∨ byteField b 10 2 ≠ s.epochAt (batonStep b) then (s.dropBaton n gone).batonFault i n b
  else
    match s.enterStep (batonStep b) with
    | (ok, t) =>
      if !ok && !t.stepAhead (batonStep b) then t.dropBaton n gone
      else
        match t.landParcel n (batonId b) gen pages with
        | none => t.dropBaton n gone
        | some u =>
          let p := ((u.lane n).held.getLast?).getD gone
          if ok then u.acceptLanded n p b else u.modLane n (fun e => { e with early := e.early ++ [(p, b)] })

/-- Take a B Baton and its pages (R212, R213, R295): it belongs to a micro-batch whose F has run here. -/
def State.takeReturn (s : State) (n gen : Nat) (pages : List (Map Byte)) (b : Bytes) : State :=
  let i := s.rd (O.laneStage n)
  let gone : Parcel := ⟨batonId b, 0, pages.length, gen⟩
  if byteField b 10 2 ≠ s.rd O.layoutEpoch then (s.dropBaton n gone).batonFault i n b
  else if ((s.slot i).micro? (batonId b)).all (fun m => decide (m.b ≠ 0)) then s.dropBaton n gone
  else
    match s.landParcel n (batonId b) gen pages with
    | none => s.dropBaton n gone
    | some t =>
      let page := ((t.lane n).held.getLast?).elim 0 Parcel.page
      t.modMicro i (batonId b) (fun m => { m with b := 1, bInput := page })

/-- Take a Baton and its pages at a reader's end (R213). -/
def State.takeBaton (s : State) (n gen : Nat) (pages : List (Map Byte)) (b : Bytes) : State :=
  if !s.batonOk n b then (s.dropBaton n ⟨batonId b, 0, pages.length, gen⟩).batonFault (s.rd (O.laneStage n)) n b
  else if s.laneReturn n then s.takeReturn n gen pages b
  else s.takeForward n gen pages b

/-- The Batons that wait at a Lane end are accepted in order once their step may open. -/
def State.takeWaiting (s : State) (n : Nat) : Nat → State
  | 0 => s
  | k + 1 =>
    match (s.lane n).early with
    | [] => s
    | (p, b) :: r =>
      match s.enterStep (batonStep b) with
      | (ok, t) =>
        let u := t.modLane n (fun e => { e with early := r })
        if ok then State.takeWaiting (u.acceptLanded n p b) n k
        else if t.stepAhead (batonStep b) then t
        else State.takeWaiting (u.discardParcel n p) n k

end Sys2Proof.Machine
end

