-- ==== Sys2Proof/Machine/RingBlocks.lean ====
section
/-! DEFINITION. A sequence-ring block at its receiver (R309, R313, R314): which attempt and work item it belongs to, where it lands, and its
forwarding. -/

namespace Sys2Proof.Machine

/-- Write a landed ring block into its area. -/
def State.landRing (s : State) (i : Nat) (key : RingKey) (bytes : Map Byte) : State :=
  let a := 4096 * s.ringBlockAt i false key
  let t := s.writeTensor none a (bytes.bytes 0#8 0 4096) 1
  (t.modSlot i (fun v => { v with landed := v.landed ++ [key] })).add (O.ringBytesReceived i) 4096

/-- In FORWARD mode a landed block of hop h, for h up to S - 2, is outgoing hop h and is sent at once (R309). -/
def State.forwardRing (s : State) (i mb : Nat) (key : RingKey) : State :=
  if s.ringForwards i key.kind ∧ key.hop + 2 ≤ s.ringSlices i then
    (s.writeTensor none (4096 * s.ringBlockAt i true key) (s.blockBytes (s.ringBlockAt i false key)) 1).putRing i mb key
  else s

/-- Whether a step and attempt are those that the package will open next: the first of the step that it has not opened, the first of the step to
come, or the attempt after the current one. -/
def State.attemptAhead (s : State) (step attempt : Nat) : Bool :=
  let n := s.rd O.stepNumber
  let a := s.rd O.stepAttempt
  if s.commit.opened then
    (decide (step = (n + 1) % 2 ^ 32) && decide (attempt = 0)) || (decide (step = n) && decide (s.rd O.stepState ≠ 4) && decide (attempt = (a + 1) % 256))
  else decide (step = n) && decide (attempt = a)

/-- Whether a ring block belongs to no attempt that is open or to come: an attempt that lies before the current one, or that has ended. -/
def State.ringStale (s : State) (b : RingBlock) : Bool :=
  older b.step b.attempt (s.rd O.stepNumber) (s.rd O.stepAttempt)
    || (s.commit.opened && !s.undecided && decide (b.step = s.rd O.stepNumber) && decide (b.attempt = s.rd O.stepAttempt))

/-- Whether a slot expects a block for a micro-batch: that of the work item of its kind in run, with the blocks that the item expects, or the next
one of its kind (R309, R311). -/
def State.ringExpects (s : State) (i kind mb block : Nat) : Bool :=
  let v := s.slot i
  let running := v.item.any (fun it => decide (it.kind = kind) && decide (it.mb = mb))
  let next := if v.stepDone then 0 else if kind = 1 then v.fOut else v.bOut
  decide (block < (match (if v.stepDone then none else v.micro? mb) with
    | some m => s.expectedBlocks i kind m
    | none => 16 * s.hopPages i kind))
    && (running || (decide (mb = next) && decide (mb < s.rd (O.microBatches i))))

/-- Whether a block of the open attempt keeps R313: job stage, kind, hop, micro-batch and block index, and it has not landed yet. -/
def State.ringFits (s : State) (i : Nat) (b : RingBlock) : Bool :=
  decide (b.jobStage = s.jobStageOf i) && decide (b.kind = 1 ∨ b.kind = 2) && decide (1 ≤ b.hop) && decide (b.hop < s.ringSlices i)
    && s.ringExpects i b.kind b.mb b.block && !(s.slot i).landed.contains ⟨b.kind, b.mb % 2, b.hop, b.block⟩

/-- A block of the open attempt lands, or is the stage fault BATON_CHECK (R313). -/
def State.takeRing (s : State) (i : Nat) (b : RingBlock) : State :=
  let key : RingKey := ⟨b.kind, b.mb % 2, b.hop, b.block⟩
  if !s.ringFits i b then s.stageFaultOf i sfBaton (if b.kind = 2 then 2 else 1) b.mb else (s.landRing i key b.bytes).forwardRing i b.mb key

/-- A ring block (R313): discarded and counted where its Relay link is not UP or its attempt is over; one whose check fails never lands (Table 16.3);
one of the attempt to come waits for it (log entry 76, DEDUCED). -/
def State.ringBlock (s : State) (i : Nat) (b : RingBlock) : State :=
  if s.stage i = 0 ∨ s.hasRing i = false then s
  else if s.rd (O.relayState (s.rd (O.ringInRelay i))) ≠ 2 then s.add (O.ringDiscarded i) 1
  else
    let t := s.relayGot (s.rd (O.ringInRelay i)) 4096
    if t.ringStale b then t.add (O.ringDiscarded i) 1
    else if !b.checkOk then
      t.landedFails (4096 * t.ringBlockAt i false ⟨b.kind, b.mb % 2, b.hop, b.block⟩) (t.suspect susPort (t.arrivalPort (t.rd (O.ringPrev i))))
    else if t.attemptOpen && decide (b.step = t.rd O.stepNumber) && decide (b.attempt = t.rd O.stepAttempt) then t.takeRing i b
    else if t.attemptAhead b.step b.attempt then t.modSlot i (fun v => { v with ringEarly := v.ringEarly ++ [b] })
    else t.stageFaultOf i sfBaton (if b.kind = 2 then 2 else 1) b.mb

/-- The blocks that waited for the attempt that is open now land; those of an attempt that is over are discarded and counted. -/
def State.takeRingEarly (s : State) (i : Nat) : State :=
  let mine := fun (b : RingBlock) => decide (b.step = s.rd O.stepNumber) && decide (b.attempt = s.rd O.stepAttempt)
  let all := (s.slot i).ringEarly
  let t := s.modSlot i (fun v => { v with ringEarly := if s.attemptOpen then all.filter (fun b => !mine b && !s.ringStale b) else all })
  if s.attemptOpen then
    State.each (fun (t : State) (b : RingBlock) => if mine b then t.takeRing i b else t.add (O.ringDiscarded i) 1) t
      (all.filter (fun b => mine b || s.ringStale b))
  else s

end Sys2Proof.Machine
end

