-- ==== Sys2Proof/Machine/Pacing.lean ====
section
/-! DEFINITION. The Pacer at work (R202, R203, R214-R226, R237): admission, the schedule walk, dispatch with the page mover's lookahead,
completion and the stage deadline. -/

namespace Sys2Proof.Machine

/-! ### Admission (R214, R215) -/

/-- The step that an admission would be for, when one may take place (Table 9.6, step 4). -/
def State.admitStep (s : State) : Option Nat :=
  let n := s.rd O.stepNumber
  let st := s.rd O.stepState
  if st = 0 then some n
  else if st = 4 then some ((n + 1) % 2 ^ 32)
  else if st = 5 ∧ s.rd O.lastDecision % 16 = acDrop then some n
  else none

/-- The longest micro-batch that a slot admits (Table 9.6, step 2). -/
def State.longest (s : State) (i : Nat) : Nat :=
  if s.rd (O.outLane i) = 0xFF then s.rd O.pipeMaxTokens else s.rd (O.laneMaxTokens (s.rd (O.outLane i)))

/-- The refusal code of a candidate: 0 none, 1 TOO_LONG, 2 EMPTY. -/
def State.refusalOf (s : State) (i tokens : Nat) : Nat := if tokens < 1 then 2 else if s.longest i < tokens then 1 else 0

/-- Refuse the head candidate (R214, R347). -/
def State.refuse (s : State) (i : Nat) (c : Candidate) (code : Nat) : State :=
  let t := { s with data := { s.data with offers := s.data.offers.drop 1 } }
  let t := (t.releaseCandidate c).add (O.admitRefused i) 1
  let t := t.wr (O.lastRefusal i) (c.tokens * 2 ^ 32 + code * 2 ^ 24)
  (State.each (fun (t : State) (m : Nat × Nat) => t.logDrop m.1 m.2 8) t c.members).add O.refusedSamples c.members.length

/-- Refuse candidates at the head until one stands that is not refused. -/
def State.refuseHeads (s : State) (i : Nat) : Nat → State
  | 0 => s
  | n + 1 =>
    match s.data.offers with
    | [] => s
    | c :: _ => if s.refusalOf i c.tokens = 0 then s else State.refuseHeads (s.refuse i c (s.refusalOf i c.tokens)) i n

/-- The head candidate of a slot, whether it is a replay, and its id: the held inputs of a replay come first (R227, R347). -/
def State.headCandidate (s : State) (i : Nat) : Option (Candidate × Bool) :=
  match (s.slot i).replays with
  | h :: _ => some (h.cand, true)
  | [] => if s.sinkFor i then (s.data.offers.head?).map (fun c => (c, false)) else none

/-- F outputs of a slot that are complete and not sent. -/
def Slot.unsentF (v : Slot) : Nat := (v.mbs.filter (fun m => decide (m.f = 2) && !m.fSent)).length
/-- B outputs of a slot that are complete and not sent. -/
def Slot.unsentB (v : Slot) : Nat := (v.mbs.filter (fun m => decide (m.b = 3) && !m.bSent)).length

/-- Whether the in-flight count and the unsent outputs of a slot let an F run (R218). -/
def State.roomForF (s : State) (i : Nat) : Bool :=
  decide ((s.slot i).inFlight < s.rd (O.inFlightMax i)) && decide ((s.slot i).unsentF < 2)

/-- The admission decision of Table 9.6 on the head candidate: none for a wait. -/
def State.admits (s : State) (i : Nat) : Option (Candidate × Bool × Nat) :=
  match s.headCandidate i, s.admitStep with
  | some (c, again), some step =>
    if s.rd O.drainState = 0 ∧ (s.slot i).admitted < s.rd (O.microBatches i) ∧ s.roomForF i = true ∧ 1 ≤ s.rd (O.ledgerSlots i)
        ∧ s.pagesFor i c.tokens (s.rd O.retTokenBytes) ≤ s.rd (O.ledgerPages i) then some (c, again, step)
    else none
  | _, _ => none

/-- The Baton of an admitted candidate (Table 9.5). -/
def State.admitBaton (s : State) (i id step : Nat) (c : Candidate) (again : Bool) : Bytes :=
  batonBytes 0 id step (s.slot i).currentNumber again.toNat (s.rd O.layoutEpoch) c.tokens (s.jobStageOf i) (s.rd (O.replica i))
    (s.rd (O.seqSlice i)) (s.outPages i c.tokens) c.samples c.position c.epoch

/-- Admit the head candidate (Table 9.6, step 7): whether it does not wait. -/
def State.admitNext (s : State) (i : Nat) : Bool × State :=
  match s.admits i with
  | none => (false, s)
  | some (c, again, step) =>
    match s.enterStep step with
    | (false, t) => (false, t)
    | (true, t) =>
      let t := t.renewSlot i
      let id := (t.slot i).admitted
      let b := t.admitBaton i id step c again
      let m : Micro := { id := id, baton := b, f := 0, b := 0, w := 0, fSent := false, bSent := false, fInput := c.page, bInput := 0 }
      let t := t.modSlot i (fun v =>
        { v with admitted := v.admitted + 1, mbs := v.mbs ++ [m],
                 replays := if again then v.replays.drop 1 else v.replays,
                 held := if again then v.held else v.held ++ [⟨id, step, c⟩] })
      let t := if again then t else { t with data := { t.data with offers := t.data.offers.drop 1 } }
      let t := t.wrAll [(O.ledgerSlots i, t.rd (O.ledgerSlots i) - 1),
                        (O.ledgerPages i, t.rd (O.ledgerPages i) - t.pagesFor i c.tokens (t.rd O.retTokenBytes))]
      (true, ((t.noteMicro i b).pin i (t.slot i).currentNumber).add (O.admitted i) 1)

/-! ### The schedule walk (R219) -/

/-- What the walk knows of a slot: its program, the F and B items not yet dispatched, the pending Ws, whether the next F and B are
ready. -/
structure Walk where
  prog   : Nat → Nat
  fLeft  : Nat
  bLeft  : Nat
  pendW  : Nat
  readyF : Bool
  readyB : Bool

/-- What the walk decides: run a kind (in a bubble or not), with the new pointer and count; starve; or the step is done. -/
inductive Decision where
  | run (kind : Nat) (bubble : Bool) (ptr cnt : Nat)
  | starve (ptr cnt : Nat)
  | stepDone (ptr cnt : Nat)
deriving DecidableEq, Repr

/-- Items of a kind that are left. -/
def Walk.left (w : Walk) (kind : Nat) : Nat := if kind = 1 then w.fLeft else if kind = 2 then w.bLeft else w.pendW
/-- Whether the next item of a kind is ready. -/
def Walk.ready (w : Walk) (kind : Nat) : Bool := if kind = 1 then w.readyF else if kind = 2 then w.readyB else decide (0 < w.pendW)

/-- Where nothing is ready: a W in the bubble, or a wait. -/
def Walk.bubble (w : Walk) (ptr cnt : Nat) : Decision := if 0 < w.pendW then .run 3 true ptr cnt else .starve ptr cnt

/-- The decision of R219 from an entry on; `n` bounds the entries it passes: a program that only loops waits. -/
def Walk.decide (w : Walk) (ptr cnt : Nat) : Nat → Decision
  | 0 => .starve ptr cnt
  | n + 1 =>
    let e := w.prog ptr
    let k := seKind e
    if k = 4 then Walk.decide w (if 0 < w.fLeft then seArg e else ptr + 1) cnt n
    else if k = 0 then
      (if 0 < w.bLeft then (if w.readyB then .run 2 false ptr cnt else w.bubble ptr cnt)
       else if 0 < w.pendW then .run 3 false ptr cnt
       else .stepDone ptr cnt)
    else if w.left k = 0 then Walk.decide w (ptr + 1) 0 n
    else if w.ready k then (if cnt + 1 = seArg e then .run k false (ptr + 1) 0 else .run k false ptr (cnt + 1))
    else w.bubble ptr cnt

/-- Whether the next B of a slot is ready (R218). -/
def State.readyB (s : State) (i : Nat) : Bool :=
  let v := s.slot i
  match v.micro? v.bOut with
  | none => false
  | some m => (if s.lastStage i then decide (m.f = 2) else decide (m.b = 1)) && decide (m.b ≤ 1) && decide (v.unsentB < 2)

/-- Whether the next F of a slot that takes in nothing is ready (R218). -/
def State.acceptedF (s : State) (i : Nat) : Bool := ((s.slot i).micro? (s.slot i).fOut).isSome && s.roomForF i

/-- What the walk knows of a slot; whether its next F counts as ready is given. -/
def State.walkOf (s : State) (i : Nat) (readyF : Bool) : Walk :=
  { prog := s.sched i, fLeft := s.rd (O.microBatches i) - (s.slot i).fOut, bLeft := s.rd (O.microBatches i) - (s.slot i).bOut,
    pendW := (s.slot i).pendingW.length, readyF := readyF, readyB := s.readyB i }

/-- Entries that a walk may pass. -/
def walkFuel : Nat := 192

/-! ### Lookahead (R237) -/

/-- The item that the program would choose next, supposing that every F and B that is waiting became ready. -/
def State.nextItem (s : State) (i : Nat) : Option (Nat × Nat) :=
  let v := s.slot i
  let w := { s.walkOf i true with readyB := true }
  let oldW := (v.pendingW.head?).map (fun m => (3, m.id))
  if s.rd (O.wMode i) = 1 ∧ v.pendingW.length = s.rd (O.wPendingMax i) then oldW
  else
    match w.decide v.ptr v.cnt walkFuel with
    | .run 1 _ _ _ => some (1, v.fOut)
    | .run 2 _ _ _ => some (2, v.bOut)
    | .run _ _ _ _ => oldW
    | _ => none

/-- The tensor page of a Baton's input, output staging and stash of an item (Table 9.4): 0 for none. -/
def State.itemPages (s : State) (i kind : Nat) (m : Micro) : Nat × Nat × Nat :=
  let t := batonTokens m.baton
  let x5 := if kind = 1 then m.fInput else if kind = 2 then m.bInput else 0
  let x6 := if kind = 1 ∧ 0 < s.outPages i t then s.outAt i m.id else if kind = 2 ∧ 0 < s.backPages i t then s.backAt i m.id else 0
  (x5, x6, s.stashAt i m.id)

/-- The pages of one prefetch range (Table 10.3) of an item, and the version its weight window resolves at. -/
def State.rangePages (s : State) (i kind mb : Nat) (r : Bytes) : List Nat :=
  let ref_ := byteField r 0 1
  let n := byteField r 8 2
  let at_ := byteField r 10 4
  if ref_ = 1 then natsFrom at_ n
  else if ref_ = 0x10 then natsFrom (s.weightPage i + at_) n
  else
    match (s.slot i).micro? mb with
    | none => []
    | some m =>
      let (x5, x6, x7) := s.itemPages i kind m
      let base := if ref_ = 5 then x5 else if ref_ = 6 then x6 else if ref_ = 7 then x7 else 0
      if base = 0 then [] else natsFrom (base + at_) n

/-- The pages of an item's prefetch list with their frames, in list order (R237). -/
def State.prefetchPages (s : State) (i kind mb : Nat) : List (Nat × Nat) :=
  let list := (s.dom (O.pmPrefetch i)).bytes 0#8 (128 * (kind - 1)) 128
  let v := ((s.slot i).micro? mb).elim (s.slot i).currentNumber (fun m => batonVersion m.baton)
  ((natsFrom 0 8).flatMap (fun k => s.rangePages i kind mb ((list.drop (16 * k)).take 16))).filterMap (fun p =>
    (s.resolve (some (i, v)) p).map (fun f => (p, f)))

/-- Fetch pages into a Bent until one finds no room (R238): each is verified as it is read, and a page whose block fails its check is not made
resident (R408, Table 16.3). -/
def State.fetchAll (s : State) (b : Nat) (keep : List Nat) : List (Nat × Nat) → State
  | [] => s
  | p :: r =>
    if s.isResident b p.2 then State.fetchAll s b keep r
    else
      match s.fetchPage b p.2 keep with
      | none => s
      | some _ =>
        let (t, ok) := s.verify [] ((natsFrom (16 * p.1) 16).map (fun k => (k, p.2, (s.page p.1).pool)))
        State.fetchAll (if ok then (t.fetchPage b p.2 keep).getD t else t) b keep r

/-- The page mover of every Bent of a slot fetches for the lookahead item; the running item's pages stay (R237, R238). -/
def State.lookAhead (s : State) (i : Nat) : State :=
  match s.nextItem i with
  | none => s
  | some (kind, mb) =>
    let run := (s.slot i).item.elim [] (fun it => s.prefetchPages i it.kind it.mb)
    State.each (fun (t : State) (b : Nat) =>
      let list := (s.prefetchPages i kind mb).take (t.pmLimit b)
      t.fetchAll b ((run ++ list).map Prod.snd) list) s (s.slotBents i)

/-! ### Dispatch (R202) -/

/-- The X registers of a work item (Table 9.4). -/
def State.workRegs (s : State) (i kind : Nat) (m : Micro) (x : Map W64) : Map W64 :=
  let b := m.baton
  let t := batonTokens b
  let (x5, x6, x7) := s.itemPages i kind m
  [(2, byteField b 10 2 * 2 ^ 48 + kind * 2 ^ 40 + batonVersion b * 2 ^ 32 + batonStep b), (3, byteField b 9 1 % 2 * 4096 + m.id),
   (4, s.sliceTokens i t * 2 ^ 32 + t), (5, x5 * pageSize), (6, x6 * pageSize), (7, x7 * pageSize),
   (8, s.rd (O.replica i) * 65536 + s.rd (O.seqSlice i))].foldl (fun (x : Map W64) p => x.set 0#64 p.1 (BitVec.ofNat 64 p.2)) x

/-- The entry of a kind of work. -/
def State.entryOf (s : State) (i kind : Nat) : Nat :=
  if kind = 1 then s.rd (O.fEntry i) else if kind = 2 then s.rd (O.bEntry i) else s.rd (O.wEntry i)

/-- Map the pages that a work item takes when it is dispatched (R221). -/
def State.takeItemPages (s : State) (i kind : Nat) (m : Micro) : State :=
  let t := batonTokens m.baton
  if kind = 1 then
    (s.mapAllotted i (s.stashAt i m.id) (s.stashPages i t) 3).mapAllotted i (s.outAt i m.id) (s.outPages i t) 5
  else if kind = 2 then s.mapAllotted i (s.backAt i m.id) (s.backPages i t) 5
  else s

/-- Run a work item of a micro-batch: the dispatch of R202. -/
def State.dispatch (s : State) (i kind id : Nat) : State :=
  match (s.slot i).micro? id with
  | none => s
  | some m =>
    let t := s.takeItemPages i kind m
    let t := State.each (fun (t : State) (c : Nat) =>
      (t.startCore c (t.entryOf i kind) false).modCore c (fun k => { k with x := t.workRegs i kind m k.x })) t (s.slotCores i)
    let t := t.modMicro i id (fun m => if kind = 1 then { m with f := 1 } else if kind = 2 then { m with b := 2 } else { m with w := 2 })
    let t := t.modSlot i (fun v =>
      { v with item := some ⟨kind, id, s.now + s.deadlineOf i (batonTokens m.baton)⟩, starve := none,
               fOut := if kind = 1 then v.fOut + 1 else v.fOut, bOut := if kind = 2 then v.bOut + 1 else v.bOut })
    (t.bpc (s.rd (O.firstBent i)) 0x0C 1).lookAhead i

/-- Move the schedule pointer of a slot. -/
def State.setPointer (s : State) (i ptr cnt : Nat) : State := s.modSlot i (fun v => { v with ptr := ptr, cnt := cnt })

/-- Run the oldest pending W. -/
def State.runOldestW (s : State) (i : Nat) : State :=
  match (s.slot i).pendingW with
  | [] => s
  | m :: _ => s.dispatch i 3 m.id

/-- Starve (R219): the wait counts from the first dispatch of the step on. -/
def State.starves (s : State) (i : Nat) : State :=
  (s.modSlot i (fun v => { v with starve := if 0 < v.fOut then some (v.starve.getD s.now) else none })).lookAhead i

/-- Carry out a decision in which no F is admitted. -/
def State.carryOut (s : State) (i : Nat) : Decision → State
  | .run 1 _ p n => (s.setPointer i p n).dispatch i 1 (s.slot i).fOut
  | .run 2 _ p n => (s.setPointer i p n).dispatch i 2 (s.slot i).bOut
  | .run _ bubble p n =>
    let t := s.setPointer i p n
    (if bubble then t.add (O.wInBubble i) 1 else t).runOldestW i
  | .starve p n => (s.setPointer i p n).starves i
  | .stepDone p n => (s.setPointer i p n).modSlot i (fun v => { v with stepDone := true, starve := none })

/-- The decision of the lead Pacer where W does not come first (R214, R219). At JOB_STAGE 0 a program that reaches an F slot decides on
the head candidate. -/
def State.decideNext (s : State) (i : Nat) : State :=
  let go := fun (t : State) (ready : Bool) => (t.walkOf i ready).decide (t.slot i).ptr (t.slot i).cnt walkFuel
  if s.jobStageOf i ≠ 0 then s.carryOut i (go s (s.acceptedF i))
  else
    match go s true with
    | .run 1 _ p n =>
      let t := if (s.slot i).replays.isEmpty ∧ s.sinkFor i = true then s.refuseHeads i (s.data.offers.length + 1) else s
      match t.admitNext i with
      | (true, u) => (u.setPointer i p n).dispatch i 1 ((u.slot i).fOut)
      | (false, u) => u.carryOut i (go u false)
    | d => s.carryOut i d

/-- The Batons that wait on a slot's input Lane are accepted. -/
def State.acceptEarly (s : State) (i : Nat) : State :=
  let n := s.rd (O.inLane i)
  if 64 ≤ n then s else s.takeWaiting n (s.lane n).early.length

/-- PACER_DECIDE (R219): whenever the slot is free and the step has work left for it. A slot that has done its step begins the next at
JOB_STAGE 0 once the step may open. -/
def State.pacerDecide (s : State) (i : Nat) : State :=
  let s := if s.stage i = 2 then (s.acceptEarly i).takeRingEarly i else s
  let v := s.slot i
  if s.stage i ≠ 2 ∨ v.item.isSome = true then s
  else if v.stepDone then
    (if s.jobStageOf i = 0 ∧ s.rd O.stepState = 4 then (s.restartSchedule i).decideNext i else s)
  else if s.rd (O.wMode i) = 0 ∧ v.pendingW ≠ [] then s.runOldestW i
  else if s.rd (O.wMode i) = 1 ∧ v.pendingW.length = s.rd (O.wPendingMax i) then (s.add (O.wForced i) 1).runOldestW i
  else s.decideNext i

/-- PACER_DECIDE (R219). -/
def execPacerDecide (slot : Nat) (s : State) : Host.Outcome State Fault Refusal :=
  if 16 ≤ slot then .fault .noSuchUnit else settled s (s.pacerDecide slot)

/-! ### Completion (R203) -/

/-- Effects of a completed work item (R210, R215, R217, R221, R243). -/
def State.itemDone (s : State) (i : Nat) (it : Item) : State :=
  let s := (s.modSlot i (fun v => { v with item := none })).clearRing i it.kind (it.mb % 2)
  match (s.slot i).micro? it.mb with
  | none => s
  | some m =>
    let tokens := batonTokens m.baton
    if it.kind = 1 then
      let t := if s.rd (O.inLane i) = 0xFF then s else s.consume (s.rd (O.inLane i)) m.id
      (t.modMicro i m.id (fun m => { m with f := 2, fSent := decide (s.rd (O.outLane i) = 0xFF) })).add (O.fDone i) 1
    else if it.kind = 2 then
      let t := if s.rd (O.retInLane i) = 0xFF then s else s.consume (s.rd (O.retInLane i)) m.id
      let t := (t.modMicro i m.id (fun m => { m with b := 3, w := 1, bSent := decide (s.rd (O.retOutLane i) = 0xFF) })).add (O.bDone i) 1
      if s.jobStageOf i = 0 then
        t.wrAll [(O.ledgerSlots i, t.rd (O.ledgerSlots i) + 1),
                 (O.ledgerPages i, t.rd (O.ledgerPages i) + t.pagesFor i tokens (t.rd O.retTokenBytes))]
      else t
    else
      let t := (s.modMicro i m.id (fun m => { m with w := 3 })).add (O.wDone i) 1
      let t := (t.unmapAllotted i (t.stashAt i m.id) (t.stashPages i tokens)).unpin i (batonVersion m.baton)
      if it.mb + 1 = t.rd (O.microBatches i) then t.fillAll i else t

/-- Whether every core of a slot has HALTED with a work code and the item's ring blocks are sent (R203, R311). -/
def State.itemComplete (s : State) (i : Nat) (it : Item) : Bool :=
  ((s.slotCores i).map s.core).all (fun k => decide (k.state = .halted) && decide (k.haltCode ≤ 0x7F)) && s.ringComplete i it

/-- WORK_ITEM_COMPLETE (R203, R311): every core HALTED with a work code completes the item; a core FAULTED or OFF is the stage fault CORE,
a HALT_CODE of 0x80 to 0xFE the stage fault PROGRAM. -/
def State.workItemComplete (s : State) (i : Nat) : State :=
  match (s.slot i).item with
  | none => s
  | some it =>
    let ks := (s.slotCores i).map s.core
    if ks.any (fun k => decide (k.state = .faulted) || decide (k.state = .off)) then s.stageFaultOf i sfCore it.kind it.mb
    else if ks.any (fun k => decide (k.state = .halted) && decide (0x80 ≤ k.haltCode) && decide (k.haltCode ≤ 0xFE)) then
      s.stageFaultOf i sfProgram it.kind it.mb
    else if s.itemComplete i it then s.itemDone i it
    else s

/-- WORK_ITEM_COMPLETE (R203). -/
def execWorkItemComplete (slot : Nat) (s : State) : Host.Outcome State Fault Refusal :=
  if 16 ≤ slot then .fault .noSuchUnit else settled s (s.workItemComplete slot)

/-- STAGE_DEADLINE (R223, R225, R428): an item that has completed is no longer timed, so a completion in the same microsecond prevails. -/
def State.stageDeadline (s : State) (i : Nat) : State :=
  match (s.slot i).item with
  | none => s
  | some it =>
    if s.now < it.due then s
    else if s.itemComplete i it then s.itemDone i it
    else
      let t := State.each (fun (t : State) (c : Nat) => if (t.core c).active then t.stopCore c else t) s (s.slotCores i)
      ((t.add (O.stageExpiries i) 1).expiry 4 (t.suspect susSlot i)).stageFaultOf i sfDeadline it.kind it.mb

/-- STAGE_DEADLINE (R225). -/
def execStageDeadline (slot : Nat) (s : State) : Host.Outcome State Fault Refusal :=
  if 16 ≤ slot then .fault .noSuchUnit else settled s (s.stageDeadline slot)

end Sys2Proof.Machine
end

