-- ==== Sys2Proof/Machine/LaneRows.lean ====
section
/-! DEFINITION. Relay links (R204-R206), Lane controls (R208), sending a micro-batch (R210-R212) and receiving a Baton (R211-R213). -/

namespace Sys2Proof.Machine

/-! ### Relay links -/

/-- Whether an object is RELAY_CONTROL. -/
def isRelayControl (k : Nat) : Bool := decide (0x4200 ≤ keyIndex k) && decide (keyIndex k < 0x4220) && decide (keySub k = 2)

/-- Whether a stored open request matches an OPENING link (R204): the remote ends name each other, with opposite directions and the same
job. -/
def State.askMatches (s : State) (r : Nat) (a : RelayAsk) : Bool :=
  decide (s.rd (O.relayState r) = 1) && decide (s.rd (O.relayRemote r) = a.source) && decide (s.rd (O.relayRemoteLink r) = a.link)
    && decide (a.own = r) && decide (a.direction ≠ s.rd (O.relayDirection r)) && decide (a.tag = s.rd O.commitJobTag)

/-- A link that is OPENING enters UP when an open request of its remote end stands (R204). -/
def State.matchRelay (s : State) (r : Nat) : State :=
  if s.asks.any (s.askMatches r) then
    ({ s with asks := s.asks.filter (fun a => !s.askMatches r a) }).wr (O.relayState r) 2
  else s

/-- A write of RELAY_CONTROL (R204). -/
def relayControlEffect (s : State) (_f : Frame) (k v : Nat) : Served :=
  let r := keyIndex k - 0x4200
  let st := s.rd (O.relayState r)
  let toPkg := s.rd (O.relayRemote r)
  if v = 1 then
    (if st ≠ 0 then .done s stState []
     else
       let t := (s.wr (O.relayState r) 1).emit (.relayOpen toPkg (s.rd (O.relayRemoteLink r)) r (s.rd (O.relayDirection r)) (s.rd O.commitJobTag))
       .done (t.matchRelay r) stOk [])
  else if v = 2 then
    (if st = 0 then .done s stState []
     else
       let t := if st = 3 then s else (s.relayDown r).emit (.relayClose toPkg (s.rd (O.relayRemoteLink r)))
       .done ((t.wr (O.relayState r) 0).settle) stOk [])
  else .done s stRange []

/-- RELAY_OPEN (R204). -/
def execRelayOpen (f : Frame) (s : State) : Host.Outcome State Fault Refusal :=
  done s (writeRow (fun k v => isRelayControl k && decide (v = 1)) relayControlEffect f s)

/-- RELAY_CLOSE (R204). -/
def execRelayClose (f : Frame) (s : State) : Host.Outcome State Fault Refusal :=
  done s (writeRow (fun k v => isRelayControl k && decide (v = 2)) relayControlEffect f s)

/-- An open request arrives: it stands for its remote end until the link that it names is opened. -/
def State.relayAsk (s : State) (a : RelayAsk) : State :=
  ({ s with asks := s.asks.filter (fun (b : RelayAsk) => !(decide (b.source = a.source) && decide (b.link = a.link))) ++ [a] }).matchRelay a.own

/-- RELAY_OPEN_REQUEST (R204). -/
def execRelayOpenRequest (source remoteLink link direction jobTag : Nat) (s : State) : Host.Outcome State Fault Refusal :=
  if 32 ≤ link then .fault .noSuchUnit else done s (s.relayAsk ⟨source, remoteLink, link, direction, jobTag⟩)

/-- The close of a link's remote end arrives (R204): its open request no longer stands. -/
def State.relayClosed (s : State) (r : Nat) : State :=
  let keep := fun (a : RelayAsk) => !(decide (a.own = r) && decide (a.source = s.rd (O.relayRemote r)))
  ({ s with asks := s.asks.filter keep }).relayDown r

/-- RELAY_REMOTE_CLOSE (R204). -/
def execRelayRemoteClose (link : Nat) (s : State) : Host.Outcome State Fault Refusal :=
  if 32 ≤ link then .fault .noSuchUnit else settled s (s.relayClosed link)

/-! ### Lane controls -/

/-- Whether an object is LANE_CONTROL. -/
def isLaneControl (k : Nat) : Bool := decide (0x4100 ≤ keyIndex k) && decide (keyIndex k < 0x4140) && decide (keySub k = 0x0C)

/-- Whether the peer end that has opened holds the same shape (R208). -/
def State.peerFits (s : State) (n : Nat) : Bool := (s.lane n).peer.elim false (fun p => decide (p = s.laneShape n))

/-- Open a Lane end whose peer has opened, or leave both UNUSED (R208): the status. -/
def State.meetLane (s : State) (n : Nat) : Nat × State :=
  let shape := s.peerFits n
  let t := s.modLane n (fun e => { e with opening := false, peer := none })
  if !shape then (stRange, t)
  else
    match t.startLane n with
    | some u => (stOk, u)
    | none => (stBusy, t.add O.allocRefusals 1)

/-- The edges that the forward Lanes of this package add to the forward-plane graph, from slot to slot: the Pacer of a slot is a vertex (R188,
R207). -/
def State.laneEdges (s : State) : List (Nat × Nat) :=
  ((natsFrom 0 64).filter (fun n => s.laneOpen n && !s.laneReads n && !s.laneReturn n && s.laneLocal n && decide ((s.lane n).status = 0))).map
    (fun n => (s.rd (O.laneStage n), s.rd (O.laneStage (s.rd (O.lanePeerLane n)))))

/-- Whether the binding of a forward Lane may not be made (R188, R205): within the package it would close a cycle, join a slot to itself or lead to
a lower job stage; over a Relay link its sender is not at the downstream end. -/
def State.laneCycle (s : State) (n : Nat) : Bool :=
  let i := s.rd (O.laneStage n)
  let j := s.rd (O.laneStage (s.rd (O.lanePeerLane n)))
  if s.laneReturn n then false
  else if s.laneLocal n then
    !s.laneReads n && (decide (i = j) || decide (s.rd (O.jobStage j) < s.rd (O.jobStage i)) || (reachAll s.laneEdges [j] 17).contains i)
  else decide (s.rd (O.relayDirection (s.rd (O.laneRelay n))) = (s.laneReads n).not.toNat)

/-- The Bent whose CH_CYCLE_OVERRIDE lets the binding of a Lane within the package pass (R190). -/
def State.laneOverride (s : State) (n : Nat) : Option Nat :=
  let b := s.rd (O.firstBent (s.rd (O.laneStage n)))
  if s.laneLocal n && decide (s.rd (O.chCycleOverride b) = 1) then some b else none

/-- OPEN of a Lane end (R208); the binding of a forward Lane is refused by R188 and R205 after the checks of R208. -/
def State.openLane (s : State) (n : Nat) : Served :=
  if s.rd (O.laneState n) ≠ 0 then .done s stState []
  else if (s.lane n).opening then .done s stBusy []
  else if s.laneRefused n then .done s stRange []
  else if s.laneCycle n && (s.laneOverride n).isNone then .done s stCycle []
  else if s.laneLocal n then
    (match s.startLane n with
     | some t => .done (if s.laneCycle n then t.add (O.chCycleOverridden ((s.laneOverride n).getD 0)) 1 else t) stOk []
     | none => .done (s.add O.allocRefusals 1) stBusy [])
  else
    let t := s.emit (.laneOpen (s.lanePackage n) (s.rd (O.lanePeerLane n)) (s.laneShape n))
    if ((s.lane n).peer).isSome then
      let r := t.meetLane n
      .deferred r.2 (.prisum r.1)
    else .deferred (t.modLane n (fun e => { e with opening := true })) (.lane n)

/-- A write of LANE_CONTROL (R208, Table 8.3). -/
def laneControlEffect (s : State) (_f : Frame) (k v : Nat) : Served :=
  let n := keyIndex k - 0x4100
  let st := s.rd (O.laneState n)
  if v = 1 then s.openLane n
  else if v = 2 then (if st = 1 then .done (s.closeLane n) stOk [] else .done s stState [])
  else if v = 3 then (if st = 2 then .done (s.reopenLane n) stOk [] else .done s stState [])
  else if v = 4 then (if st = 2 then .done (s.deleteLane n) stOk [] else .done s stState [])
  else .done s stRange []

/-- LANE_OPEN (R208). -/
def execLaneOpen (f : Frame) (s : State) : Host.Outcome State Fault Refusal :=
  done s (writeRow (fun k v => isLaneControl k && decide (v = 1)) laneControlEffect f s)

/-- LANE_CLOSE (R208). -/
def execLaneClose (f : Frame) (s : State) : Host.Outcome State Fault Refusal :=
  done s (writeRow (fun k v => isLaneControl k && decide (v = 2)) laneControlEffect f s)

/-- LANE_REOPEN (R208). -/
def execLaneReopen (f : Frame) (s : State) : Host.Outcome State Fault Refusal :=
  done s (writeRow (fun k v => isLaneControl k && decide (v = 3)) laneControlEffect f s)

/-- LANE_DELETE (R208). -/
def execLaneDelete (f : Frame) (s : State) : Host.Outcome State Fault Refusal :=
  done s (writeRow (fun k v => isLaneControl k && decide (v = 4)) laneControlEffect f s)

/-- The peer end has opened (R208): a deferred OPEN completes; otherwise the peer's shape is kept until this end opens. -/
def State.lanePeerOpen (s : State) (n : Nat) (shape : List Nat) : State :=
  let t := s.modLane n (fun e => { e with peer := some shape })
  if (s.lane n).opening then
    let r := t.meetLane n
    r.2.complete (.lane n) r.1
  else if s.rd (O.laneState n) = 0 then t
  else s

/-- LANE_PEER_OPEN (R208). -/
def execLanePeerOpen (lane depth plane pages maxTokens tokenBytes : Nat) (s : State) : Host.Outcome State Fault Refusal :=
  if 64 ≤ lane then .fault .noSuchUnit else done s (s.lanePeerOpen lane [depth, plane, pages, maxTokens, tokenBytes])

/-! ### Receiving a Baton (R211-R213) -/

/-- A Baton arrives from another package after its pages (R206, R212): it is discarded and counted where this end is not OPEN or is
stale; a page whose check failed fails as R409 says and the Baton is not accepted. -/
def State.batonReceive (s : State) (n : Nat) (pages : List LandedPage) (b : Bytes) : State :=
  let r := s.rd (O.laneRelay n)
  let i := s.rd (O.laneStage n)
  if !s.laneReads n || s.laneLocal n then s
  else
    let t := s.relayGot r (pageSize * pages.length + 64)
    if s.rd (O.laneState n) ≠ 1 ∨ (s.lane n).status ≠ 0 ∨ s.stage i = 0 then t.add (O.laneDropped n) 1
    else
      match pages.findIdx? (fun p => p.bad) with
      | some j => t.landedFails (pageSize * ((s.lane n).base + j)) (t.suspect susPort (t.arrivalPort (t.lanePackage n)))
      | none => t.takeBaton n (s.rd (O.laneGen n)) (pages.map LandedPage.bytes) b

/-- BATON_RECEIVE (R212). -/
def execBatonReceive (lane : Nat) (pages : List LandedPage) (baton : Bytes) (s : State) : Host.Outcome State Fault Refusal :=
  if 64 ≤ lane then .fault .noSuchUnit else settled s (s.batonReceive lane pages baton)

/-! ### Sending (R210, R211, R212) -/

/-- The next output of a slot that is complete and not sent, in ascending id: F outputs, or B outputs for `ret`. -/
def Slot.nextOutput (v : Slot) (ret : Bool) : Option Micro :=
  v.mbs.find? (fun m => if ret then decide (m.b = 3) && !m.bSent else decide (m.f = 2) && !m.fSent)

/-- Take credit for a send, or a reservation on the return plane: none where it waits. -/
def State.laneTake (s : State) (n pages : Nat) : Option State :=
  let e := s.lane n
  if e.credit = 0 ∨ e.pages < pages then none
  else some (s.modLane n (fun e => { e with credit := e.credit - 1, pages := e.pages - pages }))

/-- The content of pages. -/
def State.pageContents (s : State) (p n : Nat) : List (Map Byte) := (s.pageFramesOf p n).map (fun f => (s.frame f).bytes)

/-- The 65,536 bytes of each page. -/
def State.pageBytes (s : State) (p n : Nat) : List Bytes := (s.pageContents p n).map (fun m => m.bytes 0#8 0 pageSize)

/-- The staging pages of an output return and it counts as sent (R221). -/
def State.outputSent (s : State) (i id at_ pages : Nat) (ret : Bool) : State :=
  (s.unmapAllotted i at_ pages).modMicro i id (fun m => if ret then { m with bSent := true } else { m with fSent := true })

/-- A micro-batch leaves for the reader of a return Lane on another package: it fills the ring there until it is consumed (R211). -/
def State.laneAway (s : State) (n pages : Nat) : State :=
  if s.laneReturn n then s.modLane n (fun e => { e with away := e.away + 1, awayPages := e.awayPages + pages }) else s

/-- LANE_SEND (R210-R213): the next output of a slot, where its Lane end holds what it takes. -/
def State.laneSend (s : State) (i : Nat) (ret : Bool) : State :=
  let n := if ret then s.rd (O.retOutLane i) else s.rd (O.outLane i)
  if 64 ≤ n ∨ ¬(s.stage i = 2 ∨ s.stage i = 3) then s
  else
    match (s.slot i).nextOutput ret with
    | none => s
    | some m =>
      let kind := if ret then 2 else 1
      let r := s.rd (O.laneRelay n)
      if (s.lane n).status ≠ 0 ∨ s.rd (O.laneState n) ≠ 1 then s.stageFaultOf i (if (s.lane n).cut then sfRelay else sfLaneStale) kind m.id
      else
        let tokens := batonTokens m.baton
        let pages := if ret then s.backPages i tokens else s.outPages i tokens
        let at_ := if ret then s.backAt i m.id else s.outAt i m.id
        match s.laneTake n pages with
        | none => s
        | some _ =>
          let list := s.blockList none (pageSize * at_) (pageSize * pages)
          let (t, ok) := (s.engineReads (s.rd (O.firstBent i)) list).verify [] list
          if !ok then t
          else
            let t := (t.laneTake n pages).getD t
            let b := batonOut m.baton (if ret then 1 else 0) (t.jobStageOf i) pages
            if t.laneLocal n then
              let u := t.outputSent i m.id at_ pages ret
              let peer := t.rd (O.lanePeerLane n)
              if t.rd (O.laneState peer) ≠ 1 then u.add (O.laneDropped peer) 1
              else u.takeBaton peer (t.rd (O.laneGen n)) (t.pageContents at_ pages) b
            else
              (((t.outputSent i m.id at_ pages ret).laneAway n pages).relaySent r (pageSize * pages + 64)).emit
                (.lane (t.lanePackage n) (t.rd (O.lanePeerLane n)) (t.pageBytes at_ pages) b)

/-- LANE_SEND (R210). -/
def execLaneSend (slot : Nat) (ret : Bool) (s : State) : Host.Outcome State Fault Refusal :=
  if 16 ≤ slot then .fault .noSuchUnit else settled s (s.laneSend slot ret)

end Sys2Proof.Machine
end

