-- ==== Sys2Proof/Machine/Alloc.lean ====
section
/-! DEFINITION. ALLOC_REQUEST (R231, R232), the Optimizer engine's layer update as a command (R247) and the version fetch (R260). -/

namespace Sys2Proof.Machine

/-! ### ALLOC_REQUEST -/

/-- Whether the 16 bytes of an ALLOC_REQUEST lie in their ranges (Table 10.2) and name no page of the Pacer window (R234). -/
def requestFits (b : Bytes) : Bool :=
  let base := byteField b 0 8
  let n := byteField b 8 4
  decide (base % pageSize = 0) && decide (1 ≤ n) && decide (n ≤ 2 ^ 24) && decide (byteField b 12 1 ≤ 2)
    && (decide (byteField b 13 1 ≤ 3) || decide (byteField b 13 1 = 0xFF)) && decide (1 ≤ byteField b 14 1) && decide (byteField b 14 1 ≤ 2)
    && decide (byteField b 15 1 = 0) && decide (base / pageSize + n ≤ pacerPage)

/-- MAP: the status and the state (R231). -/
def State.allocMap (s : State) (b : Bytes) : Nat × State :=
  let p := byteField b 0 8 / pageSize
  let n := byteField b 8 4
  if (natsFrom p n).any s.mapped then (stRange, s.add O.allocRefusals 1)
  else
    match s.takeFrames (byteField b 13 1) 1 0 0 n with
    | none => (stBusy, s.add O.allocRefusals 1)
    | some (fs, t) => (stOk, t.mapPages p (byteField b 12 1) fs)

/-- UNMAP: the status and the state (R231). -/
def State.allocUnmap (s : State) (b : Bytes) : Nat × State :=
  let p := byteField b 0 8 / pageSize
  let n := byteField b 8 4
  if (natsFrom p n).all (fun q => decide ((s.page q).pool = byteField b 12 1) && !s.inWindow q) then
    (stOk, s.unmapPages (fun t f => t.freeFrame f) p n)
  else (stRange, s.add O.allocRefusals 1)

/-- What a complete transfer to ALLOC_REQUEST does (R231): exactly 16 bytes from offset 0. -/
def allocEffect (s : State) (_k off : Nat) (bs : Bytes) : Served :=
  if off ≠ 0 ∨ bs.length ≠ 16 then .done (s.add O.allocRefusals 1) stRange []
  else if !requestFits bs then .done (s.add O.allocRefusals 1) stRange []
  else
    let r := if byteField bs 14 1 = 1 then s.allocMap bs else s.allocUnmap bs
    .done r.2 r.1 []

/-- ALLOC_MAP (R231). -/
def execAllocMap (f : Frame) (s : State) : Host.Outcome State Fault Refusal :=
  done s (domainRow (fun k => decide (k = O.allocRequest)) allocEffect f s)

/-- ALLOC_UNMAP (R231). -/
def execAllocUnmap (f : Frame) (s : State) : Host.Outcome State Fault Refusal :=
  done s (domainRow (fun k => decide (k = O.allocRequest)) allocEffect f s)

/-! ### The Optimizer engine -/

/-- Whether a layer's gradient is delivered and its update is still to be done in the attempt (R247). -/
def State.layerDue (s : State) (i l : Nat) : Bool :=
  decide (s.stage i ≠ 0) && s.rgActive i && s.attemptOpen && (s.usedLayers i).contains l && !(s.slot i).layers.contains l
    && !(s.slot i).gaveUp.contains l
    && s.layerDelivered i (s.layerEntry i l)

/-- OPTIMIZER_LAYER_UPDATE (R247). -/
def execOptimizerLayerUpdate (slot layer : Nat) (s : State) : Host.Outcome State Fault Refusal :=
  if 16 ≤ slot ∨ 128 ≤ layer then .fault .noSuchUnit
  else settled s (if s.layerDue slot layer then s.updateLayer slot layer else s)

/-! ### Version fetch (R260) -/

/-- What a version fetch asks for: the slot, its job stage and sequence slice, the pages of its windows. -/
def State.fetchRequest (s : State) (i : Nat) : List Nat :=
  [i, s.jobStageOf i, s.rd (O.seqSlice i), s.rd (O.weightPages i), s.rd (O.optPages i)]

/-- The pages of a window as a version fetch carries them: each with the check values of its blocks (R260). -/
def State.fetchPages (s : State) (page n : Nat) : Bytes := (s.pageBytes page n).flatMap (fun b => b ++ blockChecks b)

/-- A version fetch of another package (Table 10.8, step 3): the slot that serves the same JOB_STAGE and SEQ_SLICE answers with its current
version, OPT_LR, OPT_LR_NEXT, OPT_LR_STEP, LAST_COMMITTED, P1 and P2 of its layers, and both windows; without such a slot the answer is empty. -/
def State.serveFetch (s : State) (source : Nat) (b : Bytes) : State :=
  let slot := byteField b 0 4
  match s.planned.find? (fun i => decide (s.jobStageOf i = byteField b 4 4) && decide (s.rd (O.seqSlice i) = byteField b 8 4)) with
  | none => s.emit (.versionContent source slot [])
  | some i =>
    let powers := (natsFrom 0 256).flatMap (fun j => natLe 4 ((s.slot i).powers.get 0x3F800000 j))
    let head := [s.jobStageOf i, s.rd (O.seqSlice i), s.rd (O.weightPages i), s.rd (O.optPages i), (s.slot i).currentNumber, s.rd O.optLr,
                 s.rd O.optLrNext, s.rd O.optLrStep, s.rd O.lastCommitted]
    s.emit (.versionContent source slot (head.flatMap (natLe 4) ++ powers ++ s.fetchPages (s.weightPage i) (s.rd (O.weightPages i))
      ++ s.fetchPages (s.optPage i) (s.rd (O.optPages i))))

/-- A write of VS_FETCH_CONTROL: the request stands until the source's slot is known (log entry 22, DEDUCED). -/
def vsFetchEffect (s : State) (_f : Frame) (k v : Nat) : Served :=
  let i := keySlot k
  if v ≠ 1 then .done s stRange []
  else if s.stage i ≠ 0 ∨ s.rd (O.vsFetchState i) = 1 then .done s stState []
  else .open_ ((s.wr (O.vsFetchState i) 1).emit (.versionFetch (s.rd (O.vsFetchSource i)) (s.fetchRequest i))) (.fetch i)

/-- Whether an object is VS_FETCH_CONTROL. -/
def isFetchControl (k : Nat) : Bool := decide (0x6100 ≤ keyIndex k) && decide (keyIndex k < 0x6110) && decide (keySub k = 0x0C)

/-- VS_FETCH (R260). -/
def execVsFetch (f : Frame) (s : State) : Host.Outcome State Fault Refusal :=
  done s (writeRow (fun k v => isFetchControl k && decide (v = 1)) vsFetchEffect f s)

/-- Whether what the source holds matches the slot (R260). -/
def State.fetchMatches (s : State) (i : Nat) (r : FetchResult) : Bool :=
  decide (r.jobStage = s.jobStageOf i) && decide (r.seqSlice = s.rd (O.seqSlice i)) && decide (r.weightPages = s.rd (O.weightPages i))
    && decide (r.optPages = s.rd (O.optPages i))

/-- The pages of a window that are not mapped yet are mapped; then the window holds bytes. None when frames are short. -/
def State.fillWindow (s : State) (i pool page n : Nat) (m : Map Byte) : Option State :=
  let missing := (natsFrom page n).filter (fun p => !s.mapped p)
  match s.takeFrames (s.slotHome i) 1 0 0 missing.length with
  | none => none
  | some (fs, t) =>
    let t := State.each (fun (t : State) (x : Nat × Nat) => t.setPage x.1 ⟨pool, x.2⟩) t (missing.zip fs)
    some (State.each (fun (t : State) (j : Nat) =>
      let f := (t.page (page + j)).frame
      let part : Map Byte := ⟨(m.entries.filter (fun e => decide (e.1 / pageSize = j))).map (fun e => (e.1 % pageSize, e.2))⟩
      (t.setFrame f { t.frame f with bytes := part, poison := [] }).frameWritten f) t (natsFrom 0 n))

/-- The powers of a fetched slot (R260): 128 pairs. -/
def fetchedPowers (m : Map Byte) : Map Nat :=
  (natsFrom 0 256).foldl (fun (a : Map Nat) j => a.set 0x3F800000 j (leNat (m.bytes 0#8 (4 * j) 4))) Map.empty

/-- The fetch brought everything: windows, powers, learning rates, the last committed step (R260, Table 10.8); the package continues with
the step after it. None when frames are short. -/
def State.takeFetch (s : State) (i : Nat) (r : FetchResult) : Option State :=
  match s.fillWindow i 1 (s.weightPage i) r.weightPages r.weights with
  | none => none
  | some t =>
    (t.fillWindow i 2 (t.optPage i) r.optPages r.optimizer).map (fun t =>
      let t := t.modSlot i (fun v => { v with powers := fetchedPowers r.powers })
      let t := t.wrAll [(O.optLr, r.lr), (O.optLrNext, r.lrNext), (O.optLrStep, r.lrStep), (O.lastCommitted, r.lastCommitted),
                        (O.vsInitialVersion i, r.version % 256), (O.vsFetchState i, 2)]
      if t.commit.opened then t else t.wr O.stepNumber ((r.lastCommitted + 1) % 2 ^ 32))

/-- VS_FETCH_DONE (R260): the write completes with RANGE where the source does not match, and with OK otherwise. -/
def State.fetchDone (s : State) (i : Nat) (r : FetchResult) : State :=
  if s.rd (O.vsFetchState i) ≠ 1 then s
  else if !s.fetchMatches i r then (s.wr (O.vsFetchState i) 0).complete (.fetch i) stRange
  else
    let t := s.complete (.fetch i) stOk
    if !r.passed then
      (t.wr (O.vsFetchState i) 3).landedFails (t.rd (O.weightBase i)) (t.suspect susPort (t.arrivalPort (t.rd (O.vsFetchSource i))))
    else
      match t.takeFetch i r with
      | some u => u
      | none => (t.wr (O.vsFetchState i) 3).add O.allocRefusals 1

/-- VS_FETCH_DONE (R260). -/
def execVsFetchDone (slot : Nat) (result : FetchResult) (s : State) : Host.Outcome State Fault Refusal :=
  if 16 ≤ slot then .fault .noSuchUnit else settled s (s.fetchDone slot result)

end Sys2Proof.Machine
end

