-- ==== Sys2Proof/Machine/CommitRows.lean ====
section
/-! DEFINITION. The commit tree's messages and controls (R252-R260). -/

namespace Sys2Proof.Machine

/-- A message of a child for an attempt that is still to open here: the later step, or a later attempt of the step. -/
def State.tooSoon (s : State) (m : CommitMsg) : Bool :=
  let n := s.rd O.stepNumber
  let ahead := (m.step + 2 ^ 32 - n) % 2 ^ 32
  if ahead = 0 then decide (s.rd O.stepAttempt < m.attempt) || (decide (m.attempt = s.rd O.stepAttempt) && !s.commit.opened)
  else decide (ahead < 2 ^ 31)

/-- Keep a message for an attempt that is still to open here. -/
def State.keepEarly (s : State) (m : CommitMsg) : State := { s with commit := { s.commit with early := s.commit.early ++ [m] } }

/-- A READY or FAIL from a child arrives: it takes effect for the open attempt, waits for one that is still to open, and is past
otherwise. -/
def State.childMessage (s : State) (m : CommitMsg) : State :=
  if !s.commitOk m then s
  else if s.ripe m then s.childSays m
  else if s.tooSoon m then s.keepEarly m
  else s

/-- READY_TOKEN (R255). -/
def execReadyToken (m : CommitMsg) (s : State) : Host.Outcome State Fault Refusal :=
  settled s (if m.type = cmReady then s.childMessage m else s)

/-- FAIL (R254, R256). -/
def execFail (m : CommitMsg) (s : State) : Host.Outcome State Fault Refusal :=
  settled s (if m.type = cmFail then s.childMessage m else s)

/-- COMMIT (R257): it finds the package READY. -/
def execCommit (m : CommitMsg) (s : State) : Host.Outcome State Fault Refusal :=
  settled s (if m.type = cmCommit ∧ s.commitOk m = true ∧ s.concerns m = true ∧ s.rd O.stepState = 3 then s.applyDecision cmCommit 0 else s)

/-- A decision ABORT arrives (R257). For an attempt that is still to open here it is forwarded, and takes effect when the attempt opens, since
Table 10.6 leads from COMMITTED to OPEN alone. -/
def State.abortMessage (s : State) (m : CommitMsg) : State :=
  if !s.commitOk m ∨ 2 < m.action then s
  else if s.concerns m then s.applyDecision cmAbort m.action
  else if s.tooSoon m then (s.sendDown cmAbort m.action m.attempt m.step).keepEarly m
  else s

/-- ABORT (R257). -/
def execAbort (m : CommitMsg) (s : State) : Host.Outcome State Fault Refusal :=
  settled s (if m.type = cmAbort then s.abortMessage m else s)

/-- The decision that the package holds for an attempt, as TYPE and ACTION: the latest of those of its last step and the one before (R258). -/
def State.decisionOn (s : State) (step attempt : Nat) : Option (Nat × Nat) :=
  ((s.rd O.lastDecision :: s.commit.previous).find? (fun w =>
    decide (w / 2 ^ 32 = step) && decide (w / 256 % 256 = attempt) && decide (w / 16 % 16 ≠ 0))).map (fun w => (w / 16 % 16, w % 16))

/-- A QUERY is answered with a decision applied for its attempt, and forwarded to the parent otherwise (R258). -/
def State.queryMessage (s : State) (m : CommitMsg) : State :=
  if !s.commitOk m then s
  else
    match s.decisionOn m.step m.attempt with
    | some (t, a) => s.sendCommit m.sender t a m.attempt m.step 0xFFFF 0 0
    | none =>
      if s.commitRoot then s
      else s.emit (.commit (s.rd O.commitParent) (commitBytes cmQuery 0 m.attempt m.step m.jobTag m.sender m.firstFail m.reporters m.reason))

/-- QUERY (R258). -/
def execQuery (m : CommitMsg) (s : State) : Host.Outcome State Fault Refusal :=
  settled s (if m.type = cmQuery then s.queryMessage m else s)

/-- A RESUME arrives (R252): forwarded to the children, then acted on, or kept for a step that is still to open here. -/
def State.resumeMessage (s : State) (m : CommitMsg) : State :=
  let t := s.sendDown cmResume 0 m.attempt m.step
  if m.step ≠ s.rd O.stepNumber ∧ s.tooSoon m = true then t.keepEarly m else t.resumeAt m.step m.attempt

/-- RESUME_MESSAGE (R252). -/
def execResumeMessage (m : CommitMsg) (s : State) : Host.Outcome State Fault Refusal :=
  settled s (if m.type = cmResume ∧ s.commitOk m = true then s.resumeMessage m else s)

/-- A write of COMMIT_CONTROL (R258, R260). The action of a resolved ABORT is HOLD (log entry 23, DEDUCED). -/
def commitControlEffect (s : State) (_f : Frame) (_k v : Nat) : Served :=
  let step := s.rd O.stepNumber
  let attempt := s.rd O.stepAttempt
  if v = 1 then
    (if s.commitRoot && s.onHold then .done ((s.sendDown cmResume 0 attempt step).resumeAt step attempt).settle stOk []
     else .done s stState [])
  else if v = 2 then (if s.rd O.inDoubt = 1 then .done (s.applyDecision cmCommit 0).settle stOk [] else .done s stState [])
  else if v = 3 then (if s.rd O.inDoubt = 1 then .done (s.applyDecision cmAbort acHold).settle stOk [] else .done s stState [])
  else .done s stRange []

/-- RESUME (R260). -/
def execResume (f : Frame) (s : State) : Host.Outcome State Fault Refusal :=
  done s (writeRow (fun k v => decide (k = O.commitControl) && decide (v = 1)) commitControlEffect f s)

/-- RESOLVE_COMMIT (R258). -/
def execResolveCommit (f : Frame) (s : State) : Host.Outcome State Fault Refusal :=
  done s (writeRow (fun k v => decide (k = O.commitControl) && decide (v = 2)) commitControlEffect f s)

/-- RESOLVE_ABORT (R258). -/
def execResolveAbort (f : Frame) (s : State) : Host.Outcome State Fault Refusal :=
  done s (writeRow (fun k v => decide (k = O.commitControl) && decide (v = 3)) commitControlEffect f s)

/-- A write of COMMIT_PARENT (R258): a change acts as the loss of the former parent; in doubt, QUERY goes to the new one. -/
def parentEffect (s : State) (_f : Frame) (k v : Nat) : Served :=
  let changed := decide (s.rd k ≠ v)
  let t := if changed then (if s.commitRoot then s else s.parentGone).wr k v else s
  let t := if t.rd O.inDoubt = 1 ∧ v ≠ 0xFFFF then t.sendCommit (v % 16384) cmQuery 0 (t.rd O.stepAttempt) (t.rd O.stepNumber) 0xFFFF 0 0 else t
  .done t.settle stOk []

/-- COMMIT_PARENT_WRITE (R258). -/
def execCommitParentWrite (f : Frame) (s : State) : Host.Outcome State Fault Refusal :=
  done s (writeRow (fun k _ => decide (k = O.commitParent)) parentEffect f s)

/-- COMMIT_WAIT_TIMEOUT (R255, R428): the unit timed is the package. -/
def State.commitWaitTimeout (s : State) : State :=
  match s.commit.pending with
  | some due =>
    if s.rd O.stepState = 2 ∧ due ≤ s.now then
      (({ s with commit := { s.commit with pending := none } }).expiry 7 (s.suspect susPackage 0)).sendFail reTimeout
    else s
  | none => s

/-- COMMIT_WAIT_TIMEOUT (R255). -/
def execCommitWaitTimeout (s : State) : Host.Outcome State Fault Refusal := settled s s.commitWaitTimeout

end Sys2Proof.Machine
end

