-- ==== Sys2Proof/Machine/ReductionRows.lean ====
section
/-! DEFINITION. The reduction's commands (R276, R277, R289-R297, R300): landing a frame packet by packet, groups and re-shards, refusals and
timeouts. -/

namespace Sys2Proof.Machine

/-! ### Landing a frame (R276, R277) -/

/-- The check values of a segment: one per 4 KiB, one over a shorter last part. -/
def segmentChecks (seg : Bytes) : List W32 := (runsOf 4096 seg ((seg.length + 4095) / 4096)).map crc32c

/-- A landing whose frame has ended is over. -/
def Landing.rest (l : Landing) : Option Landing := if byteField l.header 24 4 ≤ l.payload.length then none else some l

/-- A discarded frame: it takes no receive area, and its further packets are passed over. -/
def State.swallow (s : State) (c : Nat) (p : RedPacket) : State :=
  let t := s.modChan c (fun k => { k with landing := Landing.rest ⟨p.header, p.segment, true⟩ })
  if p.offset = 0 then t.grantArea c else t

/-- A sequence fault: the channel enters FAULTED and the attempt fails (R277, step 5). -/
def State.sequenceFault (s : State) (c : Nat) : State := ((s.add (O.rcSequenceFaults c) 1).faultChannel c).sendFail reStage

/-- A frame refused for its epoch (R294). -/
def State.refuseEpoch (s : State) (c : Nat) (h : Bytes) : State :=
  let prev := s.rd (O.rcPrev c) % 16384
  let expected := ((s.aheadOf c).filter (fun x => decide (x.1 = byteField h 4 4))).elim (s.rd O.layoutEpoch) (fun x => x.2.2)
  let w := byteField h 8 2 * 2 ^ 48 + expected * 2 ^ 32 + prev * 2 ^ 16 + c
  (((((s.add (O.rcEpochRefused c) 1).add O.epochRefused 1).wr O.lastEpochRefusal w).raiseEvent O.lastEpochRefusal).emit (.epochRefusal prev c)).sendFail reStage

/-- A block of a frame, or its header, fails its check: the frame is discarded (R277, step 1; R409). -/
def State.frameBad (s : State) (c : Nat) : State :=
  s.landedFails 0 (s.suspect susPort (s.arrivalPort (s.rd (O.rcPrev c) % 16384)))

/-- A segment lands; with the last one the frame is accepted, or kept for its attempt. -/
def State.landSegment (s : State) (c : Nat) (l : Landing) (p : RedPacket) (early : Bool) : State :=
  if p.checks ≠ segmentChecks p.segment then
    ((s.frameBad c).modChan c (fun k => { k with landing := Landing.rest { l with gone := true } })).freeArea c
  else
    let whole := byteField l.header 24 4
    if whole < l.payload.length then ((s.modChan c (fun k => { k with landing := none })).freeArea c).sequenceFault c
    else if l.payload.length < whole then s.modChan c (fun k => { k with landing := some l })
    else
      let t := s.modChan c (fun k => { k with landing := none })
      if early then t.modChan c (fun k => { k with early := k.early ++ [l] }) else t.acceptFrame c l.header l.payload

/-- Whether a frame's header still is the one of an attempt to come. -/
def State.isEarly (s : State) (c : Nat) (h : Bytes) : Bool := decide (s.judge c h = .early)

/-- A frame begins to land in a free receive area (R276); one for which none is free counts as a sequence fault (log entry 74, DEDUCED). -/
def State.beginLanding (s : State) (c : Nat) (p : RedPacket) (early : Bool) : State :=
  if p.offset ≠ 0 ∨ 2 ≤ (s.chan c).areas then (s.sequenceFault c).swallow c p
  else (s.modChan c (fun k => { k with areas := k.areas + 1 })).landSegment c ⟨p.header, p.segment, false⟩ p early

/-- The first packet of a frame: judged by R277. -/
def State.firstPacket (s : State) (c : Nat) (p : RedPacket) : State :=
  match (if p.checks ≠ segmentChecks p.segment then .bad else s.judge c p.header) with
  | .bad => (s.frameBad c).swallow c p
  | .otherGroup => (s.add (O.rcSequenceFaults c) 1).swallow c p
  | .otherEpoch => (s.refuseEpoch c p.header).swallow c p
  | .stale => (if p.offset = 0 then s.add (O.rcStaleDropped c) 1 else s).swallow c p
  | .fault => (s.sequenceFault c).swallow c p
  | .early => s.beginLanding c p true
  | .accepted => s.beginLanding c p false

/-- REDUCTION_PACKET (R276): a packet for a channel that serves no ACTIVE group is dropped. -/
def State.reductionPacket (s : State) (c : Nat) (p : RedPacket) : State :=
  let i := s.rd (O.rcSlot c)
  if !(decide (i < 16) && s.rgActive i) then s
  else
    match (s.chan c).landing with
    | none => s.firstPacket c p
    | some l =>
      let next := decide (l.header.take 60 = p.header.take 60) && decide (p.offset = l.payload.length)
      let more : Landing := { l with payload := l.payload ++ p.segment }
      if l.gone then
        (if next then s.modChan c (fun k => { k with landing := more.rest })
         else (s.modChan c (fun k => { k with landing := none })).firstPacket c p)
      else if next then s.landSegment c more p (s.isEarly c l.header)
      else ((s.freeArea c).sequenceFault c).swallow c p

/-- REDUCTION_PACKET (R276). -/
def execReductionPacket (channel : Nat) (p : RedPacket) (s : State) : Host.Outcome State Fault Refusal :=
  if 32 ≤ channel then .fault .noSuchUnit else settled s (s.reductionPacket channel p)

/-- EPOCH_REFUSAL (R294). -/
def execEpochRefusal (channel : Nat) (s : State) : Host.Outcome State Fault Refusal :=
  if 32 ≤ channel then .fault .noSuchUnit else settled s ((s.add (O.rcEpochRefused channel) 1).sendFail reStage)

/-- RC_HOP_TIMEOUT (R296, R428). -/
def State.hopTimeout (s : State) (c : Nat) : State :=
  match (s.chan c).waiting with
  | some due =>
    if due ≤ s.now then
      (((s.modChan c (fun k => { k with waiting := none })).expiry 7 (s.suspect susChannel c)).faultChannel c).sendFail reTimeout
    else s
  | none => s

/-- RC_HOP_TIMEOUT (R296). -/
def execRcHopTimeout (channel : Nat) (s : State) : Host.Outcome State Fault Refusal :=
  if 32 ≤ channel then .fault .noSuchUnit else settled s (s.hopTimeout channel)

/-! ### Groups (R300) -/

/-- Whether an object is RG_CONTROL. -/
def isGroupControl (k : Nat) : Bool := decide (0x5010 ≤ keyIndex k) && decide (keyIndex k < 0x5020) && decide (keySub k = 2)

/-- A write of RG_CONTROL (R300). -/
def groupControlEffect (s : State) (_f : Frame) (k v : Nat) : Served :=
  let i := keySlot k
  if v ≠ 1 ∧ v ≠ 2 then .done s stRange []
  else if s.stage i ≠ 0 then .done s stState []
  else if v = 1 then
    (if s.rgActive i then .done s stState []
     else if !(s.layoutOk 0 i && s.bucketsFree 0 i false) then .done s stRange []
     else
       match s.mapBuckets i with
       | none => .done (s.add O.allocRefusals 1) stBusy []
       | some t => .done (((t.wr (O.rgState i) 1).resetThinning i).grantAreas i) stOk [])
  else if !s.rgActive i then .done s stState []
  else
    let t := s.unmapBuckets i
    let t := State.each (fun (t : State) (b : Nat) => t.setBucket i b Bucket.idle) t (natsFrom 0 64)
    let t := State.each (fun (t : State) (c : Nat) => (t.setChan c { Channel.idle with credit := (t.chan c).credit }).wr (O.rcState c) 0) t (t.channelsOf 0 i)
    .done ((t.wr (O.rgState i) 0).settle) stOk []

/-- ACTIVATE (R300). -/
def execActivate (f : Frame) (s : State) : Host.Outcome State Fault Refusal :=
  done s (writeRow (fun k v => isGroupControl k && decide (v = 1)) groupControlEffect f s)

/-- DEACTIVATE (R300). -/
def execDeactivate (f : Frame) (s : State) : Host.Outcome State Fault Refusal :=
  done s (writeRow (fun k v => isGroupControl k && decide (v = 2)) groupControlEffect f s)

/-! ### Re-shard (R291) -/

/-- Frames that the next bank needs beyond those that the current bank releases. -/
def State.reshardFrames (s : State) : Nat :=
  (s.activeGroups.map (s.layoutFrames 1)).sum - (s.activeGroups.map (s.layoutFrames 0)).sum

/-- Whether a slot's layout in the next bank keeps R262 to R265, R273 and R278; a group that is INACTIVE and has no bucket there is not judged. -/
def State.nextLayoutOk (s : State) (i : Nat) : Bool :=
  (!s.rgActive i && (s.usedBuckets 1 i).isEmpty)
    || (s.layoutOk 1 i && decide (s.rgM 1 i = s.memberIndex i) && s.layersInside 1 i)

/-- Whether the next bank may take the place of the current one (R291, check 3). -/
def State.nextBankOk (s : State) : Bool :=
  allSlots.all s.nextLayoutOk && s.activeGroups.all (fun i => s.bucketsFree 1 i true) && !anyMeet (s.activeGroups.flatMap (s.usedEntries 1))

/-- A write of RESHARD_CONTROL (R291). -/
def reshardControlEffect (s : State) (_f : Frame) (_k v : Nat) : Served :=
  if v = 1 then
    (if s.rd O.reshardState = 1 then .done s stState []
     else if s.rd O.reshardEpoch = s.rd O.layoutEpoch ∨ s.rd O.reshardStep ≤ s.rd O.stepNumber then .done s stRange []
     else if !s.nextBankOk then .done s stRange []
     else
       match s.takeFrames 0xFF 2 ownReshard 0 s.reshardFrames with
       | none => .done (s.add O.allocRefusals 1) stBusy []
       | some (_, t) => .done (t.wr O.reshardState 1) stOk [])
  else if v = 2 then
    (if s.rd O.reshardState = 1 then .done ((s.freeOwner ownReshard).wr O.reshardState 0) stOk [] else .done s stState [])
  else .done s stRange []

/-- RESHARD (R291). -/
def execReshard (f : Frame) (s : State) : Host.Outcome State Fault Refusal :=
  done s (writeRow (fun k v => decide (k = O.reshardControl) && decide (v = 1)) reshardControlEffect f s)

/-- RESHARD_CANCEL (R291). -/
def execReshardCancel (f : Frame) (s : State) : Host.Outcome State Fault Refusal :=
  done s (writeRow (fun k v => decide (k = O.reshardControl) && decide (v = 2)) reshardControlEffect f s)

end Sys2Proof.Machine
end

