-- ==== Sys2Proof/Machine/JobRows.lean ====
section
/-! DEFINITION. Declaring a job (R302-R304) and the arrival of a ring block (R313, R314). -/

namespace Sys2Proof.Machine

/-- The fields of the job record (Table 12.2). -/
def jobFields : List Nat :=
  [O.jobPackages, O.pipePackages, O.pipeIndex, O.stagesPerPackage, O.jobSeqShare, O.replicas, O.pipeAxis, O.seqAxis]

/-- The checks of DECLARE (R303), in order; a package that drains refuses with STATE (R422). -/
def State.declareCheck (s : State) : Nat :=
  if s.rd O.drainState ≠ 0 ∨ s.planned ≠ [] ∨ (s.cores.entries.any (fun c => c.2.active)) = true then stState
  else if !jobFields.all s.inRange || decide (s.rd O.pipePackages ≤ s.rd O.pipeIndex) then stRange
  else if s.rd O.jobPackages ≠ s.rd O.pipePackages * s.rd O.jobSeqShare * s.rd O.replicas then stRange
  else if 4096 < s.rd O.pipePackages * s.rd O.stagesPerPackage then stRange
  else if s.rd O.pipeAxis = s.rd O.seqAxis ∧ 1 < s.rd O.pipePackages ∧ 1 < s.rd O.jobSeqShare then stRange
  else if 524288 < (s.rd O.pipeMaxTokens + s.rd O.jobSeqShare - 1) / s.rd O.jobSeqShare then stRange
  else stOk

/-- A write of JOB_CONTROL (R303, R304). -/
def jobControlEffect (s : State) (_f : Frame) (_k v : Nat) : Served :=
  if v = 1 then
    let st := s.declareCheck
    if st ≠ stOk then .done s st []
    else .done ((s.wrAll ((natsFrom 0 48).map (fun b => (O.rngSeed b, s.rd O.jobSeed)))).wr O.jobState 1) stOk []
  else if v = 2 then (if s.planned = [] then .done (s.wr O.jobState 0) stOk [] else .done s stState [])
  else .done s stRange []

/-- DECLARE (R303). -/
def execDeclare (f : Frame) (s : State) : Host.Outcome State Fault Refusal :=
  done s (writeRow (fun k v => decide (k = O.jobControl) && decide (v = 1)) jobControlEffect f s)

/-- RETRACT (R304). -/
def execRetract (f : Frame) (s : State) : Host.Outcome State Fault Refusal :=
  done s (writeRow (fun k v => decide (k = O.jobControl) && decide (v = 2)) jobControlEffect f s)

/-! ### Ring blocks -/

/-- A ring block arrives (R313): where the work item in run is complete and the block belongs to another, the completion comes first (R314). -/
def State.ringArrives (s : State) (i : Nat) (b : RingBlock) : State :=
  match (s.slot i).item with
  | none => s.ringBlock i b
  | some it => (if (it.kind ≠ b.kind ∨ it.mb ≠ b.mb) ∧ s.itemComplete i it = true then s.itemDone i it else s).ringBlock i b

/-- RING_BLOCK (R313). -/
def execRingBlock (slot : Nat) (b : RingBlock) (s : State) : Host.Outcome State Fault Refusal :=
  if 16 ≤ slot then .fault .noSuchUnit else settled s (s.ringArrives slot b)

end Sys2Proof.Machine
end

