-- ==== Sys2Proof/Machine/Roce.lean ====
section
/-! DEFINITION. Frames of the ingest ports (R319, R320): Ethernet II with an optional IEEE 802.1Q tag, IPv4 or IPv6, UDP, and the RoCE v2
headers with the invariant CRC of the InfiniBand Architecture Specification, Annex A17. Header layouts, operation codes and port numbers are
those of these standards (log entry 106, PRESUMED). -/

namespace Sys2Proof.Machine

/-- One byte of the Ethernet CRC-32 division (polynomial 0x04C1_1DB7, reflected). -/
def crcEthByte (c : W32) (b : Byte) : W32 :=
  (natsFrom 0 8).foldl (fun (c : W32) _ => if c &&& 1#32 = 1#32 then (c >>> 1) ^^^ 0xEDB88320#32 else c >>> 1) (c ^^^ b.setWidth 32)

/-- The Ethernet CRC-32 of bytes. -/
def crcEth (b : Bytes) : W32 := ~~~ b.foldl crcEthByte 0xFFFFFFFF#32

/-- Bytes at some places replaced by 0xFF. -/
def masked (at_ : List Nat) (b : Bytes) : Bytes :=
  (b.zip (natsFrom 0 b.length)).map (fun p => if at_.contains p.2 then 0xFF#8 else p.1)

/-- The bytes of an IP header that the invariant CRC leaves out: IPv4 type of service, time to live and checksum; IPv6 traffic class, flow
label and hop limit, which share their first byte with the version. -/
def maskedIp (b : Bytes) : Bytes :=
  if field (beField b 0 1) 4 4 = 4 then masked [1, 8, 10, 11] b else [0x6F#8] ++ (masked [0, 1, 2, 6] (b.drop 1))

/-- The invariant CRC of a packet: its IP header, UDP header, transport header and what follows. -/
def invariantCrc (ip udp rest : Bytes) : W32 := crcEth (List.replicate 8 0xFF#8 ++ maskedIp ip ++ masked [6, 7] udp ++ masked [4] rest)

/-- The Internet checksum of a header. -/
def inetChecksum (b : Bytes) : Nat :=
  let n := ((natsFrom 0 (b.length / 2)).map (fun i => beField b (2 * i) 2)).sum
  let n := n % 65536 + n / 65536
  65535 - (n % 65536 + n / 65536)

/-- The IPv4-mapped form of an IPv4 address. -/
def mapped4 (b : Bytes) : Bytes := List.replicate 10 0#8 ++ [0xFF#8, 0xFF#8] ++ b

/-- A RoCE v2 packet as a port reads it: VLAN id of its tag, destination MAC address, IP addresses (IPv4 in the mapped form), operation code,
destination queue pair, PSN, what follows the base transport header up to the invariant CRC, pad bytes, whether the invariant CRC is good. -/
structure RocePacket where
  vlan    : Option Nat
  mac     : Nat
  source  : Bytes
  dest    : Bytes
  opcode  : Nat
  qpn     : Nat
  psn     : Nat
  body    : Bytes
  pad     : Nat
  checkOk : Bool

/-- The UDP datagram of an IP packet: its header bytes, source, destination, and what it carries; none for any other packet. -/
def udpOf (type : Nat) (b : Bytes) : Option (Bytes × Bytes × Bytes × Bytes) :=
  if type = 0x0800 then
    let size := beField b 2 2
    if field (beField b 0 1) 0 8 ≠ 0x45 ∨ beField b 9 1 ≠ 17 ∨ beField b 6 2 % 2 ^ 14 ≠ 0 ∨ b.length < size ∨ size < 20
        ∨ inetChecksum (b.take 20) ≠ 0 then none
    else some (b.take 20, mapped4 ((b.drop 12).take 4), mapped4 ((b.drop 16).take 4), (b.take size).drop 20)
  else if type = 0x86DD then
    let size := beField b 4 2
    if field (beField b 0 1) 4 4 ≠ 6 ∨ beField b 6 1 ≠ 17 ∨ b.length < 40 + size then none
    else some (b.take 40, (b.drop 8).take 16, (b.drop 24).take 16, (b.drop 40).take size)
  else none

/-- The packet in an Ethernet frame; none for a frame that is not RoCE v2 (R319). -/
def rocePacket (f : Bytes) : Option RocePacket :=
  let tagged := decide (beField f 12 2 = 0x8100)
  let at_ := if tagged then 16 else 12
  match udpOf (beField f at_ 2) (f.drop (at_ + 2)) with
  | none => none
  | some (ip, source, dest, d) =>
    if d.length < 24 ∨ beField d 2 2 ≠ 4791 ∨ beField d 4 2 ≠ d.length then none
    else
      let rest := (d.take (d.length - 4)).drop 8
      some { vlan := if tagged then some (beField f 14 2 % 4096) else none, mac := beField f 0 6, source := source, dest := dest,
             opcode := beField rest 0 1, qpn := beField rest 5 3, psn := beField rest 9 3, body := rest.drop 12,
             pad := field (beField rest 1 1) 4 2,
             checkOk := decide (invariantCrc ip (d.take 8) rest = BitVec.ofNat 32 (byteField d (d.length - 4) 4)) }

/-- Whether an operation code is that of an RDMA READ response: First, Middle, Last or Only. -/
def isReadResponse (op : Nat) : Bool := decide (0x0D ≤ op) && decide (op ≤ 0x10)

/-- The data of an RDMA READ response: all but a Middle have an ACK extended header. -/
def RocePacket.data (p : RocePacket) : Bytes :=
  let b := if p.opcode = 0x0E then p.body else p.body.drop 4
  b.take (b.length - p.pad)

/-- Whether an acknowledge is a NAK for a PSN sequence error. -/
def RocePacket.sequenceNak (p : RocePacket) : Bool := decide (p.opcode = 0x11) && decide (beField p.body 0 1 = 0x60)

/-- Whether a packet is a congestion notification. -/
def RocePacket.congestion (p : RocePacket) : Bool := decide (p.opcode = 0x81)

/-- What a request is addressed with: the entry of Table 13.2, the port's MAC and IP address, VLAN id and priority, and what the manual
leaves open of its IP header: identification or flow label, time to live or hop limit. -/
structure Addressing where
  entry    : Bytes
  mac      : Nat
  local_   : Bytes
  vlan     : Nat
  priority : Nat
  ident    : Nat
  ttl      : Nat

/-- The Ethernet header of a request. -/
def Addressing.ethernet (a : Addressing) : Bytes :=
  natBe 6 (byteField a.entry 16 6) ++ natBe 6 a.mac ++ (if a.vlan = 0 then [] else natBe 2 0x8100 ++ natBe 2 (a.priority * 8192 + a.vlan))
    ++ natBe 2 (if byteField a.entry 1 1 = 6 then 0x86DD else 0x0800)

/-- DSCP and the ECN field of a request: DSCP in the upper six bits (Table 13.2 [5:0]), ECN in the lower two ([7:6]). -/
def Addressing.service (a : Addressing) : Nat := 4 * (byteField a.entry 22 1 % 64) + byteField a.entry 22 1 / 64

/-- The IP header of a request with `n` bytes after it. -/
def Addressing.ip (a : Addressing) (n : Nat) : Bytes :=
  let dest := (a.entry.drop 24).take 16
  if byteField a.entry 1 1 = 6 then
    natBe 4 (6 * 2 ^ 28 + a.service * 2 ^ 20 + a.ident % 2 ^ 20) ++ natBe 2 n ++ [17#8] ++ natBe 1 a.ttl ++ a.local_ ++ dest
  else
    let head := [0x45#8] ++ natBe 1 a.service ++ natBe 2 (20 + n) ++ natBe 2 a.ident ++ natBe 2 0x4000 ++ natBe 1 a.ttl ++ [17#8]
    let addresses := a.local_.drop 12 ++ dest.drop 12
    head ++ natBe 2 (inetChecksum (head ++ addresses)) ++ addresses

/-- The frame of an RDMA READ request (R320): of `size` bytes at a remote address with a remote key. -/
def Addressing.readRequest (a : Addressing) (psn address rkey size : Nat) : Bytes :=
  let udp := natBe 2 (byteField a.entry 2 2) ++ natBe 2 4791 ++ natBe 2 40 ++ natBe 2 0
  let rest := [0x0C#8, 0x40#8, 0xFF#8, 0xFF#8, 0#8] ++ natBe 3 (byteField a.entry 8 3) ++ [0#8] ++ natBe 3 psn ++ natBe 8 address
    ++ natBe 4 rkey ++ natBe 4 size
  let ip := a.ip 40
  a.ethernet ++ ip ++ udp ++ rest ++ natLe 4 (invariantCrc ip udp rest).toNat

/-! ### Priority-based flow control (R319) -/

/-- The pause that a frame of IEEE 802.1Qbb gives a priority: its time in quanta of 512 bit times; none for any other frame. -/
def pauseOf (f : Bytes) (priority : Nat) : Option Nat :=
  if beField f 12 2 = 0x8808 ∧ beField f 14 2 = 0x0101 ∧ (beField f 16 2).testBit priority = true then some (beField f (18 + 2 * priority) 2)
  else none

/-- Whether a frame is one of priority-based flow control. -/
def isPause (f : Bytes) : Bool := decide (beField f 12 2 = 0x8808) && decide (beField f 14 2 = 0x0101)

/-- Microseconds of a pause at 800 Gb/s, rounded up. -/
def pauseTime (quanta : Nat) : Nat := (quanta * 512 + 799999) / 800000

end Sys2Proof.Machine
end

