-- ==== Sys2Proof/Machine/TransportStream.lean ====
section
/-! DEFINITION. The demux for transport streams (R325, R342) under ISO/IEC 13818-1: packets and their lock, the PAT and the PMT of a
programme, PES packets with their presentation times, and the damage events on a selected PID. Field places and table identifiers are
those of ISO/IEC 13818-1 (log entry 101, PRESUMED). -/

namespace Sys2Proof.Machine

/-- What the demux hands on of a stream: a PES packet or an ISO sample. Its presentation time (90 kHz) where one is known, whether its data
is damaged, whether it is a sync sample of an ISO file. -/
structure StreamUnit where
  time    : Option Nat
  damaged : Bool
  sync    : Bool
deriving DecidableEq, Repr

/-- The codecs of Table 13.5 for video. -/
inductive VideoCodec where
  | mpeg2 | avc | hevc | vp9 | av1
deriving DecidableEq, Repr

/-- The codecs of Table 13.5 for audio. -/
inductive AudioCodec where
  | layer2 | aac | ac3
deriving DecidableEq, Repr

/-- A stream that was selected: its codec (none: outside Table 13.5, or protected or scrambled) and its units. -/
structure Selected (α : Type) where
  codec : Option α
  units : List StreamUnit

/-- What the demux made of a sample: its streams and its damage events. Without AUDIO_SEL there is no audio. -/
structure Programme where
  video  : Selected VideoCodec
  audio  : Option (Selected AudioCodec)
  events : Nat

/-! ### Packets -/

/-- Whether three sync bytes stand at 188-byte spacing. -/
def tsLock (b : Bytes) : Bool := [0, 188, 376].all (fun i => decide (b[i]? = some 0x47#8))

/-- The packets of a stream (R325): found where three sync bytes lock, then one after the other until a sync byte is missing. -/
def tsPackets : Nat → Bool → Bytes → List Bytes
  | 0, _, _ => []
  | n + 1, locked, b =>
    if b.length < 188 then []
    else if locked then
      (if b.head? = some 0x47#8 then b.take 188 :: tsPackets n true (b.drop 188) else tsPackets n false b)
    else if tsLock b then tsPackets n true b
    else tsPackets n false (b.drop 1)

/-- PID of a packet. -/
def tsPid (p : Bytes) : Nat := beField p 1 2 % 2 ^ 13
/-- transport_error_indicator. -/
def tsError (p : Bytes) : Bool := (beField p 1 1).testBit 7
/-- payload_unit_start_indicator. -/
def tsStart (p : Bytes) : Bool := (beField p 1 1).testBit 6
/-- transport_scrambling_control. -/
def tsScrambled (p : Bytes) : Bool := decide (field (beField p 3 1) 6 2 ≠ 0)
/-- continuity_counter. -/
def tsCounter (p : Bytes) : Nat := beField p 3 1 % 16
/-- Whether a packet holds an adaptation field. -/
def tsAdapts (p : Bytes) : Bool := (beField p 3 1).testBit 5
/-- Whether a packet holds payload. -/
def tsCarries (p : Bytes) : Bool := (beField p 3 1).testBit 4
/-- discontinuity_indicator. -/
def tsDiscontinuity (p : Bytes) : Bool := tsAdapts p && decide (0 < beField p 4 1) && (beField p 5 1).testBit 7
/-- The payload of a packet. -/
def tsPayload (p : Bytes) : Bytes := if tsCarries p then p.drop (if tsAdapts p then 5 + beField p 4 1 else 4) else []

/-! ### Program specific information -/

/-- One byte of the CRC of a PSI section (Annex A of ISO/IEC 13818-1). -/
def psiCrcByte (c : W32) (b : Byte) : W32 :=
  (natsFrom 0 8).foldl (fun (c : W32) _ => if c.msb then (c <<< 1) ^^^ 0x04C11DB7#32 else c <<< 1) (c ^^^ (b.setWidth 32 <<< 24))

/-- The payload runs of a PID between the starts of sections. -/
def psiRuns (ps : List Bytes) : List Bytes :=
  let r := ps.foldl (fun (a : List Bytes × Bytes) (p : Bytes) =>
    let d := tsPayload p
    if tsStart p then
      let k := beField d 0 1
      (a.1 ++ [a.2 ++ (d.drop 1).take k], d.drop (1 + k))
    else (a.1, a.2 ++ d)) (([], []) : List Bytes × Bytes)
  r.1 ++ [r.2]

/-- The sections of a run that are whole and pass their CRC; stuffing ends it. -/
def psiSections : Nat → Bytes → List Bytes
  | 0, _ => []
  | n + 1, b =>
    let size := 3 + beField b 1 2 % 4096
    if b.length < size ∨ b.head? = some 0xFF#8 then []
    else
      let rest := psiSections n (b.drop size)
      if (b.take size).foldl psiCrcByte 0xFFFFFFFF#32 = 0#32 then b.take size :: rest else rest

/-- The sections of a PID with a table identifier that apply now. -/
def tsSections (ps : List Bytes) (pid table : Nat) : List Bytes :=
  ((psiRuns (ps.filter (fun p => decide (tsPid p = pid) && !tsError p))).flatMap (fun (r : Bytes) => psiSections r.length r)).filter
    (fun b => decide (beField b 0 1 = table) && (beField b 5 1).testBit 0 && decide (12 ≤ b.length))

/-- The PID of the PMT of a programme by the PAT. -/
def pmtPid (ps : List Bytes) (program : Nat) : Option Nat :=
  ((tsSections ps 0 0).flatMap (fun (b : Bytes) =>
    (natsFrom 0 ((b.length - 12) / 4)).filterMap (fun i =>
      if beField b (8 + 4 * i) 2 = program then some (beField b (10 + 4 * i) 2 % 2 ^ 13) else none))).head?

/-- An elementary stream of a PMT: stream type, PID, descriptors. -/
structure Elementary where
  type        : Nat
  pid         : Nat
  descriptors : Bytes

/-- The elementary streams of a PMT's loop. -/
def pmtStreams : Nat → Bytes → List Elementary
  | 0, _ => []
  | n + 1, b =>
    if b.length < 5 then []
    else
      let k := beField b 3 2 % 4096
      ⟨beField b 0 1, beField b 1 2 % 2 ^ 13, (b.drop 5).take k⟩ :: pmtStreams n (b.drop (5 + k))

/-- The elementary streams of a programme: those of the first PMT that names it. -/
def programStreams (ps : List Bytes) (program : Nat) : List Elementary :=
  match pmtPid ps program with
  | none => []
  | some pid =>
    match (tsSections ps pid 2).find? (fun b => decide (beField b 3 2 = program)) with
    | none => []
    | some b => let d := (b.take (b.length - 4)).drop (12 + beField b 10 2 % 4096)
                pmtStreams d.length d

/-- Whether a list of descriptors holds a tag. -/
def hasDescriptor (tag : Nat) : Nat → Bytes → Bool
  | 0, _ => false
  | n + 1, b => decide (2 ≤ b.length) && (decide (beField b 0 1 = tag) || hasDescriptor tag n (b.drop (2 + beField b 1 1)))

/-- Whether a stream type of ISO/IEC 13818-1 is video. -/
def videoType (t : Nat) : Bool := [0x01, 0x02, 0x10, 0x1B, 0x1E, 0x1F, 0x20, 0x21, 0x22, 0x23, 0x24].contains t

/-- The video codec of a stream type (Table 13.5). -/
def videoOfType (t : Nat) : Option VideoCodec :=
  if t = 0x02 then some .mpeg2 else if t = 0x1B then some .avc else if t = 0x24 then some .hevc else none

/-- The audio codec of an elementary stream (Table 13.5). -/
def audioOfStream (e : Elementary) : Option AudioCodec :=
  if e.type = 0x03 ∨ e.type = 0x04 then some .layer2
  else if e.type = 0x0F then some .aac
  else if e.type = 0x81 ∨ (e.type = 0x06 ∧ hasDescriptor 0x6A e.descriptors.length e.descriptors = true) then some .ac3
  else none

/-! ### PES packets -/

/-- Whether the header of a PES packet is consistent. -/
def pesHeaderOk (b : Bytes) : Bool :=
  decide (9 ≤ b.length) && decide (beField b 0 3 = 1) && decide (field (beField b 6 1) 6 2 = 2) && decide (9 + beField b 8 1 ≤ b.length)
    && (!(beField b 7 1).testBit 7 || decide (5 ≤ beField b 8 1)) && decide (field (beField b 7 1) 6 2 ≠ 1)

/-- Whether the length of a PES packet that has ended is the one it gives; 0 gives none. -/
def pesLengthOk (b : Bytes) : Bool := decide (beField b 4 2 = 0) || decide (beField b 4 2 + 6 = b.length)

/-- The presentation time of a PES packet. -/
def pesTime (b : Bytes) : Option Nat :=
  if pesHeaderOk b && (beField b 7 1).testBit 7 then
    some (field (beField b 9 1) 1 3 * 2 ^ 30 + field (beField b 10 2) 1 15 * 2 ^ 15 + field (beField b 12 2) 1 15)
  else none

/-- PES reassembly of a PID: the units that are whole, the packet that is arriving and whether it is damaged, the last continuity counter
and whether its packet was repeated, damage events. -/
structure PesRun where
  units    : List StreamUnit
  data     : Option Bytes
  damaged  : Bool
  counter  : Option Nat
  repeated : Bool
  events   : Nat

/-- The PES packet that is arriving ends; one that the data's end cuts is not judged by its length. -/
def PesRun.close (r : PesRun) (whole : Bool) : PesRun :=
  match r.data with
  | none => r
  | some b =>
    let bad := !pesHeaderOk b || (whole && !pesLengthOk b)
    let time := (pesTime b).or (r.units.getLast?.bind StreamUnit.time)
    { r with units := r.units ++ [⟨time, r.damaged || bad, true⟩], data := none, damaged := false, events := r.events + bad.toNat }

/-- A damage event in the PES packet that is arriving. -/
def PesRun.damage (r : PesRun) : PesRun := { r with damaged := r.damaged || r.data.isSome, events := r.events + 1 }

/-- Take the payload of a packet. -/
def PesRun.append (r : PesRun) (p : Bytes) : PesRun :=
  if tsStart p && tsCarries p then { r.close true with data := some (tsPayload p) }
  else { r with data := r.data.map (fun b => b ++ tsPayload p) }

/-- Take a packet of the PID (R325, R342): a packet with payload raises the continuity counter by one, one that repeats the last is passed
over once; what breaks the count, and a transport error, is a damage event in the PES packet it falls in. -/
def PesRun.take (r : PesRun) (p : Bytes) : PesRun :=
  let c := tsCounter p
  if tsError p then { (r.append p).damage with counter := some c, repeated := false }
  else if !tsCarries p then (if tsDiscontinuity p then { r with counter := some c, repeated := false } else r)
  else if r.counter = some c ∧ r.repeated = false ∧ tsDiscontinuity p = false then { r with repeated := true }
  else
    let fits := r.counter.all (fun k => decide (c = (k + 1) % 16)) || tsDiscontinuity p
    { (if fits then r else r.damage).append p with counter := some c, repeated := false }

/-- The units of a PID and its damage events. -/
def pesUnits (ps : List Bytes) (pid : Nat) : List StreamUnit × Nat :=
  let r := ((ps.filter (fun p => decide (tsPid p = pid))).foldl PesRun.take ⟨[], none, false, none, false, 0⟩).close false
  (r.units, r.events)

/-- A stream of the programme: its codec unless it is scrambled, its units, its damage events. -/
def tsStream {α : Type} (ps : List Bytes) (pid : Nat) (codec : Option α) : Selected α × Nat :=
  let u := pesUnits ps pid
  let scrambled := ps.any (fun p => decide (tsPid p = pid) && !tsError p && tsScrambled p)
  (⟨if scrambled then none else codec, u.1⟩, u.2)

/-- Demultiplex a transport stream (R325): the first video stream of PROGRAM and the audio stream AUDIO_SEL. -/
def demuxTs (b : Bytes) (program audio : Nat) : Programme :=
  let ps := tsPackets (2 * b.length) false b
  let es := programStreams ps program
  let v : Selected VideoCodec × Nat := match es.find? (fun e => videoType e.type) with
    | none => (⟨none, []⟩, 0)
    | some e => tsStream ps e.pid (videoOfType e.type)
  let a : Option (Selected AudioCodec × Nat) := if audio = 0xFFFF then none
    else match es.find? (fun e => decide (e.pid = audio)) with
      | none => some (⟨none, []⟩, 0)
      | some e => some (tsStream ps e.pid (audioOfStream e))
  ⟨v.1, a.map Prod.fst, v.2 + (a.map Prod.snd).getD 0⟩

end Sys2Proof.Machine
end

