-- ==== Sys2Proof/Machine/BaseMedia.lean ====
section
/-! DEFINITION. The demux for ISO base media files (R324, R326, R342) under ISO/IEC 14496-12: boxes, sample tables, movie fragments, sample
entries, and the samples of a track with their composition times. Box layouts are those of ISO/IEC 14496-12 (log entry 102, PRESUMED). -/

namespace Sys2Proof.Machine

/-- A box: its four-character code as a number, its content, and the place of its first byte in what it was read from. -/
structure MediaBox where
  kind : Nat
  body : Bytes
  at_  : Nat

/-- The four-character code of a text. -/
def fourCC (t : String) : Nat := t.toList.foldl (fun n c => 256 * n + c.toNat) 0

/-- The boxes of a run of bytes that starts at a place. A box that runs past its end holds what is there. -/
def mediaBoxes : Nat → Nat → Bytes → List MediaBox
  | 0, _, _ => []
  | n + 1, at_, b =>
    if b.length < 8 then []
    else
      let short := beField b 0 4
      let head := if short = 1 then 16 else 8
      let size := max head (if short = 0 then b.length else if short = 1 then beField b 8 8 else short)
      ⟨beField b 4 4, (b.take size).drop head, at_⟩ :: mediaBoxes n (at_ + size) (b.drop size)

/-- The boxes in a run. -/
def boxesIn (b : Bytes) : List MediaBox := mediaBoxes b.length 0 b

/-- The first box of a kind, by its content. -/
def boxBody (bs : List MediaBox) (kind : String) : Option Bytes := (bs.find? (fun x => decide (x.kind = fourCC kind))).map MediaBox.body

/-- The content of a box within boxes. -/
def boxAt : List String → Bytes → Option Bytes
  | [], b => some b
  | k :: r, b => (boxBody (boxesIn b) k).bind (boxAt r)

/-- Entries of `size` bytes of a table whose count stands at byte `at_` and whose first entry follows it. -/
def tableRows (b : Bytes) (at_ size : Nat) : List Bytes :=
  (natsFrom 0 (min (beField b at_ 4) ((b.length - at_ - 4) / max size 1))).map (fun i => (b.drop (at_ + 4 + size * i)).take size)

/-- A signed number of 32 bits. -/
def signed32 (v : Nat) : Int := (BitVec.ofNat 32 v).toInt

/-! ### Tracks -/

/-- A sample of a track: its place and size in the file, composition time in the track's timescale, whether it is a sync sample. -/
structure MediaSample where
  offset : Nat
  size   : Nat
  time   : Int
  sync   : Bool

/-- track_ID of a track box. -/
def trackId (trak : Bytes) : Nat :=
  match boxBody (boxesIn trak) "tkhd" with
  | none => 0
  | some b => if beField b 0 1 = 1 then beField b 20 4 else beField b 12 4

/-- timescale of a track. -/
def trackScale (trak : Bytes) : Nat :=
  match boxAt ["mdia", "mdhd"] trak with
  | none => 0
  | some b => if beField b 0 1 = 1 then beField b 20 4 else beField b 12 4

/-- The sample entries of a track. -/
def trackEntries (trak : Bytes) : List MediaBox := ((boxAt ["mdia", "minf", "stbl", "stsd"] trak).map (fun b => boxesIn (b.drop 8))).getD []

/-- The codec of a track: that of every sample entry. -/
def trackCodec {α : Type} [DecidableEq α] (trak : Bytes) (codec : MediaBox → Option α) : Option α :=
  match (trackEntries trak).map codec with
  | [] => none
  | c :: r => if r.all (fun x => decide (x = c)) then c else none

/-- Run lengths and values spread out. -/
def spreadRuns (rows : List Bytes) : List Nat := rows.flatMap (fun (r : Bytes) => List.replicate (beField r 0 4) (beField r 4 4))

/-- The sums of a list before each of its elements. -/
def sumsBefore (a : Nat) : List Nat → List Nat
  | [] => []
  | x :: r => a :: sumsBefore (a + x) r

/-- Sample sizes (stsz, stz2). -/
def sampleSizes (stbl : List MediaBox) : List Nat :=
  match boxBody stbl "stsz", boxBody stbl "stz2" with
  | some b, _ =>
    if beField b 4 4 ≠ 0 then List.replicate (beField b 8 4) (beField b 4 4) else (tableRows b 8 4).map (fun r => beField r 0 4)
  | none, some b =>
    let bits := beField b 7 1
    if bits = 4 then
      ((natsFrom 0 (min (beField b 8 4) (2 * (b.length - 12)))).map (fun i => field (beField b (12 + i / 2) 1) (4 - 4 * (i % 2)) 4))
    else (tableRows b 8 (bits / 8)).map (fun r => beField r 0 (bits / 8))
  | none, none => []

/-- Chunk offsets (stco, co64). -/
def chunkOffsets (stbl : List MediaBox) : List Nat :=
  match boxBody stbl "stco", boxBody stbl "co64" with
  | some b, _ => (tableRows b 4 4).map (fun r => beField r 0 4)
  | none, some b => (tableRows b 4 8).map (fun r => beField r 0 8)
  | none, none => []

/-- Samples of chunk `c` (from 1): those of the last run of stsc that starts at or before it. -/
def samplesPerChunk (rows : List Bytes) (c : Nat) : Nat :=
  ((rows.filter (fun r => decide (beField r 0 4 ≤ c))).getLast?.map (fun r => beField r 4 4)).getD 0

/-- Places of the samples: chunk by chunk, one after the other. -/
def samplePlaces (rows : List Bytes) : Nat → List Nat → List Nat → List Nat
  | _, [], _ => []
  | c, o :: r, sizes =>
    let n := samplesPerChunk rows c
    sumsBefore o (sizes.take n) ++ samplePlaces rows (c + 1) r (sizes.drop n)

/-- The samples of a track's sample table. -/
def tableSamples (trak : Bytes) : List MediaSample :=
  match boxAt ["mdia", "minf", "stbl"] trak with
  | none => []
  | some b =>
    let stbl := boxesIn b
    let rows := fun (k : String) (at_ size : Nat) => ((boxBody stbl k).map (fun b => tableRows b at_ size)).getD []
    let sizes := sampleSizes stbl
    let places := samplePlaces (rows "stsc" 4 12) 1 (chunkOffsets stbl) sizes
    let times := sumsBefore 0 (spreadRuns (rows "stts" 4 8))
    let shifts := spreadRuns (rows "ctts" 4 8)
    let sync := (boxBody stbl "stss").map (fun b => (tableRows b 4 4).map (fun r => beField r 0 4))
    ((natsFrom 0 sizes.length).zip (sizes.zip (places ++ List.replicate sizes.length (2 ^ 64)))).map (fun (x : Nat × Nat × Nat) =>
      ⟨x.2.2, x.2.1, (times.getD x.1 0 : Nat) + signed32 (shifts.getD x.1 0), sync.all (fun l => l.contains (x.1 + 1))⟩)

/-! ### Movie fragments -/

/-- The fields of a tfhd that are there: base data offset, default duration, size and flags; whether the base is the moof box. -/
structure FragmentHead where
  track    : Nat
  base     : Option Nat
  duration : Nat
  size     : Nat
  flags    : Nat
  fromMoof : Bool

/-- Places of the optional fields of a run of fields: each is present by a flag and has a size. -/
def fieldPlaces (flags : Nat) : Nat → List (Nat × Nat) → List (Option Nat)
  | _, [] => []
  | at_, (bit, size) :: r => if flags.testBit bit then some at_ :: fieldPlaces flags (at_ + size) r else none :: fieldPlaces flags at_ r

/-- A field at a place, 0 where it is absent. -/
def fieldAt (b : Bytes) (places : List (Option Nat)) (i n : Nat) : Nat := ((places.getD i none).map (fun p => beField b p n)).getD 0

/-- A tfhd box. -/
def fragmentHead (b : Bytes) : FragmentHead :=
  let flags := beField b 1 3
  let ps := fieldPlaces flags 8 [(0, 8), (1, 4), (3, 4), (4, 4), (5, 4)]
  ⟨beField b 4 4, (ps.getD 0 none).map (fun p => beField b p 8), fieldAt b ps 2 4, fieldAt b ps 3 4, fieldAt b ps 4 4, flags.testBit 17⟩

/-- What a track fragment has come to: the samples, the next decode time, the place where the next run's data starts. -/
structure FragmentRun where
  samples : List MediaSample
  time    : Nat
  next    : Nat

/-- The samples of a trun box. -/
def FragmentRun.take (h : FragmentHead) (base : Nat) (r : FragmentRun) (b : Bytes) : FragmentRun :=
  let flags := beField b 1 3
  let head := fieldPlaces flags 8 [(0, 4), (2, 4)]
  let first := 8 + 4 * (flags.testBit 0).toNat + 4 * (flags.testBit 2).toNat
  let size := 4 * ((natsFrom 8 4).map (fun i => (flags.testBit i).toNat)).sum
  let start := if flags.testBit 0 then ((base : Int) + signed32 (fieldAt b head 0 4)).toNat else r.next
  let count := if size = 0 then beField b 4 4 else min (beField b 4 4) ((b.length - first) / size)
  (natsFrom 0 count).foldl (fun (r : FragmentRun) (i : Nat) =>
    let ps := fieldPlaces flags (first + size * i) [(8, 4), (9, 4), (10, 4), (11, 4)]
    let size := if flags.testBit 9 then fieldAt b ps 1 4 else h.size
    let mark := if i = 0 ∧ flags.testBit 2 then fieldAt b head 1 4 else if flags.testBit 10 then fieldAt b ps 2 4 else h.flags
    let t : MediaSample := ⟨r.next, size, (r.time : Nat) + signed32 (fieldAt b ps 3 4), !mark.testBit 16⟩
    ⟨r.samples ++ [t], r.time + (if flags.testBit 8 then fieldAt b ps 0 4 else h.duration), r.next + size⟩) { r with next := start }

/-- The track fragments of a moof box at a place, for a track: `time` the decode time that goes on without a tfdt. -/
def moofSamples (moof : MediaBox) (track time : Nat) : FragmentRun :=
  (boxesIn moof.body).foldl (fun (r : FragmentRun) (traf : MediaBox) =>
    let bs := boxesIn traf.body
    match if traf.kind = fourCC "traf" then boxBody bs "tfhd" else none with
    | none => r
    | some hd =>
      let h := fragmentHead hd
      let base := h.base.getD (if h.fromMoof then moof.at_ else r.next)
      let start := match boxBody bs "tfdt" with
        | none => r.time
        | some b => if beField b 0 1 = 1 then beField b 4 8 else beField b 4 4
      let q := (bs.filter (fun x => decide (x.kind = fourCC "trun"))).foldl (fun (q : FragmentRun) (x : MediaBox) =>
        q.take h base x.body) ⟨[], start, base⟩
      if h.track = track then ⟨r.samples ++ q.samples, q.time, q.next⟩ else { r with next := q.next })
    ⟨[], time, moof.at_⟩

/-- The samples of a track: those of its sample table, then those of the movie fragments. -/
def trackSamples (top : List MediaBox) (trak : Bytes) : List MediaSample :=
  let id := trackId trak
  let first := tableSamples trak
  let time := ((boxAt ["mdia", "minf", "stbl", "stts"] trak).map (fun b => (spreadRuns (tableRows b 4 8)).sum)).getD 0
  ((top.filter (fun x => decide (x.kind = fourCC "moof"))).foldl (fun (a : List MediaSample × Nat) (x : MediaBox) =>
    let r := moofSamples x id a.2
    (a.1 ++ r.samples, r.time)) (first, time)).1

/-! ### Sample entries (Table 13.5) -/

/-- The video codec of a sample entry; encv is protected. -/
def videoOfEntry (e : MediaBox) : Option VideoCodec :=
  if e.kind = fourCC "avc1" ∨ e.kind = fourCC "avc3" then some .avc
  else if e.kind = fourCC "hvc1" ∨ e.kind = fourCC "hev1" then some .hevc
  else if e.kind = fourCC "vp09" then some .vp9
  else if e.kind = fourCC "av01" then some .av1
  else none

/-- The content of a descriptor of ISO/IEC 14496-1 with a tag, at the front of a run: its length has seven bits a byte. -/
def descriptorBody (tag : Nat) (b : Bytes) : Option Bytes :=
  if beField b 0 1 ≠ tag then none
  else
    let more := ((b.drop 1).takeWhile (fun x => x.msb)).length
    some (b.drop (2 + more))

/-- Whether an esds box is that of AAC-LC: object type indication 0x40 and audio object type 2. -/
def esdsAacLc (b : Bytes) : Bool :=
  match descriptorBody 3 (b.drop 4) with
  | none => false
  | some es =>
    let flags := beField es 2 1
    let at_ := 3 + 2 * (flags.testBit 7).toNat + (if flags.testBit 6 then 1 + beField es 3 1 else 0) + 2 * (flags.testBit 5).toNat
    match descriptorBody 4 (es.drop at_) with
    | none => false
    | some d =>
      match descriptorBody 5 (d.drop 13) with
      | none => false
      | some c => decide (beField d 0 1 = 0x40) && decide (field (beField c 0 1) 3 5 = 2)

/-- The audio codec of a sample entry; enca is protected. -/
def audioOfEntry (e : MediaBox) : Option AudioCodec :=
  if e.kind = fourCC "ac-3" then some .ac3
  else if e.kind = fourCC "mp4a" ∧ ((boxBody (boxesIn (e.body.drop 28)) "esds").map esdsAacLc).getD false = true then some .aac
  else none

/-! ### The file -/

/-- P of a composition time (R324). -/
def mediaTime (ct : Int) (scale : Nat) : Nat := (ct * 90000 / (scale : Int) % (2 ^ 33 : Int)).toNat

/-- A track of the file: its codec, its units, and the samples that run past the data read, each a damage event (R342). -/
def mediaStream {α : Type} [DecidableEq α] (top : List MediaBox) (length : Nat) (trak : Bytes) (codec : MediaBox → Option α) : Selected α × Nat :=
  let xs := trackSamples top trak
  let past := fun (x : MediaSample) => decide (length < x.offset + x.size)
  (⟨trackCodec trak codec, xs.map (fun x => ⟨some (mediaTime x.time (trackScale trak)), past x, x.sync⟩)⟩, (xs.filter past).length)

/-- Demultiplex an ISO base media file (R326): the video track PROGRAM and the audio track AUDIO_SEL. -/
def demuxMedia (b : Bytes) (program audio : Nat) : Programme :=
  let top := boxesIn b
  let traks := (boxesIn ((boxBody top "moov").getD [])).filter (fun x => decide (x.kind = fourCC "trak"))
  let find := fun (id : Nat) => (traks.find? (fun x => decide (trackId x.body = id))).map MediaBox.body
  let v : Selected VideoCodec × Nat := match find program with
    | none => (⟨none, []⟩, 0)
    | some t => mediaStream top b.length t videoOfEntry
  let a : Option (Selected AudioCodec × Nat) := if audio = 0xFFFF then none
    else match find audio with
      | none => some (⟨none, []⟩, 0)
      | some t => some (mediaStream top b.length t audioOfEntry)
  ⟨v.1, a.map Prod.fst, v.2 + (a.map Prod.snd).getD 0⟩

end Sys2Proof.Machine
end

