-- ==== Sys2Proof/Machine/Captions.lean ====
section
/-! DEFINITION. The caption extractors (R340): CTA-608 CC1 and CTA-708 service 1, from the cc_data constructs of the pictures of the
window in presentation order: cc_valid, cc_type and two bytes. -/

namespace Sys2Proof.Machine

/-- A cc_data construct. -/
abbrev Cc := Bool × Nat × Nat × Nat

/-- The UTF-8 encoding of a character. -/
def utf8 (c : Nat) : Bytes :=
  let c := c % 0x110000
  let tail (n : Nat) : Byte := BitVec.ofNat 8 (128 + c / 64 ^ n % 64)
  if c < 0x80 then [BitVec.ofNat 8 c]
  else if c < 0x800 then [BitVec.ofNat 8 (0xC0 + c / 64), tail 0]
  else if c < 0x10000 then [BitVec.ofNat 8 (0xE0 + c / 4096), tail 1, tail 0]
  else [BitVec.ofNat 8 (0xF0 + c / 262144), tail 2, tail 1, tail 0]

/-- What an extractor has made so far: characters in order (each its bytes), dropped bytes, damage events. -/
structure CaptionOut where
  chars   : List Bytes
  dropped : Nat
  events  : Nat

/-- A line feed. -/
def lineFeed : Bytes := [0x0A#8]

/-! ### CTA-608 -/

/-- Whether a byte has odd parity. -/
def oddParity (b : Nat) : Bool := decide (((natsFrom 0 8).map (fun i => field b i 1)).sum % 2 = 1)

/-- The value that a table gives a code; a code without a row is open. -/
def charOf (table : List (Nat × Nat)) (code other : Nat) : Nat :=
  ((table.find? (fun e => decide (e.1 = code))).map Prod.snd).getD other

/-- Characters of consecutive codes. -/
def charsFrom (first : Nat) (cs : List Nat) : List (Nat × Nat) := (natsFrom first cs.length).zip cs

/-- The characters of the basic set that ASCII has elsewhere (CTA-608; log entry 10, PRESUMED). -/
def basicTable : List (Nat × Nat) :=
  [(0x27, 0x2019), (0x2A, 0xE1), (0x5C, 0xE9), (0x5E, 0xED), (0x5F, 0xF3), (0x60, 0xFA), (0x7B, 0xE7), (0x7C, 0xF7), (0x7D, 0xD1),
   (0x7E, 0xF1), (0x7F, 0x2588)]

/-- A character of the basic set. -/
def basicChar (b : Nat) : Nat := charOf basicTable b b

/-- The special characters, codes 0x30 to 0x3F after 0x11 (CTA-608; log entry 10, PRESUMED). -/
def specialTable : List (Nat × Nat) :=
  charsFrom 0x30 [0xAE, 0xB0, 0xBD, 0xBF, 0x2122, 0xA2, 0xA3, 0x266A, 0xE0, 0xA0, 0xE8, 0xE2, 0xEA, 0xEE, 0xF4, 0xFB]

/-- The extended characters, codes 0x20 to 0x3F after 0x12: Spanish, miscellaneous and French (CTA-608; log entry 10, PRESUMED). -/
def extendedWest : List (Nat × Nat) :=
  charsFrom 0x20 [0xC1, 0xC9, 0xD3, 0xDA, 0xDC, 0xFC, 0x2018, 0xA1, 0x2A, 0x27, 0x2014, 0xA9, 0x2120, 0x2022, 0x201C, 0x201D]
    ++ charsFrom 0x30 [0xC0, 0xC2, 0xC7, 0xC8, 0xCA, 0xCB, 0xEB, 0xCE, 0xCF, 0xEF, 0xD4, 0xD9, 0xF9, 0xDB, 0xAB, 0xBB]

/-- The extended characters, codes 0x20 to 0x3F after 0x13: Portuguese, German and Danish (CTA-608; log entry 10, PRESUMED). -/
def extendedNorth : List (Nat × Nat) :=
  charsFrom 0x20 [0xC3, 0xE3, 0xCD, 0xCC, 0xEC, 0xD2, 0xF2, 0xD5, 0xF5, 0x7B, 0x7D, 0x5C, 0x5E, 0x5F, 0x7C, 0x7E]
    ++ charsFrom 0x30 [0xC4, 0xE4, 0xD6, 0xF6, 0xDF, 0xA5, 0xA4, 0x2502, 0xC5, 0xE5, 0xD8, 0xF8, 0x250C, 0x2510, 0x2514, 0x2518]

/-- The state of the CTA-608 extractor: what it made, whether data channel 1 is current, the control pair just taken. -/
structure Cc608 where
  out  : CaptionOut
  one  : Bool
  last : Option (Nat × Nat)

/-- Emit one line feed, unless one was emitted just before. -/
def CaptionOut.feed (o : CaptionOut) : CaptionOut :=
  if o.chars.getLast? = some lineFeed then o else { o with chars := o.chars ++ [lineFeed] }

/-- Emit a character. -/
def CaptionOut.char (o : CaptionOut) (c : Nat) : CaptionOut := { o with chars := o.chars ++ [utf8 c] }

/-- An extended character replaces the character before it. -/
def CaptionOut.replace (o : CaptionOut) (c : Nat) : CaptionOut :=
  { o with chars := (if o.chars.getLast? = some lineFeed then o.chars else o.chars.dropLast) ++ [utf8 c] }

/-- A control pair of data channel 1 (its first byte without the channel bit). -/
def control608 (o : CaptionOut) (a b : Nat) : CaptionOut :=
  if a = 0x14 ∧ (b = 0x2C ∨ b = 0x2D ∨ b = 0x2F) then o.feed
  else if a = 0x11 ∧ 0x30 ≤ b ∧ b < 0x40 then o.char (charOf specialTable b 0)
  else if a = 0x12 ∧ 0x20 ≤ b ∧ b < 0x40 then o.replace (charOf extendedWest b 0)
  else if a = 0x13 ∧ 0x20 ≤ b ∧ b < 0x40 then o.replace (charOf extendedNorth b 0)
  else o

/-- A character byte. -/
def text608 (st : Cc608) (b : Nat) : Cc608 := if 0x20 ≤ b ∧ st.one = true then { st with out := st.out.char (basicChar b) } else st

/-- A pair with broken parity (R342): the bytes that it affects are dropped and counted: each byte that breaks it, and both of a control
code whose second byte does; a character byte that stands whole passes. -/
def broken608 (st : Cc608) (p : Nat × Nat) : Cc608 :=
  let a := p.1 % 128
  let drop := fun (n : Nat) => { st with out := { st.out with dropped := st.out.dropped + n, events := st.out.events + 1 }, last := none }
  if oddParity p.1 then (if a < 0x20 ∧ a ≠ 0 then drop 2 else text608 (drop 1) a)
  else if oddParity p.2 then text608 (drop 1) (p.2 % 128)
  else drop 2

/-- Take one pair of field 1: broken parity drops what it affects; null pairs are skipped; a control pair repeated at once counts once. -/
def pair608 (st : Cc608) (p : Nat × Nat) : Cc608 :=
  if !(oddParity p.1 && oddParity p.2) then broken608 st p
  else
    let a := p.1 % 128
    let b := p.2 % 128
    if a = 0 ∧ b = 0 then st
    else if 0x10 ≤ a ∧ a < 0x20 then
      if st.last = some (a, b) then { st with last := none }
      else
        let one := decide (a < 0x18)
        { out := if one then control608 st.out a b else st.out, one := one, last := some (a, b) }
    else text608 (text608 { st with last := none } a) b

/-- CTA-608 CC1. -/
def captions608 (cs : List Cc) : CaptionOut :=
  let ps := cs.filterMap (fun c => if c.1 && decide (c.2.1 = 0) then some c.2.2 else none)
  (ps.foldl pair608 ⟨⟨[], 0, 0⟩, true, none⟩).out

/-! ### CTA-708 -/

/-- The state of DTVCC assembly: what came of it, the packet that is arriving, the bytes it is to have, the sequence number expected,
the bytes of service 1. -/
structure Dtvcc where
  out     : CaptionOut
  packet  : List Nat
  want    : Nat
  expect  : Option Nat
  service : List Nat

/-- The bytes of service 1 in a packet's service blocks: a block header holds the service number [7:5] and the size [4:0]; number 7
with a size has a second header byte. -/
def serviceOne : List Nat → Nat → List Nat
  | _, 0 => []
  | [], _ => []
  | h :: r, n + 1 =>
    let size := h % 32
    if size = 0 then []
    else if h / 32 = 7 then
      match r with
      | [] => []
      | x :: r => (if x % 64 = 1 then r.take size else []) ++ serviceOne (r.drop size) n
    else (if h / 32 = 1 then r.take size else []) ++ serviceOne (r.drop size) n

/-- A packet that is complete: its service blocks are taken. -/
def Dtvcc.close (d : Dtvcc) : Dtvcc :=
  if d.want ≠ 0 ∧ d.want ≤ d.packet.length then
    { d with service := d.service ++ serviceOne (d.packet.take d.want) 128, packet := [], want := 0 }
  else d

/-- A packet that ends short is dropped. -/
def Dtvcc.cut (d : Dtvcc) : Dtvcc :=
  if d.want = 0 then d
  else { d with out := { d.out with dropped := d.out.dropped + d.packet.length, events := d.out.events + 1 }, packet := [], want := 0 }

/-- Take one pair of type 3 (a packet starts) or 2 (it goes on). -/
def pair708 (d : Dtvcc) (c : Nat × Nat × Nat) : Dtvcc :=
  if c.1 = 3 then
    let d := d.cut
    let code := c.2.1 % 64
    let seq := c.2.1 / 64
    let broken := decide (d.expect ≠ none ∧ d.expect ≠ some seq)
    let out := if broken then { d.out with events := d.out.events + 1 } else d.out
    Dtvcc.close { d with out := out, packet := [c.2.2], want := if code = 0 then 127 else 2 * code - 1, expect := some ((seq + 1) % 4) }
  else if d.want = 0 then d
  else Dtvcc.close { d with packet := d.packet ++ [c.2.1, c.2.2] }

/-- Bytes that follow a code of C1. -/
def c1Params (b : Nat) : Nat :=
  if b < 0x88 then 0 else if b < 0x8E then 1 else if b < 0x90 then 0 else if b = 0x90 then 2 else if b = 0x91 then 3
  else if b = 0x92 then 2 else if b < 0x97 then 0 else if b = 0x97 then 4 else 6

/-- Bytes that follow a code of C2 or C3 reached through EXT1. -/
def extParams (b : Nat) : Nat :=
  if b < 0x08 then 0 else if b < 0x10 then 1 else if b < 0x18 then 2 else if b < 0x20 then 3
  else if 0x80 ≤ b ∧ b < 0x88 then 4 else if 0x88 ≤ b ∧ b < 0x90 then 5 else 0

/-- The characters of G2 (CTA-708; log entry 10, PRESUMED). -/
def g2Table : List (Nat × Nat) :=
  [(0x20, 0x20), (0x21, 0xA0), (0x25, 0x2026), (0x2A, 0x160), (0x2C, 0x152), (0x30, 0x2588), (0x31, 0x2018), (0x32, 0x2019), (0x33, 0x201C),
   (0x34, 0x201D), (0x35, 0x2022), (0x39, 0x2122), (0x3A, 0x161), (0x3C, 0x153), (0x3D, 0x2120), (0x3F, 0x178), (0x76, 0x215B),
   (0x77, 0x215C), (0x78, 0x215D), (0x79, 0x215E), (0x7A, 0x2502), (0x7B, 0x2510), (0x7C, 0x2514), (0x7D, 0x2500), (0x7E, 0x2518),
   (0x7F, 0x250C)]

/-- The characters of service 1's codes (R340); CTA-708 assigns no character to the other codes of G2 and G3, which are open (log entry 10,
PRESUMED). -/
def text708 : List Nat → Nat → List Bytes
  | _, 0 => []
  | [], _ => []
  | b :: r, n + 1 =>
    if b = 0x0D ∨ b = 0x03 then lineFeed :: text708 r n
    else if b = 0x10 then
      match r with
      | [] => []
      | x :: r =>
        if (0x20 ≤ x ∧ x < 0x80) ∨ 0xA0 ≤ x then utf8 (charOf g2Table x (Config.freeCaption x)) :: text708 r n
        else text708 (r.drop (extParams x)) n
    else if b < 0x10 then text708 r n
    else if b < 0x18 then text708 (r.drop 1) n
    else if b < 0x20 then text708 (r.drop 2) n
    else if b < 0x7F then utf8 b :: text708 r n
    else if b = 0x7F then utf8 0x266A :: text708 r n
    else if b < 0xA0 then text708 (r.drop (c1Params b)) n
    else utf8 b :: text708 r n

/-- CTA-708 service 1. -/
def captions708 (cs : List Cc) : CaptionOut :=
  let ps := cs.filterMap (fun c => if c.1 && decide (c.2.1 = 2 ∨ c.2.1 = 3) then some c.2 else none)
  let d := ps.foldl pair708 ⟨⟨[], 0, 0⟩, [], 0, none, []⟩
  { d.out with chars := text708 d.service d.service.length }

/-- What CAPTION of the catalogue record selects. -/
def captionsOf (choice : Nat) (cs : List Cc) : CaptionOut :=
  if choice = 1 then captions608 cs else if choice = 2 then captions708 cs else ⟨[], 0, 0⟩

/-- The characters that fit into `n` bytes, from the first on: truncation at a character boundary. -/
def fitChars (n : Nat) : List Bytes → List Bytes
  | [] => []
  | c :: r => if c.length ≤ n then c :: fitChars (n - c.length) r else []

end Sys2Proof.Machine
end

