-- ==== Sys2Proof/Machine/Streams.lean ====
section
/-! DEFINITION. What a decoder makes of the streams of a sample: which streams it decodes (Tables 13.6 and 13.8), where decoding starts,
which pictures are put out, omitted, discarded or concealed (R329, R342), which are interlaced (R331), what an audio decoder starts with
and how its channels are named (R337, R338), and the damage events of Table 13.10. -/

namespace Sys2Proof.Machine

/-- Whether any of the units `a` to `b` is damaged. -/
def unitsDamaged (us : List StreamUnit) (a b : Nat) : Bool := ((us.drop a).take (b + 1 - a)).any StreamUnit.damaged

/-! ### Video (R328, R329, R331, R342) -/

/-- Whether a coded picture lies within Table 13.6, with the profile and level codes of its standard (log entry 103, PRESUMED). -/
def pictureFits (c : VideoCodec) (p : CodedPicture) : Bool :=
  let size := decide (p.width ≤ 4096) && decide (p.height ≤ 4096) && decide (p.width * p.height ≤ 8912896)
  let planes := decide (p.chroma = 1) || decide (p.chroma = 2)
  let bits := decide (p.depth = 8) || decide (p.depth = 10)
  !p.layered && size &&
    (match c with
     | .mpeg2 => (decide (p.profile = 4 ∧ p.chroma = 1) || (decide (p.profile = 1) && planes)) && [4, 6, 8, 10].contains p.level
         && decide (p.depth = 8) && decide (p.width ≤ 1920) && decide (p.height ≤ 1152)
     | .avc => (decide (p.profile = 66 ∧ p.constraints.testBit 1 = true) || [77, 100, 110, 122].contains p.profile) && decide (p.level ≤ 51)
         && planes && bits
     | .hevc => (decide ((p.profile = 1 ∨ p.profile = 2) ∧ p.constraints < 512) || decide (p.profile = 4 ∧ p.constraints = 0b0110100001))
         && decide (p.level ≤ 153) && planes && bits
     | .vp9 => (decide (p.profile = 0 ∧ p.depth = 8) || decide (p.profile = 2 ∧ p.depth = 10)) && decide (p.level ≤ 51)
         && decide (p.chroma = 1)
     | .av1 => decide (p.profile = 0) && decide (p.level ≤ 13) && (decide (p.chroma = 0) || decide (p.chroma = 1)) && bits)

/-- Whether a picture's bitstream signals field coding, MBAFF or a field structure (R331). -/
def pictureInterlaced (c : VideoCodec) (p : CodedPicture) : Bool :=
  match c with
  | .mpeg2 => !p.progressiveFrame || p.fieldPic
  | .avc => p.fieldPic || p.mbaff
  | .hevc => p.fieldSeq
  | _ => false

/-- Whether a payload is that of ATSC A/53 caption data from a place on: "GA94" and user data type code 3. -/
def isCaptionData (b : Bytes) (at_ : Nat) : Bool := decide (beField b at_ 4 = 0x47413934) && decide (beField b (at_ + 4) 1 = 3)

/-- The cc_data constructs from a place on: their count, then three bytes each (ATSC A/53). -/
def ccData (b : Bytes) (at_ : Nat) : List Cc :=
  let flags := beField b at_ 1
  if !flags.testBit 6 then []
  else
    (natsFrom 0 (min (flags % 32) ((b.length - (at_ + 2)) / 3))).map (fun i =>
      let m := beField b (at_ + 2 + 3 * i) 1
      (m.testBit 2, m % 4, beField b (at_ + 3 + 3 * i) 1, beField b (at_ + 4 + 3 * i) 1))

/-- The cc_data of one payload of a codec (R340): MPEG-2 user data, an SEI message or a metadata OBU of type ITU-T T.35 with country code
0xB5 and provider code 0x0031; VP9 carries none. -/
def ccOf (c : VideoCodec) (b : Bytes) : List Cc :=
  match c with
  | .vp9 => []
  | .mpeg2 => if isCaptionData b 0 then ccData b 5 else []
  | _ => if beField b 0 1 = 0xB5 ∧ beField b 1 2 = 0x0031 ∧ isCaptionData b 3 = true then ccData b 8 else []

/-- The presentation time of a picture: `ticks` after that of its unit; 0 where none is known. -/
def pictureTime (us : List StreamUnit) (p : CodedPicture) : Nat := (((us[p.unit]?).bind StreamUnit.time).getD 0 + p.ticks) % 2 ^ 33

/-- A plane whose samples are all one value. -/
def flatPlane (p : Plane) (v : Nat) : Plane := { p with rows := p.rows.map (fun r => r.map (fun _ => v)) }

/-- The picture that a coded picture decodes to: a monochrome one takes 2^(n-1) in both chroma planes (R329). -/
def decodedPicture (c : VideoCodec) (us : List StreamUnit) (p : CodedPicture) : Picture :=
  let grey := flatPlane p.luma (2 ^ (p.depth - 1))
  { pts := pictureTime us p, fieldTicks := p.fieldTicks, interlaced := pictureInterlaced c p, topFirst := p.topFirst, depth := p.depth,
    matrix := p.matrix, fullRange := p.fullRange, luma := p.luma, cb := if p.chroma = 0 then grey else p.cb,
    cr := if p.chroma = 0 then grey else p.cr, cc := p.user.flatMap (ccOf c) }

/-- Whether a picture is a random access point: a sync sample of an ISO file, a random access picture of a transport stream (log entry
104, DEDUCED). -/
def isRandom (iso : Bool) (us : List StreamUnit) (p : CodedPicture) : Bool :=
  if iso then ((us[p.unit]?).map StreamUnit.sync).getD false else p.random

/-- What becomes of a picture: it precedes the first random access point and is not decoded; it depends on a picture before that point; it
is a leading picture that may be discarded; it is put out; it is put out concealed. -/
inductive Fate where
  | before | omitted | discarded | shown | concealed
deriving DecidableEq, Repr

/-- The fate of a picture, given those of the pictures before it in decoding order (R329, R342): `begun` once a random access point has
been decoded, `second` once another one has. -/
def fateOf (us : List StreamUnit) (begun second : Bool) (fates : List Fate) (p : CodedPicture) : Fate :=
  if !begun then .before
  else
    let on := p.refs.map (fun r => fates[r]?)
    if on.any (fun f => decide (f = some .before) || decide (f = some .omitted)) then .omitted
    else if p.leading && !second then .discarded
    else if p.broken || on.any (fun f => decide (f = none) || decide (f = some .discarded)) || unitsDamaged us p.unit p.last then .concealed
    else .shown

/-- The fates of pictures in decoding order. -/
def fatesOf (iso : Bool) (us : List StreamUnit) (begun second : Bool) (fates : List Fate) : List CodedPicture → List Fate
  | [] => fates
  | p :: r =>
    let random := isRandom iso us p
    let second := second || (begun && random)
    let begun := begun || random
    fatesOf iso us begun second (fates ++ [fateOf us begun second fates p]) r

/-- Insert a picture in presentation order, relative to a time. -/
def insertPicture (start : Nat) (x : Picture × Bool) : List (Picture × Bool) → List (Picture × Bool)
  | [] => [x]
  | y :: r =>
    let key := fun (p : Picture) => (p.pts + 2 ^ 33 + 2 ^ 32 - start % 2 ^ 33) % 2 ^ 33
    if key x.1 < key y.1 then x :: y :: r else y :: insertPicture start x r

/-- Pictures in output order with the concealed ones replaced (R342): by the last picture put out, by mid grey when there is none. -/
def concealPictures : Option Picture → List (Picture × Bool) → List Picture
  | _, [] => []
  | last, (p, bad) :: r =>
    let q := if !bad then p
      else match last with
        | some l => { p with depth := l.depth, matrix := l.matrix, fullRange := l.fullRange, luma := l.luma, cb := l.cb, cr := l.cr }
        | none =>
          let v := 2 ^ (p.depth - 1)
          { p with luma := flatPlane p.luma v, cb := flatPlane p.cb v, cr := flatPlane p.cr v }
    q :: concealPictures (some q) r

/-- What the video of a sample came to: the pictures put out in output order, whether the window holds a random access point, how many
pictures of the window were omitted and how many were concealed, damage events of the decode engine. -/
structure VideoOut where
  pictures  : List Picture
  random    : Bool
  omitted   : Nat
  concealed : Nat
  events    : Nat

/-- Decode the video of a sample (R329, R342). Damage that the demux has counted is not counted again. -/
def videoOut (iso : Bool) (c : VideoCodec) (us : List StreamUnit) (start stop : Nat) (ps : List CodedPicture) : VideoOut :=
  let fs := ps.zip (fatesOf iso us false false [] ps)
  let inWindow := fun (p : CodedPicture) => inPtsWindow start stop (pictureTime us p)
  let out := (fs.filter (fun x => decide (x.2 = .shown) || decide (x.2 = .concealed))).map (fun x =>
    (decodedPicture c us x.1, decide (x.2 = .concealed)))
  { pictures := concealPictures none (out.foldl (fun l x => insertPicture start x l) []),
    random := fs.any (fun x => isRandom iso us x.1 && inWindow x.1),
    omitted := (fs.filter (fun x => decide (x.2 = .omitted) && inWindow x.1)).length,
    concealed := (fs.filter (fun x => decide (x.2 = .concealed))).length,
    events := (fs.filter (fun x => decide (x.2 = .concealed) && !unitsDamaged us x.1.unit x.1.last)).length }

/-! ### Audio (R337, R338, R342) -/

/-- Whether an audio frame lies within Table 13.8, with the codes of its standard (log entry 103, PRESUMED). -/
def audioFits (c : AudioCodec) (f : AudioFrame) : Bool :=
  !f.extended &&
    (match c with
     | .layer2 => decide (f.object = 2) && decide (f.mode ≤ 3) && [16000, 22050, 24000, 32000, 44100, 48000].contains f.rate
     | .aac => decide (f.object = 2) && decide (1 ≤ f.mode) && decide (f.mode ≤ 6)
         && [8000, 11025, 12000, 16000, 22050, 24000, 32000, 44100, 48000].contains f.rate
     | .ac3 => decide (f.object ≤ 8) && decide (f.mode ≤ 7) && [32000, 44100, 48000].contains f.rate)

/-- A channel of R338. -/
inductive Channel6 where
  | l | r | c | lfe | ls | rs
deriving DecidableEq, Repr

/-- The channels of a frame in the order of its stream, by its standard's assignment (log entry 103, PRESUMED); a single surround channel
stands for both; the second channel of dual-channel sound is not taken (R338; of AC-3 log entry 105, DESIGN CHOICE). -/
def channelNames (c : AudioCodec) (f : AudioFrame) : List (List Channel6) :=
  match c with
  | .layer2 => if f.mode = 3 then [[.c]] else if f.mode = 2 then [[.c], []] else [[.l], [.r]]
  | .aac =>
    match f.mode with
    | 1 => [[.c]]
    | 2 => [[.l], [.r]]
    | 3 => [[.c], [.l], [.r]]
    | 4 => [[.c], [.l], [.r], [.ls, .rs]]
    | 5 => [[.c], [.l], [.r], [.ls], [.rs]]
    | _ => [[.c], [.l], [.r], [.ls], [.rs], [.lfe]]
  | .ac3 =>
    (match f.mode with
     | 0 => [[.c], []]
     | 1 => [[.c]]
     | 2 => [[.l], [.r]]
     | 3 => [[.l], [.c], [.r]]
     | 4 => [[.l], [.r], [.ls, .rs]]
     | 5 => [[.l], [.c], [.r], [.ls, .rs]]
     | 6 => [[.l], [.r], [.ls], [.rs]]
     | _ => [[.l], [.c], [.r], [.ls], [.rs]]) ++ (if f.lfe then [[.lfe]] else [])

/-- Samples of one channel: as many as the frame has. -/
def fillTo (n : Nat) (l : List W32) : List W32 := (l ++ List.replicate (n - l.length) 0#32).take n

/-- A named channel of a frame: none where the frame does not carry it. -/
def namedChannel (c : AudioCodec) (f : AudioFrame) (x : Channel6) : Option (List W32) :=
  (((channelNames c f).zip f.samples).find? (fun p => p.1.contains x)).map (fun p => fillTo f.count p.2)

/-- An audio frame with its time; `zero` where its samples are +0 (R342); `gap` the samples of +0 that stand before it. -/
structure TimedFrame where
  frame : AudioFrame
  pts   : Nat
  zero  : Bool
  gap   : Nat

/-- The frames with their times: the first of a unit has the unit's time, a later one follows the frame before it. -/
def timedFrames (us : List StreamUnit) : Option (Nat × Nat × Nat × Nat) → List AudioFrame → List TimedFrame
  | _, [] => []
  | before, f :: r =>
    let own := (us[f.unit]?).bind StreamUnit.time
    -- the unit that times are counted from, its time, samples since, their rate
    let at_ : Nat × Nat × Nat × Nat := match before with
      | some (u, t, n, rate) => if u = f.unit ∨ own.isNone then (u, t, n, rate) else (f.unit, own.getD 0, 0, f.rate)
      | none => (f.unit, own.getD 0, 0, f.rate)
    let pts := (at_.2.1 + at_.2.2.1 * 90000 / at_.2.2.2) % 2 ^ 33
    ⟨f, pts, f.broken || unitsDamaged us f.unit f.last, 0⟩ :: timedFrames us (some (at_.1, at_.2.1, at_.2.2.1 + f.count, at_.2.2.2)) r

/-- The samples that are missing between two frames: where they lie apart by more than a frame duration plus 1 ms (Table 13.10). -/
def gapBetween (a b : TimedFrame) : Nat :=
  let apart := (b.pts + 2 ^ 33 - a.pts) % 2 ^ 33
  if 2 ^ 32 ≤ apart ∨ (apart - 90) * a.frame.rate ≤ a.frame.count * 90000 then 0 else apart * a.frame.rate / 90000 - a.frame.count

/-- The frames with the gaps before them. -/
def withGaps : Option TimedFrame → List TimedFrame → List TimedFrame
  | _, [] => []
  | before, f :: r =>
    let f := { f with gap := (before.map (fun a => gapBetween a f)).getD 0 }
    f :: withGaps (some f) r

/-- The frames from the one that decoding starts with (R338): the last that is not later than the start of the window, or the first in
the window. -/
def startingFrames (start stop : Nat) (fs : List TimedFrame) : List TimedFrame :=
  let early := fun (f : TimedFrame) => decide ((start + 2 ^ 33 - f.pts) % 2 ^ 33 < 2 ^ 32)
  let ks := (natsFrom 0 fs.length).filter (fun k => (fs[k]?.map early).getD false)
  match ks.getLast? with
  | some k => fs.drop k
  | none => fs.dropWhile (fun f => !inPtsWindow start stop f.pts)

/-- One named channel of a run of frames: none when no frame carries it. -/
def channelRun (c : AudioCodec) (fs : List TimedFrame) (x : Channel6) : Option (List W32) :=
  if fs.any (fun f => (namedChannel c f.frame x).isSome) then
    some (fs.flatMap (fun f => List.replicate f.gap 0#32 ++ (if f.zero then List.replicate f.frame.count 0#32
      else (namedChannel c f.frame x).getD (List.replicate f.frame.count 0#32))))
  else none

/-- What the audio of a sample came to: its PCM, frames that were replaced, damage events of the audio decoder. -/
structure AudioOut where
  pcm       : Option Pcm
  concealed : Nat
  events    : Nat

/-- Decode the audio of a sample (R337, R338, R342). -/
def audioOut (c : AudioCodec) (us : List StreamUnit) (start stop : Nat) (fs : List AudioFrame) : AudioOut :=
  let ts := withGaps none (startingFrames start stop (timedFrames us none fs))
  { pcm := ts.head?.map (fun f =>
      ⟨f.frame.rate, f.pts, channelRun c ts .l, channelRun c ts .r, channelRun c ts .c, channelRun c ts .lfe, channelRun c ts .ls,
       channelRun c ts .rs⟩),
    concealed := (ts.filter TimedFrame.zero).length,
    events := (ts.filter (fun f => f.zero && !unitsDamaged us f.frame.unit f.frame.last)).length
      + (ts.filter (fun f => decide (0 < f.gap))).length }

end Sys2Proof.Machine
end

