-- ==== Sys2Proof/Machine/Ingest.lean ====
section
/-! DEFINITION. The decoder of the data engine (R317-R324, R341-R343, R349): queue pairs and regions, chunk reads, slots under way, what a
decoder makes of a decoded sample, and the results it sends. -/

namespace Sys2Proof.Machine

/-! ### Queue pairs and regions -/

/-- An entry of QP_TABLE (Table 13.2). -/
def State.qpEntry (s : State) (port q : Nat) : Bytes := (s.dom (O.qpTable port)).bytes 0#8 (64 * q) 64
/-- An entry of REGION_TABLE (Table 13.3). -/
def State.region (s : State) (x : Nat) : Bytes := (s.dom O.regionTable).bytes 0#8 (32 * x) 32
/-- PORT_MASK of a region. -/
def regionMask (r : Bytes) : Nat := byteField r 0 1
/-- REGION_LENGTH. -/
def regionLength (r : Bytes) : Nat := byteField r 16 8

/-- Whether the fields of a region entry lie in their ranges. -/
def regionFits (r : Bytes) : Bool :=
  decide (regionMask r = 0)
    || (decide (regionMask r ≤ 3) && decide (1 ≤ byteField r 2 1) && decide (byteField r 1 1 + byteField r 2 1 ≤ 64)
        && decide (byteField r 3 1 = 0) && decide (byteField r 24 8 = 0))

/-- Whether the fields of a queue pair entry lie in their ranges. -/
def qpFits (e : Bytes) : Bool :=
  decide (byteField e 0 1 = 0) || decide (byteField e 0 1 = 2)
    || (decide (byteField e 0 1 = 1) && (decide (byteField e 1 1 = 4) || decide (byteField e 1 1 = 6)) && decide (byteField e 11 1 = 0)
        && decide (byteField e 15 1 = 0) && decide (byteField e 22 2 / 64 = 2) && decide (4 ≤ byteField e 40 1)
        && decide (byteField e 40 1 ≤ 20) && decide (1 ≤ byteField e 41 1) && decide (byteField e 41 1 ≤ 7)
        && decide (byteField e 42 22 = 0))

/-- A queue pair at run time. -/
def State.qp (s : State) (k : Nat) : QueuePair := s.data.qps.get QueuePair.fresh k
/-- Change a queue pair. -/
def State.modQp (s : State) (k : Nat) (f : QueuePair → QueuePair) : State :=
  s.modData (fun e => { e with qps := e.qps.set QueuePair.fresh k (f (s.qp k)) })

/-- Whether an ingest block is ON. -/
def State.ingestOn (s : State) (port : Nat) : Bool := s.domainOn (0x4C + port)

/-- Whether an ingest port is used: its block is ON and all four of its lanes pass (R352). -/
def State.ingestUsed (s : State) (port : Nat) : Bool := s.ingestOn port && decide (s.rd (O.lanesPassing (6 + port)) = 4)

/-- Whether a queue pair is live (Table 13.2). -/
def State.qpLive (s : State) (k : Nat) : Bool :=
  decide (byteField (s.qpEntry (k / 64) (k % 64)) 0 1 = 1) && !(s.qp k).failed && s.ingestUsed (k / 64)

/-- The list of queue pairs of a region (R322): those of I0, then the same entries of I1. -/
def State.regionQps (s : State) (x : Nat) : List Nat :=
  let r := s.region x
  [0, 1].flatMap (fun p => if (regionMask r).testBit p then natsFrom (64 * p + byteField r 1 1) (byteField r 2 1) else [])

/-- The first live queue pair of a list from a place on, cyclically, that is not `but`. -/
def State.liveFrom (s : State) (l : List Nat) (at_ : Nat) (but : Option Nat) : Option Nat :=
  (l.drop (at_ % max l.length 1) ++ l.take (at_ % max l.length 1)).find? (fun k => s.qpLive k && decide (some k ≠ but))

/-- The read timeout of a queue pair in µs: 4.096 µs × 2^TIMEOUT_EXP (R320). -/
def State.qpTimeout (s : State) (k : Nat) : Nat := (4096 * 2 ^ byteField (s.qpEntry (k / 64) (k % 64)) 40 1 + 999) / 1000

/-- Packets of a read response. -/
def psnCount (size : Nat) : Nat := max 1 ((size + 4095) / 4096)

/-- Bytes of the reads that are outstanding: room of the ingest ring that is taken. -/
def State.ingestBusy (s : State) : Nat := (s.data.qps.entries.map (fun e => (e.2.reads.map ChunkRead.size).sum)).sum

/-- What the requests of a queue pair are addressed with; identification and time to live are open (log entry 4, DESIGN CHOICE). -/
def State.addressing (s : State) (k : Nat) : Addressing × State :=
  let (ident, t) := s.free
  let (ttl, t) := t.free
  ({ entry := s.qpEntry (k / 64) (k % 64), mac := s.fuses.ingestMac.getD (k / 64) 0, local_ := (s.dom (O.ingestLocalAddr (k / 64))).bytes 0#8 0 16,
     vlan := s.rd O.ingestVlan, priority := s.rd O.ingestPfcPriority, ident := ident, ttl := ttl }, t)

/-- The request of a read. -/
def State.requestRead (s : State) (k : Nat) (r : ChunkRead) : State :=
  let rkey := byteField (s.region r.region) 4 4
  let (a, t) := s.addressing k
  t.put (.rdmaRead (k / 64) (k % 64) r.psn r.address rkey r.size (a.readRequest r.psn r.address rkey r.size))

/-- Whether priority-based flow control holds what a port would send (R319). -/
def State.paused (s : State) (port : Nat) : Bool := decide (s.now < s.data.pauses.get 0 port)

/-- Send one waiting read of a queue pair: at most 16 are outstanding (R320), within the room of the ring. -/
def State.startRead (s : State) (k : Nat) : Option State :=
  let q := s.qp k
  match q.waiting with
  | [] => none
  | r :: rest =>
    if 16 ≤ q.reads.length ∨ q.failed = true ∨ s.paused (k / 64) = true ∨ s.rd O.ingestRingPages * pageSize < s.ingestBusy + r.size then none
    else
      let r := { r with psn := q.psn, data := [] }
      let t := s.modQp k (fun q =>
        { q with psn := (q.psn + psnCount r.size) % 2 ^ 24, reads := q.reads ++ [r], waiting := rest,
                 due := if q.due.isNone then some (s.now + s.qpTimeout k) else q.due })
      some (t.requestRead k r)

/-- Send what a queue pair may send. -/
def State.startReads (s : State) (k : Nat) : Nat → State
  | 0 => s
  | n + 1 =>
    match s.startRead k with
    | none => s
    | some t => State.startReads t k n

/-- Send what every queue pair may send. -/
def State.startAll (s : State) : State := State.each (fun t k => t.startReads k 16) s (s.data.qps.entries.map Prod.fst)

/-! ### Results (R349) -/

/-- The counter of a drop cause that a decoder decides (Table 13.16). -/
def dropCounter (cause : Nat) : Nat :=
  match cause with
  | 1 => O.dropsRead
  | 2 => O.dropsCatalogue
  | 3 => O.dropsUnsupported
  | 4 => O.dropsEmpty
  | 5 => O.dropsDamage
  | _ => O.dropsClip

/-- Send a result to every sink of the replica; the own sink takes it within the package. -/
def State.sendResult (s : State) (u : Nat) (p : SlotPayload) : State :=
  State.each (fun (t : State) (d : Nat × Nat) => if d.2 = t.node.id then t.arrive u p else t.emit (.slotResult d.2 u p)) s s.sinkList

/-- Tell the other decoders that every slot of the epochs below one is done (R343): a clip notice with SOURCE_ID all ones. -/
def State.reportEpoch (s : State) (e : Nat) : State :=
  State.each (fun (t : State) (d : Nat × Nat) =>
    if d.2 = t.node.id then t else t.emit (.clipNotice d.2 t.ownDecoder (2 ^ 64 - 1) (e - 1))) s s.decoderList

/-- Send results in ascending stream index (R317). -/
def State.sendResults (s : State) : Nat → State
  | 0 => s
  | n + 1 =>
    match s.data.results.find? (fun r => decide (r.1 = s.data.nextSend)) with
    | none => s
    | some (u, p) =>
      let next := u + s.rd O.decoders
      let t := s.modData (fun e => { e with results := e.results.filter (fun r => decide (r.1 ≠ u)), kept := e.kept ++ [(u, p)],
                                            nextSend := next })
      let t := t.sendResult u p
      let t := if t.rd O.damagePolicy = 2 ∧ t.slotEpoch u < t.slotEpoch next then t.reportEpoch (t.slotEpoch next) else t
      State.sendResults t n

/-- A sink asks for the result of a slot again: it is kept until every sink has it (R349). -/
def State.sendAgain (s : State) (source u : Nat) : State :=
  match s.data.kept.find? (fun r => decide (r.1 = u)) with
  | none => s
  | some (_, p) => if s.isDecoder && s.sinkList.any (fun d => decide (d.2 = source)) then s.emit (.slotResult source u p) else s

/-- A slot is done with a result. -/
def State.finishSlot (s : State) (u : Nat) (p : SlotPayload) : State :=
  let t := s.modData (fun e => { e with jobs := e.jobs.filter (fun j => decide (j.u ≠ u)), results := e.results ++ [(u, p)] })
  t.sendResults t.data.results.length

/-- A slot becomes a drop (R341): counted, logged, and told to the sinks. Reads of it that wait are not sent any more. -/
def State.dropSlot (s : State) (u id cause : Nat) : State :=
  let t := State.each (fun (t : State) (k : Nat) =>
    t.modQp k (fun q => { q with waiting := q.waiting.filter (fun r => decide (r.u ≠ u)) })) s (s.data.qps.entries.map Prod.fst)
  ((t.logDrop u id cause).add (dropCounter cause) 1).finishSlot u (.drop id cause)

/-! ### Chunk reads (R322, R341) -/

/-- The slot under way with a stream index. -/
def State.job (s : State) (u : Nat) : Option DecodeJob := s.data.jobs.find? (fun j => decide (j.u = u))

/-- Place a chunk read with the queue pair of its place, or with the next live one of its region; without one it fails (R321). -/
def State.placeRead (s : State) (r : ChunkRead) (but : Option Nat) : State :=
  match s.liveFrom (s.regionQps r.region) (r.u + r.chunk) but with
  | some k => s.modQp k (fun q => { q with waiting := q.waiting ++ [r] })
  | none => if (s.job r.u).isSome then s.dropSlot r.u ((s.job r.u).elim 0 DecodeJob.id) 1 else s

/-- Read bytes of a region for a slot (R322): cut into chunks; a read beyond the region's end fails. -/
def State.readRegion (s : State) (u id x a l : Nat) : State :=
  let size := s.rd O.chunkBytes
  let r := s.region x
  let n := (l + size - 1) / size
  if regionMask r = 0 ∨ regionLength r < a + l then s.dropSlot u id 1
  else
    let t := s.modData (fun e => { e with jobs := e.jobs.map (fun j => if j.u = u then { j with left := n } else j) })
    (State.each (fun (t : State) (c : Nat) =>
      t.placeRead ⟨u, c, x, byteField r 8 8 + a + c * size, min size (l - c * size), 0, [], 0⟩ none) t (natsFrom 0 n)).startAll

/-- Whether a catalogue record is one that may be used (R323). -/
def State.catalogueFits (s : State) (r : Bytes) : Bool :=
  decide (natLe 4 (crc32c (r.take 60)).toNat = (r.drop 60).take 4) && decide (1 ≤ byteField r 8 8) && decide (byteField r 8 8 ≤ 2 ^ 34)
    && decide (byteField r 16 1 < 16) && decide (regionMask (s.region (byteField r 16 1)) ≠ 0)
    && (decide (byteField r 17 1 = 1) || decide (byteField r 17 1 = 2)) && decide (byteField r 22 1 ≤ 2) && decide (byteField r 23 1 = 0)
    && decide (byteField r 24 8 < 2 ^ 33) && decide (byteField r 32 8 < 2 ^ 33) && decide (byteField r 48 12 = 0)

/-- Whether a SOURCE_ID is on the clip list for a data epoch (R343). -/
def State.clipped (s : State) (source e : Nat) : Bool := s.data.clips.any (fun c => decide (c.1 = source) && decide (c.2 ≤ e))

/-- Enter a SOURCE_ID because of a slot of a data epoch: it applies from the next one on (R343). -/
def State.enterClip (s : State) (source e : Nat) : State :=
  if s.data.clips.any (fun c => decide (c.1 = source)) then
    s.modData (fun d => { d with clips := d.clips.map (fun c => if c.1 = source then (source, min c.2 (e + 1)) else c) })
  else if 65536 ≤ s.data.clips.length then s.add O.clipListFull 1
  else s.modData (fun d => { d with clips := d.clips ++ [(source, e + 1)] })

/-- The catalogue record of a slot has arrived (R323, R343): then its data is read. -/
def State.takeRecord (s : State) (j : DecodeJob) (r : Bytes) : State :=
  if s.catalogueFits r = false then s.dropSlot j.u j.id 2
  else if s.clipped (byteField r 40 8) (s.slotEpoch j.u) then s.dropSlot j.u j.id 6
  else
    let t := s.modData (fun e => { e with jobs := e.jobs.map (fun k => if k.u = j.u then { k with record := r } else k) })
    t.readRegion j.u j.id (byteField r 16 1) (byteField r 0 8) (byteField r 8 8)

/-- A chunk has arrived whole: the catalogue record of its slot, or data that the demux consumes. -/
def State.chunkDone (s : State) (r : ChunkRead) : State :=
  match s.job r.u with
  | none => s
  | some j =>
    if j.record.isEmpty then s.takeRecord j r.data
    else
      (s.modData (fun e => { e with jobs := e.jobs.map (fun k =>
        if k.u = r.u then { k with left := k.left - 1, chunks := k.chunks ++ [(r.chunk, r.data)] } else k) })).kpc 0x0D 0 r.size

/-! ### RoCE v2 (R320, R321) -/

/-- A queue pair enters ERROR: its reads go to the other live queue pairs of their region (R321), each at most READ_RETRIES times
(R341). -/
def State.failQp (s : State) (k : Nat) : State :=
  let q := s.qp k
  let t := s.modQp k (fun q => { q with failed := true, reads := [], waiting := [], due := none })
  let t := State.each (fun (t : State) (r : ChunkRead) =>
    if t.rd O.readRetries ≤ r.tries then
      (match t.job r.u with
       | some j => t.dropSlot r.u j.id 1
       | none => t)
    else t.placeRead { r with tries := r.tries + 1, data := [] } (some k)) t q.reads
  (State.each (fun (t : State) (r : ChunkRead) => t.placeRead r (some k)) t q.waiting).startAll

/-- Go back to the oldest read that is not acknowledged and send from there on again (R320). -/
def State.retransmit (s : State) (k : Nat) : State :=
  let q := s.qp k
  if q.reads.isEmpty then s
  else if byteField (s.qpEntry (k / 64) (k % 64)) 41 1 < q.retries + 1 then s.failQp k
  else
    let t := (s.add (O.ingestRetransmits (k / 64)) 1).modQp k (fun q =>
      { q with retries := q.retries + 1, psn := (q.reads.head?.map ChunkRead.psn).getD q.psn, waiting := q.reads ++ q.waiting, reads := [],
               due := none })
    t.startReads k 16

/-- A read response in PSN order; any other is not taken (R320). -/
def State.readResponse (s : State) (k : Nat) (fr : RocePacket) : State :=
  let first := decide (fr.opcode = 0x0D) || decide (fr.opcode = 0x10)
  let last := decide (fr.opcode = 0x0F) || decide (fr.opcode = 0x10)
  match (s.qp k).reads with
  | [] => s
  | r :: rest =>
    let want := min 4096 (r.size - r.data.length)
    let got := { r with data := r.data ++ fr.data }
    let whole := decide (got.data.length = r.size)
    if fr.psn ≠ (r.psn + r.data.length / 4096) % 2 ^ 24 ∨ fr.data.length ≠ want ∨ first ≠ r.data.isEmpty ∨ last ≠ whole then s
    else
      let t := (s.add (O.ingestBytesRead (k / 64)) want).kpc 0x0C (k / 64) want
      if !whole then t.modQp k (fun q => { q with reads := got :: rest, due := some (s.now + s.qpTimeout k) })
      else
        let t := t.modQp k (fun q =>
          { q with reads := rest, retries := 0, due := if rest.isEmpty then none else some (s.now + s.qpTimeout k) })
        (t.chunkDone got).startAll

/-- The live queue pair of a port that a packet is for (R319): its LOCAL_QPN, addresses and tag are those of the queue pair and the port. -/
def State.roceQp (s : State) (port : Nat) (p : RocePacket) : Option Nat :=
  let k := 64 * port + (p.qpn - 0x100) % 64
  if p.qpn = 0x100 + k ∧ s.qpLive k = true ∧ p.mac = s.fuses.ingestMac.getD port 0
      ∧ p.vlan = (if s.rd O.ingestVlan = 0 then none else some (s.rd O.ingestVlan))
      ∧ p.dest = (s.dom (O.ingestLocalAddr port)).bytes 0#8 0 16 ∧ p.source = ((s.qpEntry port (k % 64)).drop 24).take 16 then some k
  else none

/-- A RoCE v2 packet for a queue pair (R320): a read response, a NAK for a sequence error, a congestion notification, which halves the send
rate; any other has no effect (log entry 80, DEDUCED). -/
def State.takeRoce (s : State) (k : Nat) (p : RocePacket) : State :=
  if isReadResponse p.opcode then s.readResponse k p
  else if p.sequenceNak then s.retransmit k
  else if p.congestion then s.modQp k (fun q => { q with rate := max 1 (q.rate / 2), paced := s.now })
  else s

/-- A frame on an ingest port: a pause of its priority holds what it sends; what is not RoCE v2 traffic for a live queue pair of the port, and
what fails its invariant CRC, is discarded and counted (R319, R320). -/
def State.ingestFrame (s : State) (port : Nat) (f : Bytes) : State :=
  if !s.ingestUsed port then s
  else if isPause f then
    (match pauseOf f (s.rd O.ingestPfcPriority) with
     | none => s
     | some q => (s.modData (fun e => { e with pauses := e.pauses.set 0 port (if q = 0 then 0 else s.now + pauseTime q) })).startAll)
  else
    match rocePacket f with
    | none => s.add (O.ingestDiscarded port) 1
    | some p =>
      match s.roceQp port p with
      | none => s.add (O.ingestDiscarded port) 1
      | some k => if p.checkOk then s.takeRoce k p else s.add (O.ingestDiscarded port) 1

/-- A pause that has ended lets waiting reads go out. -/
def State.endPauses (s : State) : State :=
  if s.data.pauses.entries.any (fun e => decide (e.2 ≤ s.now)) then
    (s.modData (fun d => { d with pauses := d.pauses.keep s.paused })).startAll
  else s

/-! ### Decoding a slot -/

/-- Whether the slots of the data epochs before that of a slot are done at every decoder (R343). -/
def State.epochOpen (s : State) (u : Nat) : Bool :=
  let e := s.slotEpoch u
  if s.rd O.damagePolicy ≠ 2 ∨ e ≤ s.slotEpoch (s.rd O.startU) then true
  else
    let start := s.epochStart e
    decide (start ≤ s.data.nextSend)
      && (decide (start ≤ s.lowestCursor)
          || s.decoderList.all (fun d => decide (d.2 = s.node.id) || decide (e ≤ s.data.reports.get 0 d.1)))

/-- A decoder begins its next slot (R318): shuffle, then the read of the catalogue record. -/
def State.beginSlot (s : State) : State :=
  let u := s.data.next
  if s.rd O.dataState ≠ 1 ∨ s.isDecoder = false ∨ s.lowestCursor + s.rd O.lookahead < u ∨ s.epochOpen u = false then s
  else
    let id := s.slotSample u
    let next := u + s.rd O.decoders
    let t := s.modData (fun e => { e with next := next, jobs := e.jobs ++ [⟨u, id, [], 1, []⟩] })
    let t := (if s.isSink then t else t.wr O.dataCursor next).kpc 0x0F 0 1
    t.readRegion u id (t.rd O.catRegion) (t.rd O.catOffset + 64 * id) 64

/-- The bytes of a slot's data that the demux has taken, in order. -/
def DecodeJob.data (j : DecodeJob) : Bytes :=
  (natsFrom 0 j.chunks.length).flatMap (fun i => ((j.chunks.find? (fun c => decide (c.1 = i))).map Prod.snd).getD [])

/-- The programme of a slot (R325, R326): CONTAINER, PROGRAM and AUDIO_SEL of its record choose it. -/
def DecodeJob.programme (j : DecodeJob) : Programme :=
  let program := byteField j.record 18 2
  let audio := byteField j.record 20 2
  if byteField j.record 17 1 = 1 then demuxTs j.data program audio else demuxMedia j.data program audio

/-- What the streams of a slot came to: video, audio (none without AUDIO_SEL), the damage events that are not of captions, and captions. -/
structure SampleOut where
  video    : VideoOut
  audio    : Option AudioOut
  events   : Nat
  captions : CaptionOut

/-- The captions of a sample: the pictures of the window in presentation order (R340). -/
def captionRun (r : Bytes) (ps : List Picture) : CaptionOut :=
  captionsOf (byteField r 22 1)
    ((ps.filter (fun p => inPtsWindow (byteField r 24 8) (byteField r 32 8) p.pts)).flatMap Picture.cc)

/-- Decode the streams of a slot; none where its video or its selected audio is not supported (R325, R326, R328, R337). -/
def DecodeJob.decoded (j : DecodeJob) (d : Decoded) : Option SampleOut :=
  let m := j.programme
  let start := byteField j.record 24 8
  let stop := byteField j.record 32 8
  match m.video.codec with
  | none => none
  | some c =>
    if !d.pictures.all (pictureFits c) then none
    else
      let v := videoOut (decide (byteField j.record 17 1 ≠ 1)) c m.video.units start stop d.pictures
      let out := fun (a : Option AudioOut) (n : Nat) =>
        some { video := v, audio := a, events := m.events + v.events + n, captions := captionRun j.record v.pictures }
      match m.audio with
      | none => out none 0
      | some a =>
        match a.codec with
        | none => none
        | some k =>
          if !d.audio.all (audioFits k) then none
          else let r := audioOut k a.units start stop d.audio; out (some r) r.events

/-- The cause for which a decoded sample becomes a drop (R341, R342); 0 for none. -/
def State.decodedCause (s : State) (d : Option SampleOut) (kept : List Picture) : Nat :=
  match d with
  | none => 3
  | some d =>
    if !d.video.random ∨ kept.isEmpty then 4
    else if s.rd O.damagePolicy ≠ 0 ∧ 0 < d.events then 5
    else 0

/-- A sample that is damaged under DROP_CLIP: its SOURCE_ID enters the list here and at the other decoders; a list that is full takes none
(R343). -/
def State.clipSample (s : State) (source e : Nat) : State :=
  let t := s.enterClip source e
  if !t.data.clips.any (fun c => decide (c.1 = source)) then t
  else State.each (fun (t : State) (d : Nat × Nat) =>
    if d.2 = t.node.id then t else t.emit (.clipNotice d.2 t.ownDecoder source e)) t t.decoderList

/-- The PCM of a sample: none without AUDIO_SEL; a selected stream without data is silence (R337, R338). -/
def State.pcmOf (s : State) (r : Bytes) (a : Option Pcm) : Option (List (List W32)) :=
  let start := byteField r 24 8
  let stop := byteField r 32 8
  let ft := audioRateHz (s.rd O.audioRate)
  if byteField r 20 2 = 0xFFFF then none
  else some (samplePcm start stop ft (s.rd O.audioChannels) (a.getD ⟨ft, start, none, none, none, none, none, none⟩))

/-- The sample of a slot, as it goes to the sinks, and its counts. -/
def State.deliver (s : State) (j : DecodeJob) (d : SampleOut) (kept : List Picture) : State :=
  let cap := d.captions
  let pictures := d.video.concealed
  let frames := (d.audio.map AudioOut.concealed).getD 0
  let fit := fitChars (s.rd O.captionBytesMax) cap.chars
  let cut := (cap.chars.drop fit.length).flatten.length
  let p : SamplePayload :=
    { sampleId := j.id, sourceId := byteField j.record 40 8,
      frames := kept.map (fun f => pictureFitted f (s.rd O.crop) (s.rd O.outWidth) (s.rd O.outHeight)),
      audio := s.pcmOf j.record (d.audio.bind AudioOut.pcm), captions := fit.flatten, truncated := decide (0 < cut),
      picturesConcealed := pictures, audioConcealed := frames }
  let t := ((s.add O.captionBytesDropped cut).add O.picturesConcealed pictures).add O.audioFramesConcealed frames
  let t := if 0 < pictures + frames then t.add O.samplesConcealed 1 else t
  t.finishSlot j.u (.sample p)

/-- The lowest decode cluster that is ON. -/
def State.cluster (s : State) : Nat := ([0, 1, 2, 3].find? (fun c => s.domainOn (0x48 + c))).getD 0

/-- The counts that decoding a sample makes whatever becomes of it: damage events, those of captions among them, omitted pictures, caption
bytes dropped, luma samples put out. -/
def State.countDecoded (s : State) (d : SampleOut) : State :=
  let pixels := (d.video.pictures.map (fun p => p.luma.width * p.luma.height)).sum
  (((s.add O.damageEvents (d.events + d.captions.events)).add O.captionBytesDropped d.captions.dropped).add O.framesOmitted
    d.video.omitted).kpc 0x0E s.cluster pixels

/-- The frames that are kept of a decoded sample (R332). -/
def State.framesKept (s : State) (j : DecodeJob) (d : Option SampleOut) : List Picture :=
  keptFrames (s.rd O.deinterlace) (s.rd O.frameStride) (byteField j.record 24 8) (byteField j.record 32 8)
    ((d.map (fun d => d.video.pictures)).getD [])

/-- A slot has been decoded: a drop, or a sample for the sinks (R325-R343, R349). -/
def State.slotDecoded (s : State) (u : Nat) (d : Decoded) : State :=
  match s.job u with
  | none => s
  | some j =>
    if j.record.isEmpty ∨ j.left ≠ 0 ∨ s.rd O.dataState = 0 then s
    else
      let out := j.decoded d
      let kept := s.framesKept j out
      match out with
      | none => (s.add O.damageEvents j.programme.events).dropSlot u j.id 3
      | some d =>
        let cause := s.decodedCause (some d) kept
        let t := s.countDecoded d
        if cause = 0 then t.deliver j d kept
        else
          let t := if cause = 5 ∧ t.rd O.damagePolicy = 2 then t.clipSample (byteField j.record 40 8) (t.slotEpoch u) else t
          t.dropSlot u j.id cause

end Sys2Proof.Machine
end

