-- ==== Sys2Proof/Machine/DataRows.lean ====
section
/-! DEFINITION. The rows of the data engine (chapter 13): control, reads, decoded slots, transfers, notices. -/

namespace Sys2Proof.Machine

/-- The numeric settings of Tables 13.13 to 13.15. -/
def dataFields : List Nat :=
  [O.dataRole, O.dataReplica, O.decoders, O.lookahead, O.samplesTotal, O.shuffleStream, O.startU, O.batchSamples, O.damagePolicy,
   O.candRingPages, O.ingestVlan, O.ingestPfcPriority, O.chunkBytes, O.ingestRingPages, O.catRegion, O.catOffset, O.readRetries,
   O.deinterlace, O.frameStride, O.crop, O.outWidth, O.outHeight, O.colourOut, O.actGain, O.actBias, O.actConv, O.patchT, O.patchH,
   O.patchW, O.audioRate, O.audioChannels, O.audioTokenSamples, O.audioConv, O.captionBytesMax]

/-- Whether the entries of QP_TABLE and REGION_TABLE lie in their ranges. -/
def State.tablesFit (s : State) : Bool :=
  (natsFrom 0 16).all (fun x => regionFits (s.region x)) && (natsFrom 0 64).all (fun q => qpFits (s.qpEntry 0 q) && qpFits (s.qpEntry 1 q))

/-- Elements of a video token. -/
def State.patchElements (s : State) : Nat := 3 * s.rd O.patchT * s.rd O.patchH * s.rd O.patchW

/-- TOKEN_BYTES of the settings (R336). -/
def State.tokenBytesNow (s : State) : Nat := roundUp (tokenSize (s.rd O.actConv) s.patchElements) 64

/-- The conditions of R336. -/
def State.patchFits (s : State) : Bool :=
  decide (s.rd O.outWidth % s.rd O.patchW = 0) && decide (s.rd O.outHeight % s.rd O.patchH = 0)
    && (match convOf (s.rd O.actConv) with
        | none => false
        | some c => !c.sr && decide (c.fmt ≠ .fp32) && decide (c.fmt ≠ .ki8) && (decide (c.block = 0) || decide (s.patchElements % c.block = 0)))

/-- The conditions of START on audio tokens (R348). -/
def State.audioFits (s : State) : Bool :=
  let n := s.rd O.audioTokenSamples * s.rd O.audioChannels
  match convOf (s.rd O.audioConv) with
  | none => false
  | some c => !c.sr && (decide (c.block = 0) || decide (n % c.block = 0)) && decide (tokenSize (s.rd O.audioConv) n ≤ s.tokenBytesNow)

/-- Whether the power domains that a decoder needs are ON (R348). -/
def State.decoderOn (s : State) : Bool :=
  [0, 1, 2, 3].any (fun c => s.domainOn (0x48 + c)) && (s.ingestOn 0 || s.ingestOn 1) && s.domainOn 0x4E

/-- The checks of START before the rings are mapped (R348). -/
def State.startCheck (s : State) : Nat :=
  if s.rd O.dataState ≠ 0 then stState
  else if s.rd O.jobState ≠ 1 then stState
  else if !(dataFields.all s.inRange && s.tablesFit) || decide (s.rd O.dataRole = 0) || decide (s.rd O.replicas ≤ s.rd O.dataReplica)
      || decide (s.decoderList.length ≠ s.rd O.decoders) || decide (s.sinkList.length ≠ s.rd O.jobSeqShare)
      || (s.isDecoder && !(s.decoderList.any (fun d => decide (d.2 = s.node.id))))
      || (s.isSink && !(s.sinkList.any (fun d => decide (d.2 = s.node.id)))) then stRange
  else if !s.patchFits then stRange
  else if !s.audioFits then stRange
  else if s.isDecoder && !s.decoderOn then stState
  else stOk

/-- Offers that were not admitted are given up. -/
def State.dropOffers (s : State) : State :=
  (State.each (fun (t : State) (c : Candidate) => t.releaseCandidate c) s s.data.offers).modData (fun e => { e with offers := [] })

/-- Map the rings (R348): none when the allocator cannot. -/
def State.mapDataRings (s : State) : Option State :=
  let held := match s.sinkSlot with
    | none => 0
    | some i => ((natsFrom (candPage i) (s.rd O.candRingPages)).filter s.mapped).length
  match s.takeFrames 0xFF 1 ownData 0 (if s.isDecoder then s.rd O.ingestRingPages else 0) with
  | none => none
  | some (_, t) =>
    match t.takeFrames 0xFF 1 ownCand 0 (if s.isSink then s.rd O.candRingPages - held else 0) with
    | none => none
    | some (_, u) => some (if s.isSink then s.sinkSlot.elim u u.mapCandRing else u)

/-- The first slot from START_U on that a decoder index has (R318). -/
def firstSlot (start n d : Nat) : Nat := start + (d + n - start % n) % n

/-- START (R348): the data engine begins anew; the clip list, the drop log, held candidates and queue pairs stay. -/
def State.dataBegin (s : State) : State :=
  let first := firstSlot (s.rd O.startU) (s.rd O.decoders) s.ownDecoder
  let t := s.modData (fun e =>
    { DataEngine.fresh with next := first, nextSend := first, expect := s.rd O.startU, clips := e.clips, drops := e.drops,
                            inUse := e.inUse, qps := e.qps })
  t.wrAll [(O.tokenBytes, s.tokenBytesNow), (O.dataCursor, s.rd O.startU), (O.dataFault, 0), (O.dataState, 1)]

/-- Every unit of a data engine that stops is idle. -/
def State.dataIdle (s : State) : Bool :=
  s.data.jobs.isEmpty && s.data.results.isEmpty && s.data.qps.entries.all (fun q => q.2.reads.isEmpty && q.2.waiting.isEmpty)

/-- STOPPING ends in STOPPED once every unit is idle: the rings go but for the pages of held candidates (R347, R348). -/
def State.settleData (s : State) : State :=
  if s.rd O.dataState ≠ 2 ∨ s.dataIdle = false then s
  else
    let ring := (s.pages.entries.filter (fun p => decide (p.2.pool = 6)
      && !(s.data.inUse.any (fun r => decide (r.1 ≤ p.1) && decide (p.1 < r.1 + r.2))))).map Prod.fst
    let t := State.each (fun (t : State) (p : Nat) => t.unmapPages (fun t f => t.freeFrame f) p 1) s ring
    ((t.freeOwner ownData).freeOwner ownCand).wr O.dataState 0

/-- A write of DATA_CONTROL (R348). -/
def dataControlEffect (s : State) (_f : Frame) (_k v : Nat) : Served :=
  if v = 1 then
    let st := s.startCheck
    if st ≠ stOk then .done s st []
    else
      match s.dropOffers.mapDataRings with
      | none => .done s stBusy []
      | some t => .done t.dataBegin stOk []
  else if v = 2 then
    (if s.rd O.dataState = 1 ∨ s.rd O.dataState = 3 then .done (s.wr O.dataState 2).settleData stOk [] else .done s stState [])
  else if v = 3 then
    (if s.rd O.dataState = 0 then .done (s.modData (fun e => { e with clips := [] })) stOk [] else .done s stState [])
  else .done s stRange []

/-- DATA_START (R348). -/
def execDataStart (f : Frame) (s : State) : Host.Outcome State Fault Refusal :=
  done s (writeRow (fun k v => decide (k = O.dataControl) && decide (v = 1)) dataControlEffect f s)

/-- DATA_STOP (R348). -/
def execDataStop (f : Frame) (s : State) : Host.Outcome State Fault Refusal :=
  done s (writeRow (fun k v => decide (k = O.dataControl) && decide (v = 2)) dataControlEffect f s)

/-- CLEAR_CLIPS (R348). -/
def execClearClips (f : Frame) (s : State) : Host.Outcome State Fault Refusal :=
  done s (writeRow (fun k v => decide (k = O.dataControl) && decide (v = 3)) dataControlEffect f s)

/-- DECODE_SLOT (R318). -/
def execDecodeSlot (s : State) : Host.Outcome State Fault Refusal := settled s s.beginSlot.settleData

/-- INGEST_FRAME (R319, R320). -/
def execIngestFrame (port : Nat) (fr : Bytes) (s : State) : Host.Outcome State Fault Refusal :=
  if 2 ≤ port then .fault .noSuchUnit else settled s (s.ingestFrame port fr).settleData

/-- RDMA_TIMEOUT (R320): the timeout of the oldest read has passed. -/
def execRdmaTimeout (port qp : Nat) (s : State) : Host.Outcome State Fault Refusal :=
  if 2 ≤ port ∨ 64 ≤ qp then .fault .noSuchUnit
  else
    match (s.qp (64 * port + qp)).due with
    | none => done s s
    | some d => if d ≤ s.now then settled s (s.retransmit (64 * port + qp)).settleData else done s s

/-- RATE_RECOVERY (R320): once 55 µs have passed without a notification, a queue pair's send rate recovers by 1/16 of the line rate. -/
def execRateRecovery (port qp : Nat) (s : State) : Host.Outcome State Fault Refusal :=
  if 2 ≤ port ∨ 64 ≤ qp then .fault .noSuchUnit
  else if s.now < (s.qp (64 * port + qp)).paced + 55 then done s s
  else done s (s.modQp (64 * port + qp) (fun q => { q with rate := min 1048576 (q.rate + 65536), paced := s.now }))

/-- SLOT_DECODED (R349). -/
def execSlotDecoded (u : Nat) (d : Decoded) (s : State) : Host.Outcome State Fault Refusal := settled s (s.slotDecoded u d).settleData

/-- SLOT_TRANSFER (R349): the result of a slot of another decoder; the own results come within the package. -/
def execSlotTransfer (u : Nat) (p : SlotPayload) (s : State) : Host.Outcome State Fault Refusal :=
  if s.decoderAt (u % s.rd O.decoders) = s.node.id then done s s
  else
    match p with
    | .transferFailed => settled s (s.transferFails u)
    | p => settled s (s.arrive u p)

/-- CLIP_NOTICE (R343): a SOURCE_ID, or with all ones the data epoch that the other decoder has done. -/
def execClipNotice (decoder sourceId epoch : Nat) (s : State) : Host.Outcome State Fault Refusal :=
  if s.isDecoder = false ∨ s.decoderAt decoder = 0xFFFF ∨ s.decoderAt decoder = s.node.id then done s s
  else if sourceId = 2 ^ 64 - 1 then
    settled s (s.modData (fun e => { e with reports := e.reports.set 0 decoder (max (e.reports.get 0 decoder) (epoch + 1)) }))
  else settled s (s.enterClip sourceId epoch)

/-- CURSOR_MESSAGE (R349). -/
def execCursorMessage (sink cursor : Nat) (s : State) : Host.Outcome State Fault Refusal :=
  if s.isDecoder = false ∨ 128 ≤ sink ∨ s.rd O.dataState = 0 then done s s
  else if s.rd (O.sinkTable sink) = 0xFFFF ∨ s.rd (O.sinkTable sink) = s.node.id then done s s
  else settled s (s.takeCursor sink cursor)

/-- INGEST_LINK_CHANGE (R350): the link of an ingest port, which is up only while the port is used. -/
def execIngestLinkChange (port : Nat) (up : Bool) (s : State) : Host.Outcome State Fault Refusal :=
  if 2 ≤ port then .fault .noSuchUnit
  else done s (s.wr (O.ingestLinkState port) (up && s.ingestUsed port).toNat)

end Sys2Proof.Machine
end

