-- ==== Sys2Proof/Machine/Ports.lean ====
section
/-! DEFINITION. The torus ports (R351-R366, R369): entering and leaving UP, flaps and hold-downs, training, the checks of a record, LINE
notices, the link layer. -/

namespace Sys2Proof.Machine

/-- Port states (Table 14.4). -/
def ptDisabled : Nat := 0
/-- DARK. -/
def ptDark : Nat := 1
/-- BEACON. -/
def ptBeacon : Nat := 2
/-- TRAINING. -/
def ptTraining : Nat := 3
/-- IDENTITY. -/
def ptIdentity : Nat := 4
/-- UP. -/
def ptUp : Nat := 5
/-- HELD_DOWN. -/
def ptHeld : Nat := 6
/-- MISWIRED. -/
def ptMiswired : Nat := 7

/-- The state of a port. -/
def State.pstate (s : State) (n : Nat) : Nat := s.rd (O.portLinkState n)
/-- Set the state of a port. -/
def State.setPstate (s : State) (n st : Nat) : State := s.wr (O.portLinkState n) st

/-- BEACON_INTERVAL in µs. -/
def State.beaconInterval (s : State) : Nat := s.rd O.beaconInterval

/-- A partner event (R365): its code, the port, the partner's id and digest. -/
def State.partnerEvent (s : State) (code n p digest : Nat) : State :=
  (s.wr O.lastPartnerEvent (code * 2 ^ 56 + n * 2 ^ 48 + p % 2 ^ 14 * 2 ^ 32 + digest)).add O.partnerEvents 1

/-! ### LINE notices (R369) -/

/-- Send a unit payload to the neighbour of a port by that port. -/
def State.sendNeighbour (s : State) (n cls unit : Nat) (b : Bytes) : State :=
  let (p, t) := s.flowed ⟨s.neighbour n, s.node.id, cls, 4 * (if n % 2 = 0 then 1 else 2), 0, 0, unit, 0, b⟩
  t.launch ⟨n, 0, p.pflags⟩ p

/-- Send a LINE notice by a port, if it is UP. -/
def State.lineOut (s : State) (n d link : Nat) (down : Bool) (origin : Nat) : State :=
  if s.portUp n then (s.put (.lineNotice n d link down origin)).sendNeighbour n 0 0x04 (controlBytes 4 [d, link, down.toNat, origin]) else s

/-- A port has entered or left UP: its bit, and a LINE notice along the line in both directions. -/
def State.linkChanged (s : State) (n : Nat) (down : Bool) : State :=
  let d := n / 2
  let link := s.portLink n
  let t := s.setRing d link down
  (t.lineOut (2 * d) d link down t.node.id).lineOut (2 * d + 1) d link down t.node.id

/-- The own links of a dimension from the own ports. -/
def State.ownLinks (s : State) (d : Nat) : State :=
  (s.setRing d (s.portLink (2 * d)) (!s.portUp (2 * d))).setRing d (s.portLink (2 * d + 1)) (!s.portUp (2 * d + 1))

/-- On entering UP, the partner's LINE_DOWN for every link but the two next to the package (R369). -/
def State.takeLine (s : State) (d mask : Nat) : State :=
  let own := [s.portLink (2 * d), s.portLink (2 * d + 1)]
  State.each (fun (t : State) (i : Nat) => if own.contains i then t else t.setRing d i (mask.testBit i)) s (natsFrom 0 (s.dimSize d))

/-! ### Leaving UP -/

/-- What a port holds of the link goes: flits, credit, the wait for a replay (R361). -/
def TPort.cleared (p : TPort) : TPort :=
  { p with awaits := false, credit := Map.empty, waiting := Map.empty, held := Map.empty, owed := Map.empty, parts := Map.empty, arrived := [],
           window := [], controls := [], recent := [], tx := 65535, acked := 65535, rx := 65535, told := 65535 }

/-- Queued flits without the packets that a port's receive buffers hold; the rest of a packet that is being sent goes on. -/
def dropOrigin (n : Nat) : Bool → List QueuedFlit → List QueuedFlit
  | _, [] => []
  | skip, q :: r =>
    let skip := if q.first then decide (q.origin.map Prod.fst = some n) else skip
    if skip then dropOrigin n skip r else q :: dropOrigin n skip r

/-- The packets that wait at a port that is not UP are discarded (R370); the buffers that held their flits are free. -/
def State.dropWaiting (s : State) (n : Nat) : State :=
  let fs := (s.tport n).waiting.entries.map Prod.snd
  let t := s.modTport n TPort.cleared
  let t := State.each (fun (t : State) (q : QueuedFlit) => match q.origin with
    | some (m, w) => t.freeFlits m w 1
    | none => t) t fs.flatten
  let t := State.each (fun (t : State) (m : Nat) => t.modTport m (fun p => { p with waiting := p.waiting.change (dropOrigin n false) })) t
    ((natsFrom 0 6).filter (fun m => decide (m ≠ n)))
  State.each (fun (t : State) (p : Packet) => t.discardPacket O.unreachable p) t (fs.flatMap (queuedPackets []))

/-- A port leaves UP for another state (R361, R369, R377). -/
def State.leaveUp (s : State) (n st : Nat) : State := (((s.portGone n).setPstate n st).dropWaiting n).linkChanged n true

/-- DARK or BEACON, by the light. -/
def State.idlePort (s : State) (n : Nat) : State :=
  (s.setPstate n (if (s.tport n).light then ptBeacon else ptDark)).modTport n (fun p => { p with step := 0, hellos := 0 })

/-- A flap of a port; at FLAP_LIMIT it is held down (R362). -/
def State.flap (s : State) (n : Nat) : State :=
  let fs := s.recentFlaps n ++ [s.now]
  let t := s.modTport n (fun p => { p with flaps := fs })
  if fs.length < t.rd O.flapLimit then t
  else
    let hold := t.rd (O.holdNext n)
    let t := (t.setPstate n ptHeld).modTport n (fun p => { p with step := 0, hellos := 0, holdUntil := t.now + hold * 1000000 })
    (t.wr (O.holdNext n) (min (2 * hold) (t.rd O.holdMax))).partnerEvent 3 n (t.neighbour n) (t.rd (O.partnerDigest n))

/-- A neighbour is lost (R361). -/
def State.portLost (s : State) (n : Nat) : State :=
  let p := s.rd (O.partnerId n)
  let t := (((s.leaveUp n ptDark).idlePort n).modTport n (fun p => { p with lostAt := some s.now })).add (O.lossCount n) 1
  ((t.partnerEvent 2 n p (t.rd (O.partnerDigest n))).partnerLost p n).flap n

/-- Begin training at step 2 (Table 14.5). -/
def State.beginTraining (s : State) (n : Nat) : State :=
  (s.setPstate n ptTraining).modTport n (fun p => { p with step := 2, since := s.now, hellos := 0 })

/-- The link retrains a port that is UP by itself (R355, R361): a flap. -/
def State.retrainPort (s : State) (n : Nat) : State := ((s.leaveUp n ptTraining).beginTraining n).flap n

/-- A port is switched off: by control, or by its optical group (R363). -/
def State.disablePort (s : State) (n : Nat) : State :=
  let t := if s.portUp n then s.leaveUp n ptDisabled else (s.portGone n).setPstate n ptDisabled
  t.modTport n (fun p => { p with light := false, step := 0, hellos := 0 })

/-- A port that is DISABLED becomes DARK (R363). -/
def State.darkPort (s : State) (n : Nat) : State := ((s.portGone n).setPstate n ptDark).modTport n (fun p => { p with light := false, step := 0, hellos := 0 })

/-! ### Records (R359, R364) -/

/-- Whether a hello or identity record passes its checks at a port (R359). -/
def State.recordPasses (s : State) (n : Nat) (r : IdRecord) : Bool :=
  let b := identityBytes r.kind r.packageId r.port r.generation r.compute r.iod r.dimX r.dimY r.dimZ r.iflags r.lanes r.serial r.digest
    r.revision r.jobTag r.lineDown
  decide (r.check = BitVec.ofNat 32 (byteField b 60 4)) && decide (r.format = 1) && decide (r.generation = 9)
    && decide (r.dimX = s.node.dimX) && decide (r.dimY = s.node.dimY) && decide (r.dimZ = s.node.dimZ)
    && decide (r.packageId = s.neighbour n) && decide (r.port = n ^^^ 1)

/-- A record that fails puts a port in MISWIRED (R359); a port that was UP has flapped (R362). -/
def State.miswire (s : State) (n : Nat) (r : IdRecord) : State :=
  if s.pstate n = ptMiswired then s.modTport n (fun p => { p with hellos := 0 })
  else
    let up := s.portUp n
    let t := (if up then s.leaveUp n ptMiswired else s.setPstate n ptMiswired).modTport n (fun p => { p with step := 0, hellos := 0 })
    let t := (t.add (O.miswires n) 1).partnerEvent 4 n r.packageId r.digest
    if up then t.flap n else t

/-- The partner fields from a record (R364). -/
def State.takePartner (s : State) (n : Nat) (r : IdRecord) : State :=
  s.wrAll [(O.partnerId n, r.packageId), (O.partnerPort n, r.port), (O.partnerDigest n, r.digest), (O.partnerJobTag n, r.jobTag),
           (O.partnerFlags n, r.iflags)]

/-- A hello at a port (R358-R360). -/
def State.hello (s : State) (n : Nat) (r : IdRecord) : State :=
  let st := s.pstate n
  if r.kind ≠ 1 ∨ ¬(st = ptBeacon ∨ st = ptMiswired ∨ st = ptUp) then s
  else if !s.recordPasses n r then s.miswire n r
  else if st = ptUp then s.modTport n (fun p => { p with lastHello := s.now })
  else
    let t := s.setPstate n ptBeacon
    if r.iflags.testBit 3 then t
    else if (t.tport n).hellos + 1 < 2 then t.modTport n (fun p => { p with hellos := p.hellos + 1 })
    else t.beginTraining n

/-- The identity record of the last training step (R360): the port enters UP. -/
def State.identityIn (s : State) (n : Nat) (r : IdRecord) : State :=
  if r.kind ≠ 2 ∨ s.pstate n ≠ ptIdentity then s
  else if !s.recordPasses n r then s.miswire n r
  else
    let t := ((s.takePartner n r).setPstate n ptUp).modTport n (fun p =>
      { p.cleared with step := 0, lastHello := s.now, beacon := s.now, upSince := s.now, replays := [] })
    let t := (t.add (O.upCount n) 1).partnerEvent 1 n r.packageId r.digest
    ((t.takeLine (n / 2) r.lineDown).ownLinks (n / 2)).linkChanged n false

/-- An identity UPDATE of an UP partner (R364). -/
def State.identityUpdate (s : State) (n : Nat) (r : IdRecord) : State :=
  if r.kind ≠ 3 ∨ !s.portUp n then s
  else if !s.recordPasses n r then s.miswire n r
  else (s.takePartner n r).partnerEvent 5 n r.packageId r.digest

/-! ### Training (R352, R360) -/

/-- The bound of a training step in µs (Table 14.5). -/
def trainBound (step : Nat) : Nat := if step = 2 then 100000 else if step = 3 then 20000 else if step = 4 then 10000 else 5000

/-- A training step fails: back to BEACON or DARK. -/
def State.trainFails (s : State) (n : Nat) : State := (s.idlePort n).add (O.trainFails n) 1

/-- The lanes that a torus port uses of those that pass at both ends (R352). -/
def widthOf (n : Nat) : Nat := if 16 ≤ n then 16 else if 8 ≤ n then 8 else if 4 ≤ n then 4 else if 2 ≤ n then 2 else n

/-- PORT_STATE of the lanes that pass (Table 2.7). -/
def lanesState (passing lanes : Nat) : Nat := if passing = 0 then 2 else if passing < lanes then 1 else 0

/-- LANES_PASSING and PORT_STATE of a port, as one revision (R41, R360). -/
def State.reviseLanes (s : State) (n passing : Nat) : State :=
  s.cutRevise [(O.lanesPassing n, passing), (O.portState n, lanesState passing (portLanes n))]

/-- A training step of a torus port completes (Table 14.5). -/
def State.trainStep (s : State) (n ownMask otherMask : Nat) : State :=
  let p := s.tport n
  if s.pstate n ≠ ptTraining then s
  else if p.step = 2 then s.modTport n (fun p => { p with step := 3, since := s.now })
  else if p.step = 3 then
    let w := widthOf (laneCount (ownMask &&& otherMask) 16)
    let t := ((s.modTport n (fun p => { p with mask := ownMask % 65536, step := 4, since := s.now })).reviseLanes n (laneCount ownMask 16)).wr
      (O.lanesUsed n) w
    if w = 0 then t.trainFails n else t
  else
    let t := (s.setPstate n ptIdentity).modTport n (fun p => { p with step := 5, since := s.now })
    t.sendIdentity n 2

/-- Light is absent for more than 1 ms on logical lanes of a port (R361). -/
def State.lightLoss (s : State) (n lanes : Nat) : State :=
  let w := s.rd (O.lanesUsed n)
  let all := decide (lanes % 2 ^ w = 2 ^ w - 1)
  if s.portUp n then
    if all then (s.modTport n (fun p => { p with light := false })).portLost n
    else if lanes % 2 ^ w = 0 then s
    else s.retrainPort n
  else if all then
    let t := s.modTport n (fun p => { p with light := false })
    if s.pstate n = ptBeacon ∨ s.pstate n = ptMiswired then t.idlePort n else t
  else s

/-! ### The link layer (R354-R356) -/

/-- Credit that a flit returns (R356), by virtual channel in the order of Table 14.6. -/
def returnCredits (p : TPort) : List Nat → Nat → TPort
  | [], _ => p
  | c :: r, v => returnCredits { p with credit := p.credit.set (vcBuffer v) v (min (vcBuffer v) (p.creditOf v + c)) } r (v + 1)

/-- What every good flit tells the sender of a port: the flits acknowledged and the credit returned. -/
def TPort.acknowledge (p : TPort) (f : Flit) : TPort :=
  let done := (f.ackSeq + 65536 - p.acked) % 65536
  let p := if done ≤ p.window.length then { p with acked := f.ackSeq, window := p.window.drop done } else p
  returnCredits p (f.credits.take 11) 0

/-- A NAK at a port (R355): the sender replays every flit after the one it names; at eight replays within 1 ms the port retrains. -/
def State.nakIn (s : State) (n seq : Nat) : State :=
  if !s.portUp n then s
  else
    let p := s.tport n
    let done := (seq + 65536 - p.acked) % 65536
    if p.window.length < done then s
    else
      let rs := p.replays.filter (fun t => decide (s.now < t + 1000)) ++ [s.now]
      let again := p.window.drop done
      let t := (s.setTport n { p with acked := seq, window := again, replays := rs }).add (O.linkReplays n) 1
      let t := t.put (.replay n ((seq + 1) % 65536) again.length)
      let t := State.each (fun (t : State) (x : SentFlit) => t.putFlit n x.kind x.vc x.seq x.payload) t again
      if 8 ≤ rs.length then t.retrainPort n else t.pump n

/-- A NAK goes out: it names the last good LINK_SEQ (R355). -/
def State.sendNak (s : State) (n : Nat) : State :=
  let rx := (s.tport n).rx
  (s.put (.nak n rx)).putFlit n 4 0 rx []

/-- A bad flit, or one that its buffer has no room for, is discarded: a NAK, and every later flit is passed over until the replay (R355). -/
def State.badFlit (s : State) (n : Nat) : State := (s.modTport n (fun p => { p with awaits := true })).sendNak n

/-- A flit of a packet is taken into its buffer; the last one makes the packet whole (R367). -/
def TPort.takeFlit (p : TPort) (f : Flit) : TPort :=
  let v := flitBuffer f.vc
  let b := p.parts.get [] v ++ (f.payload ++ List.replicate 608 0#8).take 608
  let p := { p with held := p.held.set 0 v (p.held.get 0 v + 1) }
  if f.kind = 2 then { p with parts := p.parts.set [] v [], arrived := p.arrived ++ [(v, packetOf b)] }
  else { p with parts := p.parts.set [] v b }

/-- A flit at a port (R355): discarded with a NAK when bad, passed over while a replay is awaited, else taken in order. -/
def State.flitIn (s : State) (n : Nat) (f : Flit) : State :=
  if s.pstate n ≠ ptUp ∧ s.pstate n ≠ ptIdentity then s
  else
    let s := s.add (O.fecCorrected n) f.corrected
    let p := s.tport n
    let v := flitBuffer f.vc
    if !flitGood f then (s.add (O.fecUncorrected n) 1).badFlit n
    else
      let p := p.acknowledge f
      if f.kind = 0 then ((s.setTport n p).pump n).tell
      else if f.kind = 4 then ((s.setTport n p).nakIn n f.linkSeq).tell
      else if 4 < f.kind ∨ f.linkSeq ≠ (p.rx + 1) % 65536 then (s.setTport n p).tell
      else if f.kind ≠ 3 ∧ (10 < v ∨ vcBuffer v ≤ p.held.get 0 v) then (s.setTport n p).badFlit n
      else
        let p := { p with rx := f.linkSeq, awaits := false }
        let p := if f.kind = 3 then p else p.takeFlit f
        ((((s.setTport n p).add (O.flitsReceived n) 1).kpc 0x09 n 1).pump n).tell

end Sys2Proof.Machine
end

