-- ==== Sys2Proof/Machine/Network.lean ====
section
/-! DEFINITION. Packets at a switch (R367-R375), notices, the time (R376, R377), the host link and the Tally port (R378-R383): the rows of
chapter 14. -/

namespace Sys2Proof.Machine

/-! ### Packets -/

/-- The flow of a packet breaks (R374). -/
def State.flowBreaks (s : State) (p : Packet) : State :=
  let k := 8 * p.source + p.cls
  let fl := s.torus.flowsIn.get Flow.fresh k
  let t := { s with torus := { s.torus with flowsIn := s.torus.flowsIn.set Flow.fresh k { fl with mark := true } } }
  let t := (t.add O.flowBreaks 1).wr O.lastFlowBreak (p.source * 2 ^ 16 + p.cls)
  (t.emit (.flowReset p.source p.cls)).remoteLost p.source

/-- Judge the FLOW_SEQ of a packet of an ordered class (R374): the state, and whether the packet is delivered. -/
def State.judgeFlow (s : State) (p : Packet) : State × Bool :=
  let k := 8 * p.source + p.cls
  let fl := s.torus.flowsIn.get Flow.fresh k
  let take := { s with torus := { s.torus with flowsIn := s.torus.flowsIn.set Flow.fresh k ⟨(p.flowSeq + 1) % 65536, false⟩ } }
  if p.cls = 4 then (s, true)
  else if p.pflags.testBit 0 then (take, true)
  else if fl.mark then (s, false)
  else if p.flowSeq = fl.next then (take, true)
  else (s.flowBreaks p, false)

/-- A channel message from another package (R184): it is on its way to its queue; the queue's name stands in UNIT_TAG (log entry 26, DESIGN CHOICE). A
message that no UP Relay link carries is dropped and counted. -/
def State.remoteMessage (s : State) (p : Packet) : State :=
  let name := p.unitTag % 2 ^ 30
  let q := nameQueue name
  let h := p.payload
  if s.ownQueue name = false ∨ h.length < 192 ∨ 48 ≤ q / 64 then s
  else
    match s.relayTo p.source with
    | none => s.add (O.queueDropped (q / 64) (q % 64)) 1
    | some r =>
      let body := h.drop 128
      let f : Flight := { origin := .remote p.source, queue := q, gen := byteField h 4 2, contribute := decide (qKind (s.qword q) = 1),
                          sender := byteField h 2 1, seq := byteField h 6 2, count := byteField h 8 4, payload := body,
                          checks := (natsFrom 0 ((body.length + 4095) / 4096)).map (fun i => BitVec.ofNat 32 (byteField h (64 + 4 * i) 4)) }
      { s.relayGot r h.length with flights := s.flights ++ [f] }

/-- Credit of a queue on another package comes back (R179): to the first binding of it that lacks credit. -/
def State.creditIn (s : State) (name : Nat) : State :=
  match s.endpoints.find? (fun x => decide (x.2.2.kind ≠ 0) && decide (x.2.2.queue = name) && !s.ownQueue name
      && decide (x.2.2.notice = 0) && decide (x.2.2.credit < x.2.2.credits)) with
  | none => s
  | some (c, ep, e) =>
    let t := s.modEndp c ep (fun e => { e with credit := e.credit + 1 })
    if e.credit = 0 then t.notify c ep else t

/-- Credit of a Lane comes back to its sender's end (R210), or room in the ring of a return Lane (R211). -/
def State.laneCreditIn (s : State) (n batches pages : Nat) : State :=
  if 64 ≤ n ∨ s.rd (O.laneState n) = 0 ∨ s.laneReads n = true ∨ (s.lane n).status = 0x22 then s
  else if s.laneReturn n then s.modLane n (fun e => { e with away := e.away - batches, awayPages := e.awayPages - pages })
  else s.modLane n (fun e => { e with credit := e.credit + batches, pages := e.pages + pages })

/-- RC_NEXT grants a receive area of a channel (R276). -/
def State.areaCreditIn (s : State) (c : Nat) : State := s.modChan c (fun k => { k with credit := min 2 (k.credit + 1) })

/-- A generation notice of a Lane end (R193, R207). -/
def State.laneNoticeIn (s : State) (n gen : Nat) (closed : Bool) : State :=
  if 64 ≤ n ∨ s.rd (O.laneState n) = 0 ∨ s.laneReads n = true ∨ (s.lane n).status = 0x22 then s
  else if closed then s.modLane n (fun e => { e with status := 0x23 })
  else if gen = s.rd (O.laneGen n) then s
  else s.modLane n LaneEnd.stale

/-- A notice that has no row of its own, from a package (Table 14.9; `noticeBytes`). -/
def State.noticeIn (s : State) (source : Nat) (b : Bytes) : State :=
  let about := byteField b 1 1
  let which := byteField b 4 4
  if byteField b 0 1 = 6 then
    (if about = 0 then s.creditIn which
     else if about = 1 then s.laneCreditIn which (byteField b 12 2) (byteField b 14 2)
     else if about = 3 then s.bulkCreditIn source which
     else if which < 32 then s.areaCreditIn which
     else s)
  else if byteField b 0 1 = 4 ∧ about = 1 then s.laneNoticeIn which (byteField b 8 2) (decide (byteField b 10 1 ≠ 0))
  else s

/-- The end of the run of bytes from the start on that pieces cover. -/
def landedTo (ps : List (Nat × Bytes)) (at_ : Nat) : Nat → Nat
  | 0 => at_
  | n + 1 =>
    match ps.find? (fun p => decide (p.1 ≤ at_) && decide (at_ < p.1 + p.2.length)) with
    | none => at_
    | some p => landedTo ps (p.1 + p.2.length) n

/-- The content of a transfer whose bytes have all landed (R371). -/
def BulkIn.whole (b : BulkIn) : Option Bytes :=
  match b.pieces.find? (fun p => decide (p.1 = 0)) with
  | none => none
  | some first =>
    let size := byteField first.2 0 8
    if landedTo b.pieces 0 b.pieces.length < size then none
    else
      let m := b.pieces.foldl (fun (m : Map Byte) (p : Nat × Bytes) => m.setBytes 0#8 p.1 p.2) Map.empty
      some ((m.bytes 0#8 0 size).drop 8)

/-- A bulk transfer is complete: a version fetch is answered (R260), a result is sent again (R349); what has a row of its own acts by that
row. -/
def State.bulkDone (s : State) (source kind : Nat) (b : Bytes) : State :=
  if kind = 1 then s.serveFetch source b else if kind = 4 then s.sendAgain source (byteField b 0 8) else s

/-- A packet of a bulk transfer lands at the offset that UNIT_TAG gives (R371); its CREDIT goes back (R375). -/
def State.bulkPacket (s : State) (p : Packet) : State :=
  let number := field p.unitTag 48 16
  let kind := field p.unitTag 40 8
  let same := fun (b : BulkIn) => decide (b.source = p.source) && decide (b.number = number)
  let old := s.torus.bulkIn.find? same
  let b : BulkIn := ⟨p.source, number, kind, (old.elim [] BulkIn.pieces) ++ [(p.unitTag % 2 ^ 40, p.payload)]⟩
  let others := s.torus.bulkIn.filter (fun b => !same b)
  let put := fun (l : List BulkIn) => ({ s with torus := { s.torus with bulkIn := l } } : State).emit (.bulkCredit p.source 1)
  match b.whole with
  | none => put (others ++ [b])
  | some c => (put others).bulkDone p.source kind c

/-- A packet for this package: its flow is judged, its source has been heard; what has a row of its own acts by that row. A management frame
that the Prisum controller cannot queue, for it does not serve, is counted in CHECK_ERRORS (Table 14.6; log entry 107, DEDUCED). -/
def State.deliverPacket (s : State) (p : Packet) : State :=
  let s := { s with torus := { s.torus with heard := s.torus.heard.set 0 p.source s.now } }
  match s.judgeFlow p with
  | (t, false) => t
  | (t, true) =>
    if p.unit = 0x10 then t.remoteMessage p
    else if p.unit = 0x40 then t.noticeIn p.source p.payload
    else if p.unit = 0x30 then t.bulkPacket p
    else if p.unit = 0x01 ∧ t.served = false then t.add O.checkErrors 1
    else t

/-- A packet for another package: on to its next hop, or discarded (R368, R370-R372). Its flits stay in the buffer of the port it came by until
they are sent (R356): `held` where they are there. -/
def State.passPacket (s : State) (n vc : Nat) (p : Packet) (held : Bool) : State :=
  let free := fun (t : State) => if held then t.freeFlits n (2 * p.cls + vc) (pieces 608 p.bytes).length else t
  if 96 < p.hops + 1 then (free s).discardPacket O.hopDiscards p
  else
    match s.nextHop p.source p.dest p.cls p.pflags (some (n, vc)) with
    | (none, t) => (free t).discardPacket O.unreachable p
    | (some h, t) =>
      let size := 32 + p.payload.length
      let q := { p with hops := p.hops + 1, pflags := h.pflags }
      (((t.add O.forwardedBytes size).kpc 0x0B h.port size).put (.forward h.port h.vc q)).sendFlits h.port h.vc q
        (if held then some (n, 2 * p.cls + vc) else none)

/-- A whole packet has arrived by a port on a virtual channel of its class (R367, R370): the one whose flits have come on that channel; where
none has, the packet is as it is given (log entry 107, DEDUCED). -/
def State.packetIn (s : State) (n vc : Nat) (p : Packet) : State :=
  if !s.portUp n ∨ 4 < p.cls ∨ (if p.cls = 4 then 3 else 2) ≤ vc then s
  else
    let v := 2 * p.cls + vc
    let port := s.tport n
    let come := (port.arrived.find? (fun a => decide (a.1 = v))).map Prod.snd
    let p := come.getD p
    let t := match come with
      | none => s
      | some q => s.setTport n { port with arrived := port.arrived.erase (v, q) }
    let free := fun (t : State) => if come.isSome then t.freeFlits n v (pieces 608 p.bytes).length else t
    (if s.torusSize ≤ p.dest then (free t).discardPacket O.unreachable p
     else if p.dest = s.node.id then (free t).deliverPacket p
     else t.passPacket n vc p come.isSome).tell

/-! ### Notices -/

/-- A LINE notice (R369): the mask follows it; it goes on along the line until it returns to its origin. -/
def State.lineNoticeIn (s : State) (n d link : Nat) (down : Bool) (origin : Nat) : State :=
  if n / 2 ≠ d ∨ !s.portUp n ∨ s.dimSize d ≤ link ∨ origin = s.node.id then s
  else
    let ownPorts := [2 * d, 2 * d + 1].filter (fun m => decide (s.portLink m = link))
    let bit := down || ownPorts.any (fun m => !s.portUp m)
    (s.setRing d link bit).lineOut (n ^^^ 1) d link down origin

/-- An UNREACHABLE notice (R366, R372): a remote partner that it names is lost; a report that was sent is pending again (R434); a proxied
management frame gets the STATE response of R55. -/
def State.unreachableIn (s : State) (p : Packet) (dest : Nat) : State :=
  let t := if p.cls = 4 then s.bulkCreditIn dest 1
    else if p.unit ≠ 0x01 then s
    else if byteField p.payload 1 1 = 4 ∧ byteField p.payload 12 2 = 0x9051 ∧ byteField p.payload 14 1 = 1 then
      s.addReport ((p.payload.drop 24).take 64)
    else
      match s.mgmt.proxies.find? (fun x => decide (x.dest = dest) && decide (x.seq = byteField p.payload 4 2)
          && decide (x.session = byteField p.payload 6 2)) with
      | none => s
      | some x =>
        let o : Outstanding := ⟨x.session, x.seq, byteField p.payload 2 1, 0, x.source, 4, x.carrier, x.station, s.now, false, .prisum stState⟩
        let t := { s with mgmt := { s.mgmt with proxies := s.mgmt.proxies.erase x } }
        t.send x.carrier x.source (completionFrame t o 2 stState [])
  t.remoteLost dest

/-- A FLOW_RESET notice (R374): the next packet of that class to that package sets SYNC. -/
def State.flowResetIn (s : State) (p cls : Nat) : State :=
  let k := 8 * p + cls
  { s with torus := { s.torus with flowsOut := s.torus.flowsOut.set Flow.fresh k { s.torus.flowsOut.get Flow.fresh k with mark := true } } }

/-! ### Time (R376, R377) -/

/-- A signed number of `n` bits. -/
def signedBits (n v : Nat) : Int := if v < 2 ^ (n - 1) then v else (v : Int) - (2 ^ n : Nat)
/-- A signed number as `n` bits. -/
def unsignedBits (n : Nat) (v : Int) : Nat := (v % (2 ^ n : Nat)).toNat

/-- An offset from the parent has been measured: the servo steps or steers; its rate is open within ±200 ppm (log entry 4, DESIGN CHOICE). -/
def State.timeOffset (s : State) (o : Int) : State :=
  let s := s.wr O.timeOffset (unsignedBits 64 o)
  if 1000000 < o.natAbs then
    let t := ((s.wr O.timeNow (unsignedBits 64 ((s.time : Int) - o))).add O.timeSteps 1).wr O.timeState 1
    { t with torus := { t.torus with inBand := 0, frac := 0 } }
  else
    let (v, t) := s.free
    let band := if o.natAbs ≤ 100 then t.torus.inBand + 1 else 0
    let t := t.wr O.timeFreqAdj (unsignedBits 32 ((v % 400001 : Nat) - 200000))
    { t.wr O.timeState (if 16 ≤ band then 2 else 1) with torus := { t.torus with inBand := band } }

/-- Put an IEEE 1588 message on a port. -/
def State.putPtp (s : State) (n kind seq stamp : Nat) : State :=
  (s.put (.ptp n kind (s.rd O.timeDomain) seq stamp)).sendNeighbour n 0 0x03 (ptpBytes kind (s.rd O.timeDomain) seq stamp s.node.id n)

/-- Fibre asymmetry of a port in ns. -/
def State.asymmetry (s : State) (n : Nat) : Int := if n < 6 then signedBits 32 (s.rd (O.timeAsymmetry n)) else 0
/-- Mean path delay of a port in ns. -/
def State.pathDelay (s : State) (n : Nat) : Int := if n < 6 then signedBits 32 (s.rd (O.pdelay n)) else 0

/-- An IEEE 1588 message at a port (R376). -/
def State.ptpIn (s : State) (n : Nat) (m : PtpMsg) : State :=
  let p := s.tport n
  let q := p.ptp
  if m.domain ≠ s.rd O.timeDomain then s
  else if m.kind = 0 then
    (if s.rd O.timeParent = n then s.setTport n { p with ptp := { q with syncSeq := m.seq, syncAt := m.arrival } } else s)
  else if m.kind = 1 then
    (if s.rd O.timeParent = n ∧ m.seq = q.syncSeq then
       s.timeOffset ((q.syncAt : Int) - m.stamp - s.pathDelay n - s.asymmetry n)
     else s)
  else if 6 ≤ n then s
  else if m.kind = 2 then (s.putPtp n 3 m.seq m.arrival).putPtp n 4 m.seq s.time
  else if m.kind = 3 then
    (if m.seq = q.reqSeq ∧ q.reqAt.isSome then s.setTport n { p with ptp := { q with t2 := m.stamp, t4 := m.arrival } } else s)
  else if m.kind = 4 ∧ m.seq = q.reqSeq ∧ q.t4 ≠ 0 then
    let d : Int := ((q.t4 : Int) - q.t1 - ((m.stamp : Int) - q.t2)) / 2
    (s.wr (O.pdelay n) (unsignedBits 32 d)).setTport n { p with ptp := { q with t4 := 0 } }
  else s

/-- Whether at least `d` half-microseconds have passed since a time; a time that never was has passed. -/
def State.dueSince (s : State) (t : Option Nat) (d : Nat) : Bool :=
  match t with
  | none => true
  | some t => decide (d ≤ 2 * (s.now - t))

/-- What a port sends of its own for the time (R376): Sync and Follow_Up 128 times a second where it serves time, Pdelay_Req once a
second. -/
def State.ptpOut (s : State) (n : Nat) : State :=
  let q := (s.tport n).ptp
  let t := if s.rd O.timeParent ≠ n ∧ s.dueSince q.outAt 15625 = true then
      let seq := (q.outSeq + 1) % 65536
      let t := (s.putPtp n 0 seq s.time).putPtp n 1 seq s.time
      t.modTport n (fun p => { p with ptp := { p.ptp with outSeq := seq, outAt := some t.now } })
    else s
  if t.dueSince q.reqAt 2000000 then
    let seq := (q.reqSeq + 1) % 65536
    (t.putPtp n 2 seq t.time).modTport n (fun p =>
      { p with ptp := { p.ptp with reqSeq := seq, reqAt := some t.now, t1 := t.time, t4 := 0 } })
  else t

/-! ### The host link (R378-R381) -/

/-- The lanes that the host link uses and its equivalent width (Table 14.10). -/
def hostWidths (passing : Nat) : Nat × Nat :=
  if 5 ≤ passing then (5, 16) else if 3 ≤ passing then (3, 8) else if passing = 2 then (2, 4) else if passing = 1 then (1, 2) else (0, 0)

/-- The host port begins training at step 2 (R378). -/
def State.hostBegin (s : State) : State := s.modTport 8 (fun p => { p with step := 2, since := s.now })

/-- The host link bridge is reset (R381): a link that is down trains again. -/
def State.bridgeReset (s : State) (down : Bool) : State :=
  let ids := (s.mgmt.sessions.filter (fun e => decide (e.carrier = .host))).map Session.id
  let t := State.each (fun (t : State) (i : Nat) => t.closeSession i) s ids
  let t := { t with mgmt := { t.mgmt with requests := [], responses := [], held := [], events := [], msiEnabled := false, msiLast := [],
                                          msiPending := [], host := HostConfig.reset } }
  let t := t.add O.hostLinkDowns 1
  if down then (t.wrAll [(O.hostLinkState, 0), (O.hostLanesUsed, 0), (O.hostWidth, 0)]).hostBegin else t

/-- A reset of the host link (R381), with the data link layer replays that the link has had since it came up: they are counted, and an UP link
that has had any sends the vector of a link error before it (R380; log entry 108, DESIGN CHOICE). -/
def State.hostReset (s : State) (r : HostReset) : State :=
  let t := s.add O.hostReplays r.replays
  (if 0 < r.replays ∧ s.rd O.hostLinkState = 3 then t.msi 3 else t).bridgeReset r.down

/-- Training of the host port fails: it begins again (R378; log entry 119, DEDUCED). -/
def State.hostTrainFails (s : State) : State := (s.wr O.hostLinkState 0).hostBegin

/-- A training step of the host port completes (R378): optics, then data link initialisation. -/
def State.hostTrainStep (s : State) (ownMask otherMask : Nat) : State :=
  let p := s.tport 8
  if 2 ≤ s.rd O.hostLinkState ∨ s.domainOn 0x47 = false then s
  else if p.step < 3 then (s.wr O.hostLinkState 1).setTport 8 { p with step := 3, since := s.now }
  else if p.step = 3 then
    let t := (s.setTport 8 { p with mask := ownMask % 64, step := 4, since := s.now }).reviseLanes 8 (laneCount ownMask 6)
    if laneCount (ownMask &&& otherMask) 6 = 0 then t.hostTrainFails else t
  else (s.wr O.hostLinkState 2).setTport 8 { p with step := 5 }

/-- A training step of the host port exceeds its bound (R378, Table 14.5). -/
def State.hostTrainTimeout (s : State) : State :=
  let p := s.tport 8
  if s.rd O.hostLinkState < 2 ∧ s.domainOn 0x47 = true ∧ 2 ≤ p.step ∧ p.step ≤ 4 ∧ p.since + trainBound p.step ≤ s.now then s.hostTrainFails
  else s

/-- The host link enters UP after its training and data link initialisation (R378, R379), as the host has configured the endpoint (Table 14.11). -/
def State.hostUp (s : State) (h : HostTrained) : State :=
  let w := hostWidths h.lanes
  if s.domainOn 0x47 = false ∨ s.rd O.hostLinkState ≠ 2 then s
  else
    let t := s.wrAll [(O.hostLanesUsed, w.1), (O.hostWidth, w.2), (O.hostLinkState, if w.1 = 0 then 0 else 3)]
    let t := { t with mgmt := { t.mgmt with msiEnabled := h.config.msix, host := h.config } }
    t.modTport 8 (fun p => { p with step := 0 })

end Sys2Proof.Machine
end

