-- ==== Sys2Proof/Machine/NetworkRows.lean ====
section
/-! DEFINITION. The rows of chapter 14. -/

namespace Sys2Proof.Machine

/-- A row about a torus port. -/
def portRow (n : Nat) (s t : State) : Host.Outcome State Fault Refusal := if 6 ≤ n then .fault .noSuchUnit else settled s t

/-- LIGHT_DETECT (R357): light on a port that is DARK makes it BEACON. -/
def execLightDetect (port : Nat) (s : State) : Host.Outcome State Fault Refusal :=
  portRow port s
    (if s.pstate port = ptDisabled then s
     else
       let t := s.modTport port (fun p => { p with light := true })
       if s.pstate port = ptDark then t.idlePort port else t)

/-- HELLO (R359). -/
def execHello (port : Nat) (r : IdRecord) (s : State) : Host.Outcome State Fault Refusal := portRow port s (s.hello port r)

/-- BEACON_SEND (R358): every BEACON_INTERVAL, in every state but DISABLED, TRAINING and IDENTITY. -/
def execBeaconSend (port : Nat) (s : State) : Host.Outcome State Fault Refusal :=
  let st := s.pstate port
  portRow port s
    (if st = ptDisabled ∨ st = ptTraining ∨ st = ptIdentity ∨ !s.elapsed (s.tport port).beacon s.beaconInterval then s
     else (s.sendIdentity port 1).modTport port (fun p => { p with beacon := s.now }))

/-- TRAIN_STEP_TIMEOUT (R360, R378): a torus port, or port H. -/
def execTrainStepTimeout (port : Nat) (s : State) : Host.Outcome State Fault Refusal :=
  let p := s.tport port
  if port = 8 then done s s.hostTrainTimeout
  else portRow port s
    (if (s.pstate port = ptTraining ∨ s.pstate port = ptIdentity) ∧ p.since + trainBound p.step ≤ s.now then s.trainFails port else s)

/-- IDENTITY (R360). -/
def execIdentity (port : Nat) (r : IdRecord) (s : State) : Host.Outcome State Fault Refusal := portRow port s (s.identityIn port r)

/-- IDENTITY_UPDATE (R364). -/
def execIdentityUpdate (port : Nat) (r : IdRecord) (s : State) : Host.Outcome State Fault Refusal :=
  portRow port s (s.identityUpdate port r)

/-- LIGHT_LOSS (R361). -/
def execLightLoss (port lanes : Nat) (s : State) : Host.Outcome State Fault Refusal := portRow port s (s.lightLoss port lanes)

/-- HELLO_TIMEOUT (R361). -/
def execHelloTimeout (port : Nat) (s : State) : Host.Outcome State Fault Refusal :=
  portRow port s
    (if s.portUp port ∧ s.elapsed (s.tport port).lastHello (3 * s.beaconInterval) = true then s.portLost port else s)

/-- HOLD_EXPIRY (R362). -/
def execHoldExpiry (port : Nat) (s : State) : Host.Outcome State Fault Refusal :=
  portRow port s
    (if s.pstate port = ptHeld ∧ (s.tport port).holdUntil ≤ s.now then
       (s.idlePort port).modTport port (fun p => { p with flaps := [] })
     else s)

/-- HOLD_BASE_RESTORE (R362). -/
def execHoldBaseRestore (port : Nat) (s : State) : Host.Outcome State Fault Refusal :=
  portRow port s
    (if s.portUp port ∧ s.elapsed (s.tport port).upSince (s.rd O.holdMax * 1000000) = true then s.wr (O.holdNext port) (s.rd O.holdBase)
     else s)

/-- Whether an object is PORT_CONTROL. -/
def isPortControl (k : Nat) : Bool := decide (0x7010 ≤ keyIndex k) && decide (keyIndex k ≤ 0x7015) && decide (keySub k = 2)

/-- DISABLE of a port (R363): a loss of the same microsecond counts neither as a loss nor as a flap. -/
def State.disableNow (s : State) (n : Nat) : State :=
  let t := s.disablePort n
  if (s.tport n).lostAt = some s.now then
    ((t.wr (O.lossCount n) (t.rd (O.lossCount n) - 1)).modTport n (fun p =>
      { p with lostAt := none, flaps := p.flaps.filter (fun f => decide (f ≠ s.now)) }))
  else t

/-- A write of PORT_CONTROL (R363). -/
def portControlEffect (s : State) (_f : Frame) (k v : Nat) : Served :=
  let n := keyIndex k - 0x7010
  let st := s.pstate n
  if v = 1 then
    (if st ≠ ptDisabled ∨ s.dimSize (n / 2) = 1 ∨ s.domainOn (0x40 + n) = false then .done s stState [] else .done (s.darkPort n) stOk [])
  else if v = 2 then .done (s.disableNow n) stOk []
  else if v = 3 then
    (if st ≠ ptUp then .done s stState [] else .done ((s.leaveUp n ptTraining).beginTraining n) stOk [])
  else if v = 4 then
    (if st ≠ ptHeld then .done s stState []
     else .done (((s.idlePort n).modTport n (fun p => { p with flaps := [] })).wr (O.holdNext n) (s.rd O.holdBase)) stOk [])
  else .done s stRange []

/-- PORT_ENABLE (R363). -/
def execPortEnable (f : Frame) (s : State) : Host.Outcome State Fault Refusal :=
  settled s (writeRow (fun k v => isPortControl k && decide (v = 1)) portControlEffect f s)

/-- PORT_DISABLE (R363). -/
def execPortDisable (f : Frame) (s : State) : Host.Outcome State Fault Refusal :=
  settled s (writeRow (fun k v => isPortControl k && decide (v = 2)) portControlEffect f s)

/-- PORT_RETRAIN (R363). -/
def execPortRetrain (f : Frame) (s : State) : Host.Outcome State Fault Refusal :=
  settled s (writeRow (fun k v => isPortControl k && decide (v = 3)) portControlEffect f s)

/-- CLEAR_HOLD (R363). -/
def execClearHold (f : Frame) (s : State) : Host.Outcome State Fault Refusal :=
  settled s (writeRow (fun k v => isPortControl k && decide (v = 4)) portControlEffect f s)

/-- FLIT (R355). -/
def execFlit (port : Nat) (fl : Flit) (s : State) : Host.Outcome State Fault Refusal := portRow port s (s.flitIn port fl)

/-- NAK (R355). -/
def execNak (port seq : Nat) (s : State) : Host.Outcome State Fault Refusal := portRow port s (s.nakIn port seq)

/-- KEEPALIVE (R366). -/
def execKeepalive (partner : Nat) (s : State) : Host.Outcome State Fault Refusal :=
  settled s
    (if s.remotePartners.contains partner ∧ s.elapsed (s.torus.sentTo.get 0 partner) s.beaconInterval = true then
       s.emit (.keepalive partner)
     else s)

/-- REMOTE_PARTNER_TIMEOUT (R366). -/
def execRemotePartnerTimeout (partner : Nat) (s : State) : Host.Outcome State Fault Refusal :=
  settled s (if s.elapsed (s.torus.heard.get 0 partner) (3 * s.beaconInterval) then s.remoteLost partner else s)

/-- PACKET (R367-R374). -/
def execPacket (port vc : Nat) (p : Packet) (s : State) : Host.Outcome State Fault Refusal := portRow port s (s.packetIn port vc p)

/-- LINE_NOTICE (R369). -/
def execLineNotice (port dim link : Nat) (down : Bool) (origin : Nat) (s : State) : Host.Outcome State Fault Refusal :=
  portRow port s (s.lineNoticeIn port dim link down origin)

/-- UNREACHABLE_NOTICE (R366, R372). -/
def execUnreachableNotice (p : Packet) (dest : Nat) (s : State) : Host.Outcome State Fault Refusal := settled s (s.unreachableIn p dest)

/-- FLOW_RESET (R374). -/
def execFlowReset (source cls : Nat) (s : State) : Host.Outcome State Fault Refusal := done s (s.flowResetIn source cls)

/-- ROUTE_REJOIN (R373): once ROUTE_REJOIN_HOLD has passed, ordered classes adopt the new direction. -/
def execRouteRejoin (dim link : Nat) (s : State) : Host.Outcome State Fault Refusal :=
  done s { s with torus := { s.torus with rejoin := s.torus.rejoin.filter (fun r =>
    decide (r.dim ≠ dim) || decide (r.link ≠ link) || !s.elapsed r.since (s.rd O.routeRejoinHold)) } }

/-- PTP_MESSAGE (R376): on an UP torus port, or on the Tally port while it is the parent. -/
def execPtpMessage (port : Nat) (m : PtpMsg) (s : State) : Host.Outcome State Fault Refusal :=
  if 6 ≤ port ∧ port ≠ 9 then .fault .noSuchUnit
  else if port < 6 then done s (if s.portUp port then s.ptpIn port m else s)
  else done s (if s.rd O.tallyLinkState = 1 ∧ s.rd O.timeParent = 9 then s.ptpIn 9 m else s)

/-- PTP_SEND (R376). -/
def execPtpSend (port : Nat) (s : State) : Host.Outcome State Fault Refusal :=
  if 6 ≤ port then .fault .noSuchUnit else done s (if s.portUp port then s.ptpOut port else s)

/-- A write of TIME_SET (R377): at a time root. -/
def timeSetEffect (s : State) (_f : Frame) (_k v : Nat) : Served :=
  if s.rd O.timeParent ≠ 0xFF then .done s stState []
  else .done { s.wr O.timeNow v with torus := { s.torus with frac := 0 } } stOk []

/-- TIME_SET (R377). -/
def execTimeSet (f : Frame) (s : State) : Host.Outcome State Fault Refusal :=
  done s (writeRow (fun k _ => decide (k = O.timeSet)) timeSetEffect f s)

/-- HOST_LINK_RESET (R381): `down` when the link has gone down. -/
def execHostLinkReset (r : HostReset) (s : State) : Host.Outcome State Fault Refusal := done s (s.hostReset r)

/-- HOST_LINK_UP (R378, R379). -/
def execHostLinkUp (h : HostTrained) (s : State) : Host.Outcome State Fault Refusal := done s (s.hostUp h)

/-- TORUS_TRAINING_STEP_DONE (R360, R378): a torus port, or port H. -/
def execTorusTrainingStepDone (port localMask remoteMask : Nat) (s : State) : Host.Outcome State Fault Refusal :=
  if port = 8 then done s (s.hostTrainStep localMask remoteMask)
  else portRow port s (s.trainStep port localMask remoteMask)

/-- TALLY_LINK_CHANGE (R383): a parent that goes leaves the time in HOLDOVER (R377). -/
def execTallyLinkChange (up : Bool) (s : State) : Host.Outcome State Fault Refusal :=
  let t := s.wr O.tallyLinkState up.toNat
  done s (if !up ∧ s.rd O.tallyLinkState = 1 ∧ s.rd O.timeParent = 9 then t.wr O.timeState 3 else t)

end Sys2Proof.Machine
end

