-- ==== Sys2Proof/Machine/Scarf.lean ====
section
/-! DEFINITION. Die link training (R399-R403), exclusion of a compute die (R402, R424) and the end of a die reset (R454). -/

namespace Sys2Proof.Machine

/-- A die link at run time. -/
def State.dieLink (s : State) (n : Nat) : DieLink := s.dies.links.get DieLink.fresh n

/-- The state with a die link replaced. -/
def State.setDieLink (s : State) (n : Nat) (v : DieLink) : State :=
  { s with dies := { s.dies with links := s.dies.links.set DieLink.fresh n v } }

/-- The die links. -/
def allLinks : List Nat := natsFrom 0 10

/-- The die links of a die. -/
def linksOf (d : Nat) : List Nat := allLinks.filter (fun n => decide ((linkEnds n).1 = d) || decide ((linkEnds n).2 = d))

/-- The compute dies at the ends of a link. -/
def linkDies (n : Nat) : List Nat := [(linkEnds n).1, (linkEnds n).2].filter (fun d => decide (d < 4))

/-- Whether the fabric of a die is powered: the IOD is always on. -/
def State.fabricOn (s : State) (d : Nat) : Bool := decide (d = 4) || s.domainOn (0x30 + d) || decide (s.domain (0x30 + d) = domUp)

/-- Whether both ends of a link are powered. -/
def State.linkLive (s : State) (n : Nat) : Bool := s.fabricOn (linkEnds n).1 && s.fabricOn (linkEnds n).2

/-- The width that an end claims (R399): the largest of 8, 4, 2 and 1 within its passing modules and the cap; 0 where none passes. -/
def claimWidth (mask cap : Nat) : Nat :=
  ([8, 4, 2, 1].find? (fun w => decide (w ≤ laneCount mask 8) && decide (w ≤ cap))).getD 0

/-- The lowest `w` modules of a mask. -/
def lowestModules (mask : Nat) : Nat → Nat
  | 0 => 0
  | w + 1 =>
    match (natsFrom 0 8).find? (fun i => mask.testBit i) with
    | some i => 2 ^ i + lowestModules (mask - 2 ^ i) w
    | none => 0

/-- The rank of a stepping in the order of release (R10). -/
def steppingRank (v : Nat) : Nat := if v = 0x00 then 0 else if v = 0x01 then 1 else 2

/-- The Walk mode reason of the stepping check, 0 where the combination is permitted (R404). -/
def steppingReason (l : List Nat) : Nat :=
  let compute := l.take 4
  let io := l.getD 4 0
  let first := l.getD 0 0
  if l.any (fun v => decide (v ≠ 0x01) && decide (v ≠ 0x10)) then 0x04
  else if compute.any (fun v => decide (v ≠ first)) then 0x05
  else if steppingRank first < steppingRank io then 0x06
  else if steppingRank io + 1 < steppingRank first then 0x07
  else 0

/-- A claim as its object shows it (Table 15.5). -/
def DieClaim.word (c : DieClaim) : Nat := c.epoch % 65536 * 65536 + c.mask % 256 * 256 + c.width % 256

/-- A training of a link begins with a width cap (R400); no link trains in a package of a combination that is not permitted (R404). -/
def State.trainLink (s : State) (n cap : Nat) (single : Bool) : State :=
  let l := s.dieLink n
  if steppingReason s.fuses.steppings ≠ 0 then s else
  let t := s.setDieLink n { l with cap := cap, single := single, step := 1, since := s.now, began := s.now, claimA := none, claimB := none,
                                   gotA := false, gotB := false, trained := true, replays := [], retryAt := none }
  let t := t.wrAll [(O.slState n, 1), (O.slEpoch n, l.epochA), (O.slLanesRepaired n, 0)]
  if l.trained then t.add (O.slRetrains n) 1 else t

/-- A link is not trained any more: an end has lost its power or is reset, or its training failed. LINK_WIDTH and LINK_STATE keep what the last
training gave (log entry 111, DESIGN CHOICE). -/
def State.linkDown (s : State) (n st : Nat) : State :=
  (s.setDieLink n { s.dieLink n with step := 0, claimA := none, claimB := none, gotA := false, gotB := false, replays := [],
                                     retryAt := none }).wr (O.slState n) st

/-- The reset of a die is over once its links are UP (R454): its Bents have their cores back. -/
def State.dieResetOver (s : State) (d : Nat) : State :=
  if (linksOf d).all (fun n => !s.linkLive n || decide (s.rd (O.slState n) = 2)) then
    let t := { s with start := { s.start with dieResets := s.start.dieResets.filter (fun x => decide (x ≠ d)) } }
    let t := State.each (fun (t : State) (b : Nat) => if t.bentOn b then t.bentReady b else t) t (natsFrom (12 * d) 12)
    t.complete (.dieReset d) 0
  else s

/-- A link comes UP on modules (R399-R401): every change of width is a Cut List revision. -/
def State.linkReady (s : State) (n w modules : Nat) : State :=
  let t := s.setDieLink n { s.dieLink n with step := 0, retryAt := none }
  let t := t.wrAll [(O.slState n, 2), (O.slModules n, modules), (O.slRate n, (s.feature 1).toNat)]
  let t := t.cutRevise [(O.linkWidth n, w), (O.linkState n, if w = 8 then 0 else 1)]
  State.each State.dieResetOver t t.start.dieResets

/-- The domains of a compute die: its Bents, its fabric, its HBM channels (Table 17.6). -/
def dieDomains (d : Nat) : List Nat := natsFrom (12 * d) 12 ++ [0x30 + d] ++ natsFrom (0x34 + 3 * d) 3

/-- The units of a compute die go out of use (R402, R403): its messages are discarded, its links are FAILED, its Bents are lost, its domains read
EXCLUDED. -/
def State.excludeUnits (s : State) (d : Nat) : State :=
  let t := (s.dieGone d).complete (.dieReset d) 0x17
  let t := { t with start := { t.start with dieResets := t.start.dieResets.filter (fun x => decide (x ≠ d)) } }
  let t := State.each (fun (t : State) (n : Nat) => t.linkDown n 3) t (linksOf d)
  let t := State.each (fun (t : State) (b : Nat) => if t.bentOn b then t.bentLost b else t) t (natsFrom (12 * d) 12)
  State.each (fun (t : State) (i : Nat) =>
    (((t.complete (.domain i true) 0x17).complete (.domain i false) 0).wr (O.domainState i) domExcluded).wr (O.domainPending i) 0) t (dieDomains d)

/-- The Cut List fields that the exclusion of a compute die changes (R41, R402): PAGE_FRAMES of its stacks stays (log entry 111, DESIGN CHOICE). -/
def excludedFields (d : Nat) : List (Nat × Nat) :=
  [(O.dieState d, 2)] ++ (natsFrom (12 * d) 12).map (fun b => (O.bentState b, 2)) ++ (natsFrom (3 * d) 3).map (fun k => (O.stackState k, 2))
    ++ (linksOf d).flatMap (fun n => [(O.linkState n, 2), (O.linkWidth n, 0)])

/-- What follows the exclusion of a compute die after the start (R420, R424, R432): the record, the flag and a drain; a slot that holds one of its
cores faults. -/
def State.excludedLater (s : State) (d : Nat) : State :=
  let sus := s.suspect susDie d
  let starts := decide (s.rd O.drainState = 0)
  let t := (s.record 9 sus 0xFFFFFFFF (s.rd (O.dieRetrainFails d)) (if starts then 4 else 0)).storeFlag sus
  let t := if starts then t.startDrain 3 sus else t
  State.each (fun (t : State) (i : Nat) =>
    let first := t.rd (O.firstBent i)
    if (natsFrom (12 * d) 12).any (fun b => decide (first ≤ b) && decide (b < first + t.rd (O.bentCount i))) then
      (match (t.slot i).item with
       | some it => t.stageFaultOf i sfCore it.kind it.mb
       | none => t.stageFaultOf i sfCore 0 0)
    else t) t t.planned

/-- Compute dies are excluded by one event (R402, R403, R424), which is one revision of the Cut List (R41). During a start the package enters
Walk mode; afterwards the record, the flag and a drain follow. -/
def State.excludeDies (s : State) (ds : List Nat) : State :=
  if ds.isEmpty then s
  else
    let t := (State.each State.excludeUnits s ds).cutRevise (ds.flatMap excludedFields)
    match s.start.phase with
    | .step _ => t.enterWalk 0x0A
    | _ => State.each State.excludedLater t ds

/-- A training fails (R402): the compute dies at the link's ends are charged; those at their third failure are excluded. -/
def State.trainingFails (s : State) (n : Nat) : State :=
  let t := (s.linkDown n 0).setDieLink n { (s.linkDown n 0).dieLink n with retryAt := some (s.now + 1000) }
  let t := State.each (fun (t : State) (d : Nat) => t.wr (O.dieRetrainFails d) (min 255 (t.rd (O.dieRetrainFails d) + 1))) t (linkDies n)
  t.excludeDies ((linkDies n).filter (fun d => decide (3 ≤ t.rd (O.dieRetrainFails d)) && decide (t.rd (O.dieState d) ≠ 2)))

/-- Both claims have arrived (R399, R401). -/
def State.judgeClaims (s : State) (n : Nat) (a b : DieClaim) : State :=
  let l := s.dieLink n
  let common := a.mask &&& b.mask
  let least := min a.width b.width
  if common = 0 then s.trainingFails n
  else if a.epoch = b.epoch ∧ a.width = b.width ∧ a.width ≤ laneCount common 8 then s.linkReady n a.width (lowestModules common a.width)
  else
    let t := s.add (O.slDisagreements n) 1
    if l.single then t.linkReady n 1 (lowestModules common 1)
    else
      let e := (max a.epoch b.epoch + 1) % 65536
      (t.setDieLink n { l with epochA := e, epochB := e }).trainLink n least true

/-- The module test of one end is done (R399, Table 15.4): the end forms its claim and sends it. -/
def State.testDone (s : State) (n : Nat) (endB : Bool) (mask repaired : Nat) : State :=
  let l := s.dieLink n
  let c : DieClaim := ⟨if endB then l.epochB else l.epochA, mask % 256, claimWidth (mask % 256) l.cap⟩
  if s.rd (O.slState n) ≠ 1 ∨ l.step ≠ 1 ∨ (if endB then l.claimB else l.claimA).isSome = true then s
  else
    let l := if endB then { l with claimB := some c } else { l with claimA := some c }
    let both := l.claimA.isSome && l.claimB.isSome
    let t := s.setDieLink n (if both then { l with step := 2, since := s.now } else l)
    let t := t.wr (O.slLanesRepaired n) (min 255 (t.rd (O.slLanesRepaired n) + repaired))
    if endB then t else t.wr (O.slLocalClaim n) c.word

/-- A claim arrives at the other end (R399); once both have arrived, they are compared. -/
def State.claimIn (s : State) (n : Nat) (fromB : Bool) (c : DieClaim) : State :=
  let l := s.dieLink n
  let sent := if fromB then l.claimB else l.claimA
  if s.rd (O.slState n) ≠ 1 ∨ sent ≠ some c then s
  else
    let l := if fromB then { l with gotB := true } else { l with gotA := true }
    let t := s.setDieLink n l
    let t := if fromB then t.wr (O.slRemoteClaim n) c.word else t
    match l.claimA, l.claimB with
    | some a, some b => if l.gotA && l.gotB then t.judgeClaims n a b else t
    | _, _ => t

/-- The bound of a training step in µs (Table 15.4). -/
def dieTrainBound (step : Nat) : Nat := if step = 1 then 500 else if step = 2 then 20 else 50

/-- A step of a training, or the training as a whole, exceeds its bound (R400, R402). -/
def State.trainingExpires (s : State) (n : Nat) : State :=
  let l := s.dieLink n
  if s.rd (O.slState n) = 1 ∧ (l.since + dieTrainBound l.step ≤ s.now ∨ l.began + s.rd O.slRetrainBound ≤ s.now) then s.trainingFails n
  else s

/-- 1 ms after a failed training the link trains again (R402). -/
def State.trainAgain (s : State) (n : Nat) : State :=
  match (s.dieLink n).retryAt with
  | some u => if u ≤ s.now ∧ s.rd (O.slState n) = 0 ∧ s.linkLive n = true then s.trainLink n 8 false else s
  | none => s

/-- A flit arrives (R388): one whose CRC fails is replayed; too many replays within 100 µs retrain the link with the cap it has. -/
def State.scarfFlitIn (s : State) (n : Nat) (crcOk : Bool) : State :=
  if s.rd (O.slState n) ≠ 2 then s
  else if crcOk then s.kpc 0x07 n 1
  else
    let l := s.dieLink n
    let times := s.now :: l.replays.filter (fun x => decide (s.now < x + 100))
    let t := (((s.kpc 0x07 n 1).add (O.slCrcErrors n) 1).add (O.slReplays n) 1).setDieLink n { l with replays := times }
    if s.rd O.slRetryLimit ≤ times.length then t.trainLink n l.cap false else t

/-- The links of a die train because the die comes up or is reset: its end starts with epoch 0 (R399). -/
def State.trainDie (s : State) (d : Nat) : State :=
  State.each (fun (t : State) (n : Nat) =>
    if t.linkLive n then
      let l := t.dieLink n
      (t.setDieLink n (if (linkEnds n).1 = d then { l with epochA := 0 } else { l with epochB := 0 })).trainLink n 8 false
    else t) s (linksOf d)

end Sys2Proof.Machine
end

