-- ==== Sys2Proof/Machine/DieRows.lean ====
section
/-! DEFINITION. The rows of chapter 15: die link training, die link flits, the die protocol's messages and RLC_ENABLE. -/

namespace Sys2Proof.Machine

/-- A row about a die link. -/
def linkRow (n : Nat) (s t : State) : Host.Outcome State Fault Refusal := if 10 ≤ n then .fault .noSuchUnit else settled s t

/-- A row about a die, the IOD (die 4) among them, whose outcome may let a core go on. -/
def anyDieRow (d : Nat) (s t : State) : Host.Outcome State Fault Refusal := if 5 ≤ d then .fault .noSuchUnit else settled s t

/-- A row about a compute die. -/
def dieRow (d : Nat) (s t : State) : Host.Outcome State Fault Refusal := if 4 ≤ d then .fault .noSuchUnit else done s t

/-- Whether an object is SL_CONTROL. -/
def isSlControl (k : Nat) : Bool := decide (0xB000 ≤ keyIndex k) && decide (keyIndex k < 0xB00A) && decide (keySub k = 2)

/-- A write of SL_CONTROL (R405): refused unless the link is UP; RETRAIN begins a training with width cap 8. -/
def slControlEffect (s : State) (_f : Frame) (k _v : Nat) : Served :=
  let n := keyIndex k - 0xB000
  if s.rd (O.slState n) = 2 then .done (s.trainLink n 8 false) stOk [] else .done s stState []

/-- SL_RETRAIN (R400, R405). -/
def execSlRetrain (f : Frame) (s : State) : Host.Outcome State Fault Refusal :=
  done s (writeRow (fun k _ => isSlControl k) slControlEffect f s)

/-- DIE_LINK_TEST_DONE (R399, R400). -/
def execDieLinkTestDone (link : Nat) (endB : Bool) (mask repaired : Nat) (s : State) : Host.Outcome State Fault Refusal :=
  linkRow link s (s.testDone link endB mask repaired)

/-- CLAIM (R399, R401): the claim of one end arrives at the other. -/
def execClaim (link : Nat) (fromB : Bool) (epoch mask width : Nat) (s : State) : Host.Outcome State Fault Refusal :=
  linkRow link s (s.claimIn link fromB ⟨epoch, mask, width⟩)

/-- DIE_TRAIN_TIMEOUT (R402). -/
def execDieTrainTimeout (link : Nat) (s : State) : Host.Outcome State Fault Refusal := linkRow link s (s.trainingExpires link)

/-- DIE_TRAIN_RETRY (R402). -/
def execDieTrainRetry (link : Nat) (s : State) : Host.Outcome State Fault Refusal := linkRow link s (s.trainAgain link)

/-- SCARF_FLIT (R388). -/
def execScarfFlit (link : Nat) (crcOk : Bool) (s : State) : Host.Outcome State Fault Refusal := linkRow link s (s.scarfFlitIn link crcOk)

/-- DIE_READ (R390, R392, R395, R396). -/
def execDieRead (die block : Nat) (s : State) : Host.Outcome State Fault Refusal := anyDieRow die s (s.dieRead die block)

/-- DIE_WRITE (R390, R393). -/
def execDieWrite (die block : Nat) (bytes : Map Byte) (s : State) : Host.Outcome State Fault Refusal := anyDieRow die s (s.dieWrite die block bytes)

/-- READ_DATA (R392). -/
def execReadData (die block : Nat) (s : State) : Host.Outcome State Fault Refusal := anyDieRow die s (s.dataIn die block)

/-- INVALIDATE (R393, R395). -/
def execInvalidate (die block : Nat) (s : State) : Host.Outcome State Fault Refusal := dieRow die s (s.invalidateIn die block)

/-- INV_ACK (R393). -/
def execInvAck (die block : Nat) (s : State) : Host.Outcome State Fault Refusal := if 4 ≤ die then .fault .noSuchUnit else settled s (s.ackIn die block)

/-- WRITE_ACK (R393). -/
def execWriteAck (die block : Nat) (s : State) : Host.Outcome State Fault Refusal := anyDieRow die s (s.writeAckIn die block)

/-- INT_MESSAGE (R389): over the die's link to the IOD. -/
def execIntMessage (die index sub : Nat) (s : State) : Host.Outcome State Fault Refusal :=
  dieRow die s (if s.diesJoined die 4 then s.raiseEvent (index * 256 + sub) else s)

/-- Whether an object is RLC_ENABLE. -/
def isRlcEnable (k : Nat) : Bool := decide (0xB020 ≤ keyIndex k) && decide (keyIndex k < 0xB024) && decide (keySub k = 1)

/-- A write of RLC_ENABLE (R392): 0 invalidates every line before the write completes. -/
def rlcEnableEffect (s : State) (_f : Frame) (k v : Nat) : Served :=
  let d := keyIndex k - 0xB020
  let t := s.wr k v
  .done (if v = 0 then t.setCache d { t.cache d with lines := [], missed := none } else t) stOk []

/-- RLC_ENABLE_WRITE (R392). -/
def execRlcEnableWrite (f : Frame) (s : State) : Host.Outcome State Fault Refusal :=
  done s (writeRow (fun k _ => isRlcEnable k) rlcEnableEffect f s)

end Sys2Proof.Machine
end

