-- ==== Sys2Proof/Machine/Ecc.lean ====
section
/-! DEFINITION. The HBM memory code (R411): Reed-Solomon (38,32) over GF(2^16), and what its decoder makes of symbol errors. -/

namespace Sys2Proof.Machine

/-- Times α in GF(2^16), field polynomial x^16 + x^12 + x^3 + x + 1 (R411). -/
def gfDouble (a : Nat) : Nat := if a < 32768 then 2 * a else ((2 * a) % 65536) ^^^ 0x100B

/-- The product in GF(2^16), over the lowest `n` bits of `b`. -/
def gfMulBits (a b : Nat) : Nat → Nat
  | 0 => 0
  | n + 1 => (if b % 2 = 1 then a else 0) ^^^ gfMulBits (gfDouble a) (b / 2) n

/-- The product in GF(2^16). -/
def gfMul (a b : Nat) : Nat := gfMulBits a b 16

/-- α to the power `n`. -/
def gfPow : Nat → Nat
  | 0 => 1
  | n + 1 => gfDouble (gfPow n)

/-- `a` to the power 2^n - 1. -/
def gfOnes (a : Nat) : Nat → Nat
  | 0 => 1
  | n + 1 => let p := gfOnes a n; gfMul (gfMul p p) a

/-- The inverse: a to the power 2^16 - 2. -/
def gfInv (a : Nat) : Nat := let p := gfOnes a 15; gfMul p p

/-- The quotient. -/
def gfDiv (a b : Nat) : Nat := gfMul a (gfInv b)

/-- The locator of a symbol position: data symbol 0 is the coefficient of x^37 (log entry 29, PRESUMED). -/
def locator (p : Nat) : Nat := gfPow (37 - p)

/-- Errors of one line by position, each position once and not 0 (R411). -/
def lineErrors (l : List (Nat × Nat)) : List (Nat × Nat) :=
  ((natsFrom 0 38).map (fun p => (p, (l.filter (fun e => decide (e.1 = p))).foldl (fun a e => a ^^^ (e.2 % 65536)) 0))).filter
    (fun e => decide (e.2 ≠ 0))

/-- Syndrome `i`: the sum of the errors times their locators to the power i. -/
def syndrome (es : List (Nat × Nat)) (i : Nat) : Nat :=
  es.foldl (fun a e => a ^^^ (natsFrom 0 i).foldl (fun v _ => gfMul v (locator e.1)) e.2) 0

/-- The six syndromes. -/
def syndromes (es : List (Nat × Nat)) : List Nat := (natsFrom 0 6).map (syndrome es)

/-- The errors at given positions that have the first syndromes given. -/
def solveErrors (s : List Nat) : List Nat → List (Nat × Nat)
  | [a] => [(a, s.getD 0 0)]
  | [a, b] =>
    let x := locator a
    let y := locator b
    let e := gfDiv (s.getD 1 0 ^^^ gfMul x (s.getD 0 0)) (x ^^^ y)
    [(a, s.getD 0 0 ^^^ e), (b, e)]
  | [a, b, c] =>
    let x := locator a
    let y := locator b
    let z := locator c
    let t0 := s.getD 1 0 ^^^ gfMul x (s.getD 0 0)
    let t1 := s.getD 2 0 ^^^ gfMul x (s.getD 1 0)
    let u3 := gfDiv (t1 ^^^ gfMul y t0) (y ^^^ z)
    let e2 := gfDiv (t0 ^^^ u3) (x ^^^ y)
    let e3 := gfDiv u3 (x ^^^ z)
    [(a, s.getD 0 0 ^^^ e2 ^^^ e3), (b, e2), (c, e3)]
  | _ => []

/-- The sets of one to three positions. -/
def errorSets : List (List Nat) :=
  ((natsFrom 0 38).map (fun a => [a])) ++
  ((natsFrom 0 38).flatMap (fun a => (natsFrom (a + 1) (37 - a)).map (fun b => [a, b]))) ++
  ((natsFrom 0 38).flatMap (fun a => (natsFrom (a + 1) (37 - a)).flatMap (fun b => (natsFrom (b + 1) (37 - b)).map (fun c => [a, b, c]))))

/-- What the decoder takes the errors to be (R411): up to 3 symbols with their syndromes; none when there are no such symbols. -/
def decodeErrors (es : List (Nat × Nat)) : Option (List (Nat × Nat)) :=
  let s := syndromes es
  if es.length ≤ 3 then some es
  else if s.all (fun v => decide (v = 0)) then some []
  else (errorSets.map (solveErrors s)).find? (fun c => decide (syndromes c = s))

/-- The bytes of a line changed by errors that stay: data symbol i holds bytes 2i and 2i + 1, little-endian (R411). -/
def spoilLine (bytes : Map Byte) (line : Nat) (es : List (Nat × Nat)) : Map Byte :=
  es.foldl (fun m e =>
    if e.1 < 32 then
      let a := 64 * line + 2 * e.1
      let old := leNat (m.bytes 0#8 a 2)
      m.setBytes 0#8 a (natLe 2 (old ^^^ e.2))
    else m) bytes

end Sys2Proof.Machine
end

