-- ==== Sys2Proof/Machine/IntegrityRows.lean ====
section
/-! DEFINITION. The rows of chapter 16: scrubbing, sampled recompute, implications and drains, the timeouts of levels 3, 5 and 6, and fault
reports. -/

namespace Sys2Proof.Machine

/-! ### Memory (R411-R415) -/

/-- The pool of the page that stands on a frame; the windows of a version that is not shown count as theirs; 255 for none. -/
def State.poolOf (s : State) (f : Nat) : Nat :=
  match s.pages.entries.find? (fun e => decide (e.2.pool ≠ 255) && decide (e.2.frame = f)) with
  | some e => e.2.pool
  | none =>
    if s.slots.entries.any (fun e => e.2.versions.any (fun v => v.weights.contains f)) then 1
    else if s.slots.entries.any (fun e => e.2.versions.any (fun v => v.opt.contains f)) then 2
    else 255

/-- The period over which the corrected symbols of a frame count, in µs (R414). -/
def State.fixPeriod (s : State) : Nat := (if s.rd O.scrubPeriod = 0 then 24 else s.rd O.scrubPeriod) * 3600000000

/-- A frame is marked poisoned in a block (R412). -/
def State.poisonBlock (s : State) (f b : Nat) : State :=
  let v := s.frame f
  s.setFrame f (if v.poison.contains b then v else { v with poison := v.poison ++ [b] })

/-- One line of a frame is read with symbol errors (R411, R412). Answers whether it was uncorrectable. -/
def State.readLine (s : State) (f : Nat) (l : LineErrors) : State × Bool :=
  let k := frameStack f
  let es := lineErrors l.errors
  match decodeErrors es with
  | none => (((s.add (O.memUncorrectable k) 1).poisonBlock f (l.line / 64)), true)
  | some fix =>
    let v := s.frame f
    let old := v.bytes.bytes 0#8 (4096 * (l.line / 64)) 4096
    let bytes := spoilLine v.bytes l.line (lineErrors (es ++ fix))
    let t := s.setFrame f { v with bytes := bytes, fixes := if fix.isEmpty then v.fixes else v.fixes ++ [(s.now, fix.length)] }
    let t := t.add (O.memCorrected k) fix.length
    (if crc32c old = crc32c (bytes.bytes 0#8 (4096 * (l.line / 64)) 4096) then t else t.poisonBlock f (l.line / 64), false)

/-- The lines of a frame that are read with errors, in order. -/
def State.readLines (s : State) (f : Nat) : List LineErrors → State × Bool
  | [] => (s, false)
  | l :: r =>
    let (t, bad) := s.readLine f l
    let t := if bad then
        let k := t.suspect susStack (frameStack f)
        t.integrity 2 k 0xFFFFFFFF (f % 2 ^ 32) [k] none (if losesContent (t.poolOf f) then some k else none)
      else t
    let (u, more) := State.readLines t f r
    (u, bad || more)

/-- The stack's controller scrubs its next mapped frame (R413): errors of other frames are not its concern. -/
def State.scrub (s : State) (k : Nat) (errors : List LineErrors) : State :=
  let mapped := ((s.framesOf k).filter (fun e => decide (e.2.use = 1))).map Prod.fst
  if s.rd O.scrubPeriod = 0 ∨ s.stackOn k = false then s
  else
    let at_ := s.dies.scrub.get 0 k
    match mapped.find? (fun n => decide (at_ ≤ n)) with
    | none => (({ s with dies := { s.dies with scrub := s.dies.scrub.set 0 k 0 } }).add (O.scrubPasses k) 1)
    | some n =>
      let f := frameKey k n
      let s := { s with dies := { s.dies with scrub := s.dies.scrub.set 0 k (n + 1) } }
      let (t, bad) := s.readLines f (errors.filter (fun l => decide (l.frame = n) && decide (l.line < 1024)))
      let v := t.frame f
      let fixes := v.fixes.filter (fun e => decide (t.now < e.1 + t.fixPeriod))
      let more := decide (v.fixes ≠ (s.frame f).fixes)
      let t := t.setFrame f { v with fixes := fixes }
      let t := if bad || (more && decide (t.rd O.retireCorrected ≤ (fixes.map Prod.snd).sum)) then t.retire f else t
      if (mapped.getLast?).getD 0 = n then ({ t with dies := { t.dies with scrub := t.dies.scrub.set 0 k 0 } }).add (O.scrubPasses k) 1 else t

/-- SCRUB_READ (R413). -/
def execScrubRead (stack : Nat) (errors : List LineErrors) (s : State) : Host.Outcome State Fault Refusal :=
  if 12 ≤ stack then .fault .noSuchUnit else settled s (s.scrub stack errors)

/-! ### Sampled recompute (R416-R418) -/

/-- Whether a core's matrix engine is idle: no matrix descriptor of it is under way. -/
def Core.matrixIdle (k : Core) : Bool := k.inflight.all (fun i => decide (opUnit (dOp i.desc) ≠ 1) || decide (i.stage = .complete))

/-- A tile with errors in its words: 0 to 1023 the s words, 1024 to 2047 the e words, 2048 the status word. -/
def tileErrors (t : Tile) : List (Nat × W32) → Tile
  | [] => t
  | (i, v) :: r =>
    let u :=
      if i < 1024 then { t with s := t.s.set 0#32 i (t.s.get 0#32 i ^^^ v) }
      else if i < 2048 then { t with e := t.e.set 0#32 (i - 1024) (t.e.get 0#32 (i - 1024) ^^^ v) }
      else { t with status := t.status ^^^ v.toNat }
    tileErrors u r

/-- How many of the 2,049 words of two tiles differ (R417). -/
def tileDiffers (a b : Tile) : Nat :=
  ((natsFrom 0 1024).filter (fun i => decide (a.s.get 0#32 i ≠ b.s.get 0#32 i))).length
    + ((natsFrom 0 1024).filter (fun i => decide (a.e.get 0#32 i ≠ b.e.get 0#32 i))).length + (if a.status = b.status then 0 else 1)

/-- A partner executes the MM in its recompute buffer and compares (R417, R418); `errors` are what its arithmetic got wrong. -/
def State.recompute (s : State) (p : Nat) (errors : List (Nat × W32)) (forced : Bool) : State :=
  match (s.core p).sample with
  | none => s
  | some r =>
    if forced && decide (s.coreCycles p < r.since + 16384) then s
    else if !forced && !(s.core p).matrixIdle then s
    else
      let k := s.core r.owner
      let found := tileErrors (mmRun r.x ⟨k.mem, (s.bent (r.owner / 64)).mem⟩ r.desc r.start).1 errors
      let n := tileDiffers r.result found
      let t := (s.modCore p (fun k => { k with sample := none })).add O.recomputeSampled 1
      let t := if n = 0 then t
        else
          let a := t.suspect susCore r.owner
          let b := t.suspect susCore p
          (t.add O.recomputeMismatches 1).integrity 4 a b (dSeq r.desc * 65536 + n) [a, b] (some reIntegrity) none
      t.sampleDone r.owner p

/-- RECOMPUTE_RUN (R417): the partner core's matrix engine is idle. -/
def execRecomputeRun (core : Nat) (errors : List (Nat × W32)) (s : State) : Host.Outcome State Fault Refusal :=
  settledRow core s (s.recompute core errors false)

/-- RECOMPUTE_FORCE (R417): the copy has waited 16,384 cycles. -/
def execRecomputeForce (core : Nat) (errors : List (Nat × W32)) (s : State) : Host.Outcome State Fault Refusal :=
  settledRow core s (s.recompute core errors true)

/-! ### Implications and drains (R419-R423) -/

/-- IMPLICATION_EXPIRY (R419). -/
def execImplicationExpiry (suspect : Nat) (s : State) : Host.Outcome State Fault Refusal :=
  let kept := s.faults.implications.filter (fun e => decide (e.suspect ≠ suspect) || decide (s.time ≤ e.last + s.implicateWindow))
  done s { s with faults := { s.faults with implications := kept } }

/-- A write of DRAIN_CONTROL (R423). -/
def drainControlEffect (s : State) (_f : Frame) (_k v : Nat) : Served :=
  if v = 1 then
    (if s.rd O.drainState = 0 then .done (s.startDrain 5 0xFFFFFFFF) stOk [] else .done s stState [])
  else
    (if s.rd O.drainState = 2 ∧ s.rd O.drainFlag = 0 then .done (s.wr O.drainState 0) stOk [] else .done s stState [])

/-- DRAIN (R420, R423). -/
def execDrain (f : Frame) (s : State) : Host.Outcome State Fault Refusal :=
  settled s (writeRow (fun k v => decide (k = O.drainControl) && decide (v = 1)) drainControlEffect f s)

/-- UNDRAIN (R423). -/
def execUndrain (f : Frame) (s : State) : Host.Outcome State Fault Refusal :=
  settled s (writeRow (fun k v => decide (k = O.drainControl) && decide (v = 2)) drainControlEffect f s)

/-! ### Timeouts (R425-R428) -/

/-- An expiry that implicates its unit and fails the attempt (R419, R427, R428). -/
def State.expiryOf (s : State) (level suspect : Nat) : State :=
  (s.add (O.timeoutExpiries (level - 1)) 1).integrity 5 suspect 0xFFFFFFFF (level * 2 ^ 24) [suspect] (some reTimeout) none

/-- An engine's operation at a Bent has run for BENT_TIMEOUT (R427): 0 Combine, 1 Compress, 2 Optimizer, 3 Layout, 4 Check, 5 page mover. -/
def State.bentExpires (s : State) (b engine : Nat) : State :=
  if s.bentOn b = false then s
  else
    let t := (s.add (O.bentExpiries b) 1).expiryOf 3 (s.suspect susBent b)
    let t := t.faultBentCores b 0x06
    let slot := t.bentSlot b
    if 1 < engine ∨ slot = 0xFF then t
    else State.each (fun (t : State) (c : Nat) => if t.rcStateOf c = 2 ∧ t.rd (O.rcSlot c) = slot then t.faultChannel c else t) t (natsFrom 0 32)

/-- BENT_TIMEOUT (R427). -/
def execBentTimeout (bent engine : Nat) (s : State) : Host.Outcome State Fault Refusal :=
  if 48 ≤ bent then .fault .noSuchUnit else settled s (s.bentExpires bent engine)

/-- A die abandons its requests toward the other end of a link. -/
def State.abandonLink (s : State) (d other : Nat) : State :=
  let c := s.cache d
  let stays := fun (o : DieOp) => decide (homeOf o.block ≠ other)
  let t := s.setCache d { c with reads := c.reads.filter stays, writes := c.writes.filter stays, later := c.later.filter stays }
  { t with dies := { t.dies with msgs := t.dies.msgs.filter (fun (m : DieMsg) =>
      !((decide (m.src = d) && decide (m.dst = other) && decide (m.kind.cls = 0))
        || (decide (m.src = other) && decide (m.dst = d) && (decide (m.kind = .readData) || decide (m.kind = .writeAck))))) } }

/-- A block request or INT message of a die has waited for DIE_TIMEOUT toward a local stack or over a die link (R427). `suspect` is bits [17:0]
of its suspect id. -/
def State.dieExpires (s : State) (d suspect : Nat) : State :=
  let kind := susKind suspect
  let u := susUnit suspect
  if kind = susStack ∧ u / 3 = d ∧ s.stackOn u = true then s.expiryOf 5 (s.suspect susStack u)
  else if kind = susLink ∧ u < 10 ∧ (linkDies u).contains d = true then
    let other := if (linkEnds u).1 = d then (linkEnds u).2 else (linkEnds u).1
    let t := s.abandonLink d other
    let t := if t.rd (O.slState u) = 2 then t.trainLink u 8 false else t
    t.expiryOf 5 (t.suspect susLink u)
  else s

/-- DIE_TIMEOUT (R427). -/
def execDieTimeout (die suspect : Nat) (s : State) : Host.Outcome State Fault Refusal :=
  if 4 ≤ die then .fault .noSuchUnit else settled s (s.dieExpires die suspect)

/-- The cores of a slot are RESET and it enters STOPPED (R427). -/
def State.forceStop (s : State) (i : Nat) : State :=
  let first := s.rd (O.firstBent i)
  let t := State.each (fun (t : State) (c : Nat) => if (t.core c).state = .off then t else t.resetCore c) s
    (natsFrom (64 * first) (64 * s.rd (O.bentCount i)))
  (t.modSlot i (fun v => { v with stopDue := none, item := none, starve := none })).wr (O.stageState i) 4

/-- Slots that have not finished a STOP in time, or any part of a drain in time. -/
def State.overdueSlots (s : State) : List Nat :=
  let drains := decide (s.rd O.drainState = 1) && decide (s.faults.drainDue ≤ s.now)
  s.planned.filter (fun i => (drains && decide (s.stage i ≠ 4))
    || (decide (s.stage i = 3) && ((s.slot i).stopDue).elim false (fun u => decide (u ≤ s.now))))

/-- The package timeout expires (R427): for a STOP or for DRAINING; the other waits of level 6 end at once in this model. -/
def State.packageExpires (s : State) : State :=
  let late := s.overdueSlots
  let drains := decide (s.rd O.drainState = 1) && decide (s.faults.drainDue ≤ s.now)
  if late.isEmpty && !drains then s
  else
    let own := s.suspect susPackage 0
    let serving := decide (s.rd O.drainState = 0)
    let t := (s.add (O.timeoutExpiries 5) 1).record 5 own 0xFFFFFFFF (6 * 2 ^ 24) (if serving then 4 else 0)
    let t := State.each State.forceStop t late
    if serving then t.startDrain 4 own else if drains then t.wr O.drainState 2 else t

/-- PACKAGE_TIMEOUT (R427). -/
def execPackageTimeout (s : State) : Host.Outcome State Fault Refusal := settled s s.packageExpires

/-! ### Fault reports (R432-R434) -/

/-- Whether a record's CHECK is good. -/
def recordGood (r : Bytes) : Bool := decide (r.length = 64) && decide (leNat (r.drop 60) = (crc32c (r.take 60)).toNat)

/-- A fault report frame from a child (R432). -/
def State.reportIn (s : State) (f : Frame) : State :=
  if !s.served || s.walk || decide (f.carrier ≠ .torus) then s
  else
    let t := s.trace f
    if !f.intact then t.add O.checkErrors 1
    else if f.version ≠ 1 then t.add O.versionErrors 1
    else
      let t := (t.add O.framesReceived 1).kpc 0x10 0 1
      if f.kind = 4 ∧ f.session = 0 ∧ f.dest = s.node.id ∧ f.key = O.faultReport ∧ recordGood f.body = true then
        (t.setDom O.faultReport (Map.setBytes Map.empty 0#8 0 f.body)).addReport f.body
      else t

/-- FAULT_REPORT (R432). -/
def execFaultReport (f : Frame) (s : State) : Host.Outcome State Fault Refusal := done s (s.reportIn f)

/-- A record with the OVERFLOW bit (R434). -/
def withOverflow (r : Bytes) : Bytes :=
  let b := (r.take 2 ++ natLe 1 (byteField r 2 1 ||| 1) ++ r.drop 3).take 60
  b ++ natLe 4 (crc32c b).toNat

/-- The frame that carries a report to the parent (R432). -/
def State.reportFrame (s : State) (r : Bytes) : Frame :=
  Frame.seal { carrier := .torus, slot := 0, carried := 0, version := 1, kind := 4, command := cmdSubscribe, status := 0, seq := s.faults.seq, session := 0,
               source := s.node.id, dest := s.rd O.faultParent % 16384, index := keyIndex O.faultReport, sub := keySub O.faultReport, flags := 0,
               offset := 0, length := r.length, payload := r, check := 0 }

/-- Whether a pending report may leave now (R433). -/
def State.reportDue (s : State) (p : Report) : Bool :=
  (s.elapsed p.merged (1000 * s.rd O.reportQuiet) || s.elapsed p.created (1000 * s.rd O.reportHoldMax))
    && s.faults.left.all (fun e => decide (e.1 ≠ recSuspect p.record) || s.elapsed e.2 10000)

/-- A pending report is sent to the parent, or delivered at the root (R433, R434). -/
def State.reportOut (s : State) (suspect cls step : Nat) : State :=
  match s.faults.reports.find? (fun p => decide (recSuspect p.record = suspect) && decide (recClass p.record = cls) && decide (recStep p.record = step)) with
  | none => s
  | some p =>
    if !s.reportDue p then s
    else
      let r := if s.faults.overflow then withOverflow p.record else p.record
      let left := (suspect, s.now) :: s.faults.left.filter (fun e => decide (e.1 ≠ suspect))
      let t := ({ s with faults := { s.faults with reports := s.faults.reports.erase p, overflow := false, left := left } }).add O.reportsSent 1
      if s.rd O.faultParent = 0xFFFF then { t with faults := { t.faults with delivered := takeLast 256 (t.faults.delivered ++ [r]) } }.raiseEvent O.lastReport
      else ({ t with faults := { t.faults with seq := (t.faults.seq + 1) % 65536 } }).send .torus (s.rd O.faultParent % 16384) (t.reportFrame r)

/-- REPORT_SEND (R433, R434). -/
def execReportSend (suspect cls step : Nat) (s : State) : Host.Outcome State Fault Refusal := done s (s.reportOut suspect cls step)

end Sys2Proof.Machine
end

