-- ==== Sys2Proof/Machine/Signature.lean ====
section
/-! DEFINITION. Ed25519 verification with SHA-512 (RFC 8032, FIPS 180-4), as R64 and R442 use it. -/

namespace Sys2Proof.Machine

/-! ### SHA-512 -/

/-- The largest number below `r + 2^n` whose `k`-th power is at most `v`, where `r` is one. -/
def rootFrom (k v : Nat) : Nat → Nat → Nat
  | 0, r => r
  | n + 1, r => rootFrom k v n (if (r + 2 ^ n) ^ k ≤ v then r + 2 ^ n else r)

/-- The first 64 bits of the fraction of the `k`-th root of a number below 512 (FIPS 180-4, 4.2.3 and 5.3.5). -/
def rootFraction (k p : Nat) : W64 := BitVec.ofNat 64 (rootFrom k (p * 2 ^ (64 * k)) 69 0)

/-- The primes up to 409, the eightieth. -/
def shaPrimes : List Nat := (natsFrom 2 408).filter (fun p => (natsFrom 2 19).all (fun d => decide (p < d * d) || decide (p % d ≠ 0)))

/-- The round constants of SHA-512: from the cube roots of the first eighty primes. -/
def shaRoundWords : List W64 := shaPrimes.map (rootFraction 3)

/-- The initial hash value: from the square roots of the first eight primes. -/
def shaStart : List W64 := (shaPrimes.take 8).map (rootFraction 2)

/-- The sum modulo 2 of a word rotated right by each of several amounts. -/
def rotations (l : List Nat) (w : W64) : W64 := (l.map (fun n => w.rotateRight n)).foldl (· ^^^ ·) 0

/-- The message schedule: `w` holds the last 16 words, newest first. -/
def shaSchedule (w : List W64) : Nat → List W64
  | 0 => []
  | n + 1 =>
    let old := w.getD 14 0
    let new := w.getD 1 0
    let x := w.getD 15 0 + w.getD 6 0 + (rotations [1, 8] old ^^^ (old >>> 7)) + (rotations [19, 61] new ^^^ (new >>> 6))
    x :: shaSchedule (x :: w.take 15) n

/-- One round on the eight working words, with the sum of the round constant and the scheduled word. -/
def shaRound (h : List W64) (input : W64) : List W64 :=
  let w := fun i => h.getD i 0
  let choice := (w 4 &&& w 5) ||| (~~~(w 4) &&& w 6)
  let majority := (w 0 &&& (w 1 ||| w 2)) ||| (w 1 &&& w 2)
  let t := w 7 + rotations [14, 18, 41] (w 4) + choice + input
  [t + rotations [28, 34, 39] (w 0) + majority, w 0, w 1, w 2, w 3 + t, w 4, w 5, w 6]

/-- A number from bytes, the first the most significant. -/
def beNat (bs : Bytes) : Nat := bs.foldl (fun v b => v * 256 + b.toNat) 0

/-- One block of 128 bytes. -/
def shaBlock (h : List W64) (block : Bytes) : List W64 :=
  let w := (natsFrom 0 16).map (fun i => BitVec.ofNat 64 (beNat ((block.drop (8 * i)).take 8)))
  let all := w ++ shaSchedule w.reverse 64
  (List.zipWith (· + ·) h ((List.zipWith (· + ·) shaRoundWords all).foldl shaRound h))

/-- The blocks of a padded message. -/
def shaBlocks (h : List W64) (bs : Bytes) : Nat → List W64
  | 0 => h
  | n + 1 => shaBlocks (shaBlock h (bs.take 128)) (bs.drop 128) n


/-- SHA-512 of a message. -/
def sha512 (m : Bytes) : Bytes :=
  let zeros := (239 - m.length % 128) % 128
  let p := m ++ [0x80#8] ++ List.replicate zeros 0#8 ++ natBe 16 (8 * m.length)
  (shaBlocks shaStart p (p.length / 128)).flatMap (fun w => natBe 8 w.toNat)

/-! ### The curve edwards25519 -/

/-- The field prime 2^255 - 19. -/
def edP : Nat := 2 ^ 255 - 19
/-- The group order. -/
def edL : Nat := 2 ^ 252 + 27742317777372353535851937790883648493
/-- The curve constant d. -/
def edD : Nat := 37095705934669439343138083508754565189542113879843219016388785533085940283555
/-- A square root of -1. -/
def edI : Nat := 19681161376707505956807079304988542015446066515923890162744021073123829784752

/-- A power modulo the field prime, over the lowest `n` bits of the exponent. -/
def edPow (b e : Nat) : Nat → Nat
  | 0 => 1
  | n + 1 =>
    let h := edPow (b * b % edP) (e / 2) n
    if e % 2 = 1 then h * b % edP else h

/-- A point in extended coordinates. -/
structure EdPoint where
  x : Nat
  y : Nat
  z : Nat
  t : Nat
deriving DecidableEq, Repr

/-- The neutral point. -/
def edZero : EdPoint := ⟨0, 1, 1, 0⟩

/-- The sum of two points. -/
def edAdd (a b : EdPoint) : EdPoint :=
  let p := edP
  let m := (a.y + p - a.x) * (b.y + p - b.x) % p
  let n := (a.y + a.x) * (b.y + b.x) % p
  let c := 2 * a.t * b.t % p * edD % p
  let d := 2 * a.z * b.z % p
  let e := n + p - m
  let f := d + p - c
  let g := d + c
  let h := n + m
  ⟨e * f % p, g * h % p, f * g % p, e * h % p⟩

/-- A multiple of a point, over the lowest `n` bits of the factor. -/
def edMul (k : Nat) (a : EdPoint) : Nat → EdPoint
  | 0 => edZero
  | n + 1 =>
    let r := edMul (k / 2) (edAdd a a) n
    if k % 2 = 1 then edAdd r a else r

/-- Whether two points are equal. -/
def edSame (a b : EdPoint) : Bool := decide (a.x * b.z % edP = b.x * a.z % edP) && decide (a.y * b.z % edP = b.y * a.z % edP)

/-- A point from its 32 bytes (RFC 8032, 5.1.3). -/
def edDecode (bs : Bytes) : Option EdPoint :=
  let v := leNat bs
  let sign := v / 2 ^ 255 % 2
  let y := v % 2 ^ 255
  if bs.length ≠ 32 ∨ edP ≤ y then none
  else
    let u := (y * y + edP - 1) % edP
    let w := (edD * (y * y % edP) + 1) % edP
    let w3 := w * w % edP * w % edP
    let r := u * w3 % edP * edPow (u * w3 % edP * (w3 * w % edP) % edP) ((edP - 5) / 8) 255 % edP
    let c := w * (r * r % edP) % edP
    let x? := if c = u then some r else if c = (edP - u) % edP then some (r * edI % edP) else none
    match x? with
    | none => none
    | some x =>
      if x = 0 ∧ sign = 1 then none
      else
        let x := if x % 2 = sign then x else edP - x
        some ⟨x, y, 1, x * y % edP⟩

/-- The base point. -/
def edBase : EdPoint :=
  let x := 15112221349535400772501151409588531511454012693041857206046113283949847762202
  let y := 46316835694926478169428394003475163141307993866256225615783033603165251855960
  ⟨x, y, 1, x * y % edP⟩

/-- Whether a 64-byte signature of a message verifies under a public key (RFC 8032, 5.1.7). -/
def edVerify (key message signature : Bytes) : Bool :=
  match edDecode key, edDecode (signature.take 32) with
  | some a, some r =>
    let s := leNat (signature.drop 32)
    let k := leNat (sha512 (signature.take 32 ++ key ++ message)) % edL
    decide (signature.length = 64) && decide (s < edL)
      && edSame (edMul 8 (edMul s edBase 256) 4) (edMul 8 (edAdd r (edMul k a 256)) 4)
  | _, _ => false

end Sys2Proof.Machine
end

