-- ==== Sys2Proof/Machine/PowerRows.lean ====
section
/-! DEFINITION. Power domains (R439, R450-R454): transitions and what they mean for the units, requests, and the reset of a compute die. -/

namespace Sys2Proof.Machine

/-- The compute die whose fabric, Bent or HBM channel a domain is (Table 17.6). -/
def domainDie (d : Nat) : Option Nat :=
  if d < 0x30 then some (d / 12) else if d < 0x34 then some (d - 0x30) else if d < 0x40 then some ((d - 0x34) / 3) else none

/-- The power-up bound of a domain in µs (Table 17.6). -/
def upBound (d : Nat) : Nat :=
  if d < 0x30 then 300 else if d < 0x34 then 5000 else if d < 0x40 then 400000 else if d < 0x48 then 50000 else if d < 0x4C then 2000
  else if d < 0x4E then 6000 else 2000

/-- The power-down bound of a domain in µs (Table 17.6). -/
def downBound (d : Nat) : Nat := if d < 0x30 then 100 else if d < 0x4C then 1000 else if d < 0x4E then 14000 else 2000

/-- Whether a reset of the die of a domain is under way (R454). -/
def State.domainResets (s : State) (d : Nat) : Bool := (domainDie d).elim false (fun x => s.start.dieResets.contains x)

/-- Whether the requirement of ENABLE holds (Table 17.6, R454). -/
def State.mayEnable (s : State) (d : Nat) : Bool :=
  if d < 0x30 then s.domainOn (0x30 + d / 12) && !s.domainResets d
  else if 0x34 ≤ d ∧ d < 0x40 then s.domainOn (0x30 + (d - 0x34) / 3) && !s.domainResets d
  else if d = 0x4C ∨ d = 0x4D then s.domainOn 0x46
  else true

/-- Whether a start is under way. -/
def State.starting (s : State) : Bool :=
  match s.start.phase with
  | .step _ => true
  | _ => false

/-- A domain begins a transition. -/
def State.beginDomain (s : State) (d st : Nat) : State :=
  { s.wr (O.domainState d) st with start := { s.start with domSince := s.start.domSince.set 0 d s.now } }

/-- A domain begins POWERING_UP (R439): outside a start, a die fabric trains its links meanwhile (Table 17.6). -/
def State.beginUp (s : State) (d : Nat) : State :=
  let t := s.beginDomain d domUp
  let t := { t with start := { t.start with lastPowerUp := some t.now } }
  if 0x30 ≤ d ∧ d < 0x34 ∧ t.starting = false then t.trainDie (d - 0x30) else t

/-- Let the next waiting domain begin POWERING_UP: at most one in any 20 µs (R439); during a start a Bent or HBM channel waits for its die
fabric. A domain that can no longer power up leaves the queue. -/
def State.powerNext (s : State) : Nat → State
  | 0 => s
  | n + 1 =>
    match s.start.upQueue with
    | [] => s
    | d :: r =>
      let t := { s with start := { s.start with upQueue := r } }
      if !s.domainOff d then State.powerNext t n
      else if !s.mayEnable d then
        (if s.starting && (domainDie d).elim false (fun x => decide (s.domain (0x30 + x) = domUp)) then s
         else State.powerNext (t.complete (.domain d true) stState) n)
      else if (s.start.lastPowerUp).elim true (fun u => s.elapsed u 20) then t.beginUp d
      else s

/-- Let a waiting domain begin, if it may. -/
def State.pumpPower (s : State) : State := s.powerNext (s.start.upQueue.length + 1)

/-- A domain is to power up as soon as the spacing allows it. -/
def State.wantUp (s : State) (d : Nat) : State := ({ s with start := { s.start with upQueue := s.start.upQueue ++ [d] } }).pumpPower

/-- What a domain's reaching ON means for its unit (R115, R363, R378, R397, R466, R471). -/
def State.cameOn (s : State) (d : Nat) : State :=
  if d < 0x30 then ({ s with objs := s.objs.keep (fun k => decide (counterBent k ≠ some d)) }).bentReady d
  else if d < 0x34 then (s.wrAll [(O.dieCycles (d - 0x30), 0), (O.dieClock (d - 0x30), 1600)]).dieRestarts (d - 0x30)
  else if d < 0x40 then s
  else if d < 0x46 then (if 1 < s.dimSize ((d - 0x40) / 2) then s.darkPort (d - 0x40) else s)
  else if d = domHostOptics then (s.wr O.hostLinkState 1).hostBegin
  else s

/-- What a domain's beginning POWERING_DOWN means for its unit (R115, R363, R381, R403). -/
def State.goingOff (s : State) (d : Nat) : State :=
  if d < 0x30 then s.bentLost d
  else if d < 0x34 then State.each (fun (t : State) (n : Nat) => t.linkDown n 0) (s.dieGone (d - 0x30)) (linksOf (d - 0x30))
  else if d < 0x40 then { s with frames := s.frames.keep (fun f => decide (frameStack f ≠ d - 0x34)) }
  else if d < 0x46 then s.disablePort (d - 0x40)
  else if d = 0x46 then s.wrAll [(O.ingestLinkState 0, 0), (O.ingestLinkState 1, 0)]
  else if d = domHostOptics then
    (if s.rd O.hostLinkState = 3 then s.bridgeReset true else s.wrAll [(O.hostLinkState, 0), (O.hostLanesUsed, 0), (O.hostWidth, 0)])
  else s

/-- A domain begins POWERING_DOWN. -/
def State.beginDown (s : State) (d : Nat) : State := (s.goingOff d).beginDomain d domDown

/-- Whether DISABLE is refused (Table 17.6). -/
def State.disableRefused (s : State) (d : Nat) : Bool :=
  if d < 0x30 then (natsFrom (64 * d) 64).any (fun c => (s.core c).active) || decide (s.bentSlot d ≠ 0xFF)
  else if d < 0x34 then
    let units := natsFrom (12 * (d - 0x30)) 12 ++ natsFrom (0x34 + 3 * (d - 0x30)) 3
    units.any (fun u => !(s.domainOff u || decide (s.domain u = domExcluded)) || s.start.upQueue.contains u)
  else if d < 0x40 then s.domainOn d && (s.framesOf (d - 0x34)).any (fun e => decide (e.2.use = 1))
  else if d = 0x46 then !(s.domainOff 0x4C && s.domainOff 0x4D) || s.start.upQueue.contains 0x4C || s.start.upQueue.contains 0x4D
  else if 0x48 ≤ d ∧ d ≤ 0x4E then decide (s.rd O.dataState ≠ 0)
  else false

/-- The state that a request is judged against: a domain that waits for its turn counts as POWERING_UP. -/
def State.judged (s : State) (d : Nat) : Nat := if s.start.upQueue.contains d then domUp else s.domain d

/-- A power-up begins for an ENABLE (R453). -/
def State.enableNow (s : State) (d : Nat) : Served :=
  if 10000 < upBound d then .deferred (s.wantUp d) (.domain d true) else .open_ (s.wantUp d) (.domain d true)

/-- A request judged by Table 17.7 (R451, R453). -/
def State.judgeDomain (s : State) (d : Nat) (enable : Bool) : Served :=
  let st := s.judged d
  if enable then
    if st = domOn then .done s stOk []
    else if st = domUp then .deferred s (.domain d true)
    else if st = domDown then .deferred (s.wr (O.domainPending d) 1) (.domain d true)
    else s.enableNow d
  else
    if st = domOn then
      (if 10000 < downBound d then .deferred (s.beginDown d) (.domain d false) else .open_ (s.beginDown d) (.domain d false))
    else if st = domUp then .deferred (s.wr (O.domainPending d) 2) (.domain d false)
    else if st = domDown then .deferred s (.domain d false)
    else .done s stOk []

/-- A request to a domain (R450-R454): refusals with STATE first, then BUSY, the cancelling of an opposite pending request, and Table 17.7. -/
def State.domainRequest (s : State) (d : Nat) (enable : Bool) : Served :=
  let st := s.judged d
  let pend := s.rd (O.domainPending d)
  if d = domAlwaysOn ∧ enable = false then .done s stRange []
  else if s.domainResets d then .done s stState []
  else if enable ∧ (st = domExcluded ∨ (st ≠ domOn ∧ st ≠ domUp ∧ s.mayEnable d = false)) then .done s stState []
  else if enable = false ∧ s.disableRefused d = true then .done s stState []
  else if pend = (if enable then 1 else 2) then .done s stBusy []
  else if pend ≠ 0 then ((s.complete (.domain d (decide (pend = 1))) stState).wr (O.domainPending d) 0).judgeDomain d enable
  else s.judgeDomain d enable

/-- Whether an object is DOMAIN_CONTROL. -/
def isDomainControl (k : Nat) : Bool := decide (keyIndex k = 0x2011)

/-- A write of DOMAIN_CONTROL (R451). -/
def domainControlEffect (s : State) (_f : Frame) (k v : Nat) : Served := s.domainRequest (keySub k - 1) (decide (v = 1))

/-- DOMAIN_ENABLE (R451-R453). -/
def execDomainEnable (f : Frame) (s : State) : Host.Outcome State Fault Refusal :=
  settled s (writeRow (fun k v => isDomainControl k && decide (v = 1)) domainControlEffect f s)

/-- DOMAIN_DISABLE (R451-R453). -/
def execDomainDisable (f : Frame) (s : State) : Host.Outcome State Fault Refusal :=
  settled s (writeRow (fun k v => isDomainControl k && decide (v = 2)) domainControlEffect f s)

/-- A transition has ended in a state (R453). -/
def State.transitionEnds (s : State) (d st : Nat) : State := (s.wr (O.domainState d) st).add (O.domainTransitions d) 1

/-- Whether a domain's power-up can complete: outside a start a die fabric's links are trained (Table 17.6). -/
def State.upReady (s : State) (d : Nat) : Bool :=
  s.starting || !(decide (0x30 ≤ d) && decide (d < 0x34))
    || (linksOf (d - 0x30)).all (fun n => !s.linkLive n || decide (s.rd (O.slState n) = 2))

/-- A power-up completes (R452, R453). -/
def State.powerUpDone (s : State) (d : Nat) : State :=
  if s.domain d ≠ domUp ∨ s.upReady d = false then s
  else
    let t := ((s.transitionEnds d domOn).cameOn d).complete (.domain d true) stOk
    let t := if t.rd (O.domainPending d) = 2 then (t.wr (O.domainPending d) 0).beginDown d else t
    t.pumpPower

/-- A power-down completes (R452, R453): a pending ENABLE is judged now. -/
def State.powerDownDone (s : State) (d : Nat) : State :=
  if s.domain d ≠ domDown then s
  else
    let t := (s.transitionEnds d domOff).complete (.domain d false) stOk
    if t.rd (O.domainPending d) = 1 then
      let t := t.wr (O.domainPending d) 0
      if t.mayEnable d then t.wantUp d else t.complete (.domain d true) stState
    else t

/-- A power-up reaches its bound (R440, R453): FAILED, or EXCLUDED during a start. -/
def State.powerUpFails (s : State) (d : Nat) : State :=
  if s.domain d ≠ domUp ∨ s.elapsed (s.start.domSince.get 0 d) (upBound d) = false then s
  else
    let t := s.transitionEnds d (if s.starting then domExcluded else domFailed)
    let t := if 0x30 ≤ d ∧ d < 0x34 then State.each (fun (t : State) (n : Nat) => t.linkDown n 0) t (linksOf (d - 0x30)) else t
    let t := (t.complete (.domain d true) stState).complete (.domain d false) stOk
    (t.wr (O.domainPending d) 0).pumpPower

/-- A row about a power domain. -/
def powerRow (d : Nat) (s t : State) : Host.Outcome State Fault Refusal := if 80 ≤ d then .fault .noSuchUnit else settled s t

/-- POWER_UP_COMPLETE (R453). -/
def execPowerUpComplete (domain : Nat) (s : State) : Host.Outcome State Fault Refusal := powerRow domain s (s.powerUpDone domain)

/-- POWER_DOWN_COMPLETE (R452). -/
def execPowerDownComplete (domain : Nat) (s : State) : Host.Outcome State Fault Refusal := powerRow domain s (s.powerDownDone domain)

/-- POWER_UP_TIMEOUT (R440, R453). -/
def execPowerUpTimeout (domain : Nat) (s : State) : Host.Outcome State Fault Refusal := powerRow domain s (s.powerUpFails domain)

/-- Whether some Bent of a die belongs to a slot that is neither UNUSED nor STOPPED (R454). -/
def State.dieInUse (s : State) (d : Nat) : Bool :=
  (natsFrom (12 * d) 12).any (fun b =>
    let i := s.bentSlot b
    decide (i ≠ 0xFF) && decide (s.stage i ≠ 0) && decide (s.stage i ≠ 4))

/-- The fabric and the Bents of a compute die are reset (R454): its cores are OFF until its links are UP again; the frames of its stacks keep
their contents. -/
def State.resetDie (s : State) (d : Nat) : State :=
  let t := { s with start := { s.start with dieResets := s.start.dieResets ++ [d] } }
  let t := State.each (fun (t : State) (b : Nat) => if t.bentOn b then t.bentLost b else t) t (natsFrom (12 * d) 12)
  let t := State.each (fun (t : State) (n : Nat) => t.linkDown n 0) (t.dieRestarts d) (linksOf d)
  t.trainDie d

/-- Whether an object is DIE_CONTROL. -/
def isDieControl (k : Nat) : Bool := decide (keyIndex k = 0x2014)

/-- A write of DIE_CONTROL (R454). -/
def dieControlEffect (s : State) (_f : Frame) (k _v : Nat) : Served :=
  let d := keySub k - 1
  if !s.domainOn (0x30 + d) || s.start.dieResets.contains d || s.dieInUse d then .done s stState []
  else .deferred (s.resetDie d) (.dieReset d)

/-- DIE_RESET (R454). -/
def execDieReset (f : Frame) (s : State) : Host.Outcome State Fault Refusal :=
  settled s (writeRow (fun k _ => isDieControl k) dieControlEffect f s)

end Sys2Proof.Machine
end

