-- ==== Sys2Proof/Machine/Boot.lean ====
section
/-! DEFINITION. Boot images (R442, R443, R448): judging an image, erasing, writing and verifying a slot. Slot 0 is A, slot 1 is B. -/

namespace Sys2Proof.Machine

/-- Slot states of BOOT_SLOT_STATUS (Table 17.10): ERASED. -/
def slotErased : Nat := 0
/-- VALID. -/
def slotValid : Nat := 1
/-- INVALID. -/
def slotInvalid : Nat := 2
/-- UNCHECKED. -/
def slotUnchecked : Nat := 3

/-- A boot image slot. -/
def State.imageSlot (s : State) (n : Nat) : ImageSlot := if n = 0 then s.start.slotA else s.start.slotB

/-- The state with a boot image slot replaced. -/
def State.setImageSlot (s : State) (n : Nat) (v : ImageSlot) : State :=
  { s with start := if n = 0 then { s.start with slotA := v } else { s.start with slotB := v } }

/-- The status of a slot. -/
def State.slotStatus (s : State) (n : Nat) : Nat := field (s.rd O.bootSlotStatus) (2 * n) 2

/-- The state with a slot's status and version written: the version reads 0 unless the slot is VALID (Table 17.10). -/
def State.setSlotStatus (s : State) (n st version : Nat) : State :=
  let other := s.slotStatus (1 - n)
  s.wrAll [(O.bootSlotStatus, if n = 0 then st + 4 * other else other + 4 * st), (if n = 0 then O.slotAVersion else O.slotBVersion, version)]

/-- `n` bytes of a slot from an offset; a byte not written since the last erase reads 0 (log entry 3, DESIGN CHOICE). -/
def ImageSlot.read (m : ImageSlot) (at_ n : Nat) : Bytes := m.bytes.bytes 0#8 at_ n

/-- IMAGE_VERSION of a slot's header (Table 17.3). -/
def ImageSlot.version (m : ImageSlot) : Nat := leNat (m.read 8 4)

/-- SECURITY_VERSION of a slot's header (Table 17.3). -/
def ImageSlot.security (m : ImageSlot) : Nat := leNat (m.read 12 2)

/-- The characters "IKS93IMG". -/
def imageMagic : Bytes := [0x49#8, 0x4B#8, 0x53#8, 0x39#8, 0x33#8, 0x49#8, 0x4D#8, 0x47#8]

/-- Whether the image of a slot verifies (R442). -/
def State.verifies (s : State) (n : Nat) : Bool :=
  let m := s.imageSlot n
  let len := leNat (m.read 16 4)
  decide (m.read 0 8 = imageMagic) && decide (1 ≤ len) && decide (len ≤ 67108736) && decide (s.start.minSecurity ≤ m.security)
    && edVerify s.fuses.firmwareKey (m.read 0 32 ++ m.read 64 len) (m.read (64 + len) 64)

/-- A slot is checked: VALID with its version, or INVALID (R448). -/
def State.checkSlot (s : State) (n : Nat) : State :=
  if s.verifies n then s.setSlotStatus n slotValid (s.imageSlot n).version else s.setSlotStatus n slotInvalid 0

/-- A slot is erased; refused with STATE for the slot whose image runs (R448). -/
def State.eraseSlot (s : State) (n : Nat) : Served :=
  if s.rd O.bootSlotUsed = n then .done s stState []
  else .done ((s.setImageSlot n ⟨Map.empty, []⟩).setSlotStatus n slotErased 0) stOk []

/-- A write of BOOT_SLOT_CONTROL: 1 ERASE_A, 2 ERASE_B, 3 VERIFY_A, 4 VERIFY_B (Table 17.10). -/
def bootSlotControlEffect (s : State) (_f : Frame) (_k v : Nat) : Served :=
  if v ≤ 2 then s.eraseSlot (v - 1) else .done (s.checkSlot (v - 3)) stOk []

/-- Whether a frame writes a value of BOOT_SLOT_CONTROL. -/
def isBootSlotControl (n k v : Nat) : Bool := decide (k = O.bootSlotControl) && decide (v = n)

/-- BOOT_SLOT_CONTROL ERASE_A (R448). -/
def execEraseA (f : Frame) (s : State) : Host.Outcome State Fault Refusal :=
  done s (writeRow (isBootSlotControl 1) bootSlotControlEffect f s)

/-- BOOT_SLOT_CONTROL ERASE_B (R448). -/
def execEraseB (f : Frame) (s : State) : Host.Outcome State Fault Refusal :=
  done s (writeRow (isBootSlotControl 2) bootSlotControlEffect f s)

/-- BOOT_SLOT_CONTROL VERIFY_A (R448). -/
def execVerifyA (f : Frame) (s : State) : Host.Outcome State Fault Refusal :=
  done s (writeRow (isBootSlotControl 3) bootSlotControlEffect f s)

/-- BOOT_SLOT_CONTROL VERIFY_B (R448). -/
def execVerifyB (f : Frame) (s : State) : Host.Outcome State Fault Refusal :=
  done s (writeRow (isBootSlotControl 4) bootSlotControlEffect f s)

/-- Whether an object is one of the BOOT_IMAGE objects. -/
def isBootImage (k : Nat) : Bool := decide (k = O.bootImageA) || decide (k = O.bootImageB)

/-- A transfer to a boot image slot (R448): each byte once after an erase, while the status is ERASED or UNCHECKED, and not the slot whose
image runs. -/
def bootImageEffect (s : State) (k off : Nat) (bs : Bytes) : Served :=
  let n := if k = O.bootImageA then 0 else 1
  let m := s.imageSlot n
  let st := s.slotStatus n
  if s.rd O.bootSlotUsed = n ∨ st = slotValid ∨ st = slotInvalid then .done s stState []
  else if m.written.any (fun w => decide (off < w.2) && decide (w.1 < off + bs.length)) then .done s stState []
  else
    let t := s.setImageSlot n ⟨m.bytes.setBytes 0#8 off bs, m.written ++ [(off, off + bs.length)]⟩
    .done (t.setSlotStatus n slotUnchecked 0) stOk []

/-- BOOT_IMAGE_A and BOOT_IMAGE_B (R448). -/
def execBootImageWrite (f : Frame) (s : State) : Host.Outcome State Fault Refusal :=
  done s (domainRow isBootImage bootImageEffect f s)

end Sys2Proof.Machine
end

