-- ==== Sys2Proof/Machine/StartRows.lean ====
section
/-! DEFINITION. The start sequence (R437-R449), the resets that end a start or begin one (R455-R457), and the service inputs (R456-R459). -/

namespace Sys2Proof.Machine

/-- The bound of a step of the start in µs (Table 17.1). -/
def stepBound : Nat → Nat
  | 1 => 10000
  | 2 => 6000000
  | 3 => 100000
  | 4 => 3000000
  | 5 => 8000000
  | 6 => 1000000
  | 7 => 16000000
  | 8 => 10000000
  | _ => 890000

/-- A step of the start begins (Table 17.1): what it begins by itself. -/
def State.enterStartStep (s : State) (n : Nat) : State :=
  let t := { s.wr O.startStep n with start := { s.start with phase := .step n, stepSince := s.now } }
  if n = 2 then
    let t := t.wrAll [(O.timeNow, 0), (O.domainState domAlwaysOn, domOn)]
    let t := { t with start := { t.start with bootSel := some (t.start.bootA, t.start.bootB) }, torus := { t.torus with frac := 0 } }
    if t.start.bootA || t.start.bootB then t else t.enterWalk 0x03
  else if n = 5 then
    ({ t with start := { t.start with
        upQueue := (natsFrom 0 4).flatMap (fun d => (0x30 + d) :: natsFrom (12 * d) 12) } }).pumpPower
  else if n = 6 then State.each (fun (t : State) (l : Nat) => if t.linkLive l then t.trainLink l 8 false else t) t allLinks
  else if n = 7 then ({ t with start := { t.start with upQueue := natsFrom 0x34 12 } }).pumpPower
  else if n = 8 then ({ t with start := { t.start with upQueue := natsFrom 0x40 8 } }).pumpPower
  else t

/-- Whether RESTORE_STORED returns an object to its default: RWS, and not changed by signed service writes alone (R53, R422). -/
def isRestored (k : Nat) : Bool := (rowOf k).elim false (fun r => decide (r.acc = .rws)) && decide (k ≠ O.drainFlag)

/-- A start begins at a step (R438, R444, R53, R384): it is counted, marked values return to their defaults, the torus identity takes effect. -/
def State.beginStart (s : State) (step : Nat) (failed : Option Nat) : State :=
  let t := if s.mgmt.restoreMark then
      { s with objs := s.objs.keep (fun k => !isRestored k), mgmt := { s.mgmt with restoreMark := false } }
    else s
  let t := t.add O.starts 1
  let t := { t with
    node := ⟨t.rd O.packageId, t.rd O.torusDimX, t.rd O.torusDimY, t.rd O.torusDimZ⟩,
    start := { t.start with begun := t.now, failedSlot := failed } }
  (t.wrAll ((natsFrom 0 6).map (fun n => (O.holdNext n, t.rd O.holdBase)))).enterStartStep step

/-- Try the boot slots in order (R441-R443, R448): the image of the first that verifies runs; Walk mode when none does. -/
def State.tryBoot (s : State) : List Nat → State
  | [] => s.enterWalk 0x02
  | n :: r =>
    let t := s.checkSlot n
    if s.verifies n then (t.wrAll [(O.bootSlotUsed, n), (O.firmwareVersion, (t.imageSlot n).version)]).enterStartStep 3
    else t.tryBoot r

/-- The order in which the slots are tried (Table 17.2, R444). -/
def State.bootOrder (s : State) : List Nat :=
  match s.start.bootSel with
  | some (true, true) =>
    let first := match s.start.failedSlot with
      | some n => 1 - n
      | none => s.rd O.bootPreference
    [first, 1 - first]
  | some (false, true) => [0]
  | some (true, false) => [1]
  | _ => []

/-- A Bent that failed its test: off, and EXCLUDED (R440). -/
def State.excludeBent (s : State) (b : Nat) : State := (s.bentLost b).wr (O.domainState b) domExcluded

/-- Whether every domain of a list has ended its power-up. -/
def State.settledDomains (s : State) (l : List Nat) : Bool :=
  l.all (fun d => s.domainOn d || decide (s.domain d = domExcluded))

/-- The result of the self-test of step 5 for the dies in order (R438, R440, R445, Table 2.9): the first die that fails ends the start; none while a
die that is reached has a domain that still powers up. -/
def State.judgeDies (s : State) (r : StepResult) : List Nat → Option State
  | [] => some (s.enterStartStep 6)
  | d :: rest =>
    let bents := natsFrom (12 * d) 12
    if !s.settledDomains [0x30 + d] then none
    else if s.domain (0x30 + d) = domExcluded ∨ r.badDies.contains d then some ((s.wr (O.dieState d) 2).enterWalk 0x09)
    else if !s.settledDomains bents then none
    else
      let t := State.each (fun (t : State) (b : Nat) => if t.domainOn b && r.badBents.contains b then t.excludeBent b else t) s bents
      let t := t.wrAll (bents.map (fun b => (O.bentState b, if t.domainOn b then 0 else 2)))
      if bents.any t.domainOn then (t.wr (O.dieState d) 0).judgeDies r rest else some ((t.wr (O.dieState d) 2).enterWalk 0x09)

/-- The Cut List fields of a stack after its training (R40, R440): a stack without a usable frame is EXCLUDED and its channel off. -/
def State.stackTrained (s : State) (r : StepResult) (k : Nat) : State :=
  let n := if s.domainOn (0x34 + k) && !r.badStacks.contains k then min 822368 (r.stackFrames.getD k 822368) else 0
  if n = 0 then s.wrAll [(O.domainState (0x34 + k), domExcluded), (O.pageFrames k, 0), (O.stackState k, 2)]
  else s.wrAll [(O.pageFrames k, n), (O.stackState k, 0)]

/-- The optical group of a port; port T has none (Table 17.6). -/
def portGroup (n : Nat) : Nat := if n < 6 then 0x40 + n else if n < 8 then 0x46 else 0x47

/-- The Cut List fields of a port after the lane tests of step 8 (R40, R440): a torus port is tested when it trains with its partner. -/
def State.portTested (s : State) (r : StepResult) (n : Nat) : State :=
  if n < 9 ∧ s.domainOn (portGroup n) = false then s.wrAll [(O.lanesPassing n, 0), (O.portState n, 2)]
  else if n < 6 then s
  else
    let p := min (portLanes n) (r.lanesPassing.getD n (portLanes n))
    s.wrAll [(O.lanesPassing n, p), (O.portState n, lanesState p (portLanes n))]

/-- Step 9 completes: the Cut List is COMPLETE and the package is READY (R40, R438, R443, R422). -/
def State.becomeReady (s : State) : State :=
  let t := { s with start := { s.start with
    phase := .ready, stepSince := s.now, failedSlot := none,
    minSecurity := max s.start.minSecurity (s.imageSlot (s.rd O.bootSlotUsed)).security } }
  let t := t.wrAll [(O.cutListState, 1), (O.startState, 1), (O.startStep, 9), (O.falseStarts, 0), (O.readyTime, (t.now - t.start.begun) / 1000)]
  if t.rd O.drainFlag = 1 then t.wr O.drainState 2 else t

/-- A step of the start completes with what the hardware found in it (Table 17.1). -/
def State.stepCompletes (s : State) (n : Nat) (r : StepResult) : State :=
  match n with
  | 1 =>
    let t := { s with start := { s.start with pgOut := true } }
    if t.start.rstN then t.enterStartStep 2 else { t with start := { t.start with phase := .held, stepSince := t.now } }
  | 2 => ({ s with start := { s.start with failedSlot := none } }).tryBoot s.bootOrder
  | 3 =>
    let t := s.wr O.effectiveMask (effectiveMaskOf s.fuses)
    let w := steppingReason s.fuses.steppings
    if w = 0 then t.enterStartStep 4 else t.enterWalk w
  | 4 => if r.iodOk then (s.wr (O.dieState 4) 0).enterStartStep 5 else (s.wr (O.dieState 4) 2).enterWalk 0x08
  | 5 => (s.judgeDies r (natsFrom 0 4)).getD s
  | 6 => if allLinks.all (fun l => decide (s.rd (O.slState l) = 2)) then s.enterStartStep 7 else s
  | 7 => if s.settledDomains (natsFrom 0x34 12) then (State.each (fun (t : State) (k : Nat) => t.stackTrained r k) s (natsFrom 0 12)).enterStartStep 8 else s
  | 8 =>
    if s.settledDomains (natsFrom 0x40 8) then
      let t := State.each (fun (t : State) (p : Nat) => t.portTested r p) s (natsFrom 0 10)
      (State.each (fun (t : State) (d : Nat) => if 1 < t.dimSize d then t.ownLinks d else t) t (natsFrom 0 3)).enterStartStep 9
    else s
  | _ => s.becomeReady

/-- A step of the start completes before its bound (R438). -/
def startStepDone (r : StepResult) (s : State) : State :=
  match s.start.phase with
  | .step n => if s.elapsed s.start.stepSince (stepBound n) then s else s.stepCompletes n r
  | _ => s

/-- START_STEP_COMPLETE (R438). -/
def execStartStepComplete (r : StepResult) (s : State) : Host.Outcome State Fault Refusal := done s (startStepDone r s)

/-- A false start (R444): counted, every domain but the always-on goes off, and the next start begins at step 2; at the third, Walk mode. An
image can stop by itself from step 3 on; before, only the bound ends the step. The Cut List of the start that ends in Walk mode stays (R40). -/
def falseStart (s : State) : State :=
  match s.start.phase with
  | .step n =>
    if n < 3 ∧ s.elapsed s.start.stepSince (stepBound n) = false then s
    else
      let used := s.rd O.bootSlotUsed
      let t := (s.resetTo 5 (.step 2) true).wr O.lastFalseStartStep n
      let t := t.add O.falseStarts 1
      if 3 ≤ t.rd O.falseStarts then
        ({ t with objs := s.objs.keep (fun k => decide (0x1100 ≤ keyIndex k) && decide (keyIndex k < 0x1200) || survives k) }.wrAll
          [(O.lastResetCause, 5), (O.domainState domAlwaysOn, domOn), (O.lastFalseStartStep, n), (O.falseStarts, t.rd O.falseStarts)]).enterWalk 0x01
      else t.beginStart 2 (if used = 0xFF then none else some used)
  | _ => s

/-- FALSE_START (R444). -/
def execFalseStart (s : State) : Host.Outcome State Fault Refusal := done s (falseStart s)

/-- A write of START_CONTROL (R461): RESTART is refused during a start, CLEAR_FALSE_STARTS outside Walk mode. -/
def startControlEffect (s : State) (_f : Frame) (_k v : Nat) : Served :=
  if v = 1 then
    (if s.starting then .done s stState [] else .done { s with start := { s.start with phase := .restarting } } stOk [])
  else if s.walk then .done (s.wr O.falseStarts 0) stOk []
  else .done s stState []

/-- After the answer to an accepted RESTART has been sent, reset 0x04 begins (R461): a response that stands in the host window has been given
out by then. -/
def State.restartNow (s : State) (f : Frame) : State :=
  if s.start.phase = .restarting then
    let t := if f.carrier = .host then
        State.each (fun (t : State) (p : Frame) => t.put (.frame .host p.dest p)) s (takeLast 1 (s.mgmt.responses.map Prod.snd ++ s.mgmt.held))
      else s
    t.resetTo 4 .restarting true
  else s

/-- START_CONTROL RESTART (R461). -/
def execRestart (f : Frame) (s : State) : Host.Outcome State Fault Refusal :=
  done s (if s.start.phase = .restarting then s
    else (writeRow (fun k v => decide (k = O.startControl) && decide (v = 1)) startControlEffect f s).restartNow f)

/-- The 10 ms of a restart are over, and the start begins at step 2 (Table 17.8). -/
def State.restartOver (s : State) : State :=
  if s.start.phase = .restarting ∧ s.elapsed s.start.stepSince 10000 = true then s.beginStart 2 none else s

/-- START_CONTROL CLEAR_FALSE_STARTS (R461). -/
def execClearFalseStarts (f : Frame) (s : State) : Host.Outcome State Fault Refusal :=
  done s (writeRow (fun k v => decide (k = O.startControl) && decide (v = 2)) startControlEffect f s)

/-! ### Service inputs -/

/-- Whether PWR_EN may take a new accepted level: 1 ms after the last (R458). -/
def State.pwrFree (s : State) : Bool := s.start.inputInRange && s.start.pwrSince.elim true (fun t => s.elapsed t 1000)

/-- Time the step under way from a moment: a power-down that still runs completes first, within its bound of 100 ms (Tables 19.6, 19.7). -/
def State.stepFrom (s : State) (t : Nat) : State := { s with start := { s.start with stepSince := t } }

/-- PWR_EN is accepted high (R438, R455, R484): a power-on start begins unless the trip hold stands. -/
def pwrHigh (s : State) : State :=
  if s.start.pwrEn || !s.pwrFree then s
  else
    let t := { s with start := { s.start with pwrEn := true, pwrSince := some s.now } }
    if t.start.tripHold || decide (t.start.phase ≠ .off) then t
    else ((t.resetTo 1 (.step 1) false).beginStart 1 none).stepFrom (s.start.pwrSince.elim s.now (fun low => max s.now (low + 100000)))

/-- PWR_EN_HIGH (R456). -/
def execPwrEnHigh (s : State) : Host.Outcome State Fault Refusal := done s (pwrHigh s)

/-- PWR_EN is accepted low (R455, R457, R484): the package powers down, a start under way included. -/
def pwrLow (s : State) : State :=
  if !s.start.pwrEn || !s.pwrFree then s
  else
    let t := { s with start := { s.start with pwrEn := false, pwrSince := some s.now, pgOut := false,
                                              pwrLowSince := s.start.pwrLowSince || s.start.tripHold } }
    if t.start.phase = .off then t else t.resetTo 2 .off false

/-- PWR_EN_LOW (R455). -/
def execPwrEnLow (s : State) : Host.Outcome State Fault Refusal := done s (pwrLow s)

/-- RST_N is accepted low (R455, R457): the service reset, which holds while the level stays low. The rails are not reset: a step 1 under way
completes with PG_OUT released. -/
def rstLow (s : State) : State :=
  if !s.start.rstN || !s.start.inputInRange then s
  else
    let t := ({ s with start := { s.start with rstN := false, pgOut := s.start.pgOut || decide (s.start.phase = Phase.step 1) } }).add O.rstNAssertions 1
    if t.start.phase = .off then t else t.resetTo 3 .held true

/-- RST_N_LOW (R457). -/
def execRstNLow (s : State) : Host.Outcome State Fault Refusal := done s (rstLow s)

/-- RST_N is accepted high (R455, R488): a start begins at step 2; the start that found the level low at the end of its step 1 goes on there. -/
def rstHigh (s : State) : State :=
  if s.start.rstN || !s.start.inputInRange then s
  else
    let t := { s with start := { s.start with rstN := true } }
    if t.start.phase = .held then (if t.rd O.lastResetCause = 1 then t.enterStartStep 2 else t.beginStart 2 none) else t

/-- RST_N_HIGH (R488). -/
def execRstNHigh (s : State) : Host.Outcome State Fault Refusal := done s (rstHigh s)

/-- GLITCH_FILTERED (R456): pins 0 PWR_EN, 1 RST_N, 2 BOOT_SEL_A, 3 BOOT_SEL_B. -/
def execGlitchFiltered (pin : Nat) (s : State) : Host.Outcome State Fault Refusal :=
  if 4 ≤ pin then .fault .noSuchUnit else done s (if s.start.inputInRange then s.add O.glitchesFiltered 1 else s)

/-- BOOT_SEL_ACCEPTED (R456): it acts at the next step 2 (R441). -/
def execBootSelAccepted (pin : Nat) (level : Bool) (s : State) : Host.Outcome State Fault Refusal :=
  if pin ≠ 2 ∧ pin ≠ 3 then .fault .noSuchUnit
  else done s (if s.start.inputInRange = false then s
    else if pin = 2 then { s with start := { s.start with bootA := level } }
    else { s with start := { s.start with bootB := level } })

/-- PWR_EN_REJECTED (R458). -/
def execPwrEnRejected (s : State) : Host.Outcome State Fault Refusal :=
  done s (if s.start.inputInRange && !s.pwrFree then s.add O.pwrEnRejected 1 else s)

/-- RAILS_OUT_OF_REGULATION (R439). -/
def execRailsOutOfRegulation (s : State) : Host.Outcome State Fault Refusal :=
  done s { s with start := { s.start with pgOut := false } }

end Sys2Proof.Machine
end

