-- ==== Sys2Proof/Machine/Supply.lean ====
section
/-! DEFINITION. The 48 V input, the power governor and the thermal trip (chapter 19). -/

namespace Sys2Proof.Machine

/-- INPUT_IN_RANGE (R479, R487): the standby part comes up and samples its inputs from their bias levels (R486). -/
def inputUp (s : State) : State :=
  if s.start.inputInRange then s
  else { s with start := { s.start with inputInRange := true, pwrEn := false, rstN := true, bootA := true, bootB := true, pwrSince := none } }

/-- INPUT_IN_RANGE (R479). -/
def execInputInRange (s : State) : Host.Outcome State Fault Refusal := done s (inputUp s)

/-- The input leaves range (R479, R437, R484): every domain loses power at once, the standby part and the trip hold are lost; flash is kept. -/
def inputDown (s : State) : State :=
  if !s.start.inputInRange then s
  else
    let t := s.wipe
    { t with
      objs := t.objs.keep isFlash,
      start := { t.start with phase := .off, stepSince := t.now, begun := 0, failedSlot := none, inputInRange := false, pwrEn := false,
                              rstN := true, bootA := true, bootB := true, pwrSince := none, pgOut := false, tripHold := false,
                              pwrLowSince := false } }

/-- INPUT_OUT_OF_RANGE (R479). -/
def execInputOutOfRange (s : State) : Host.Outcome State Fault Refusal := done s (inputDown s)

/-- The trip temperature of a sensor in m°C (R484): sensors 0 to 4 are the dies, 5 to 16 the stacks (R495). -/
def tripPoint (sensor : Nat) : Int := if sensor < 5 then 115000 else 105000

/-- A thermal trip (R484, Table 17.8 code 0x06): counted and held, and the package powers down. -/
def tripNow (s : State) : State :=
  let t := (s.add O.thermalTrips 1).resetTo 6 .off false
  { t with start := { t.start with tripHold := true, pgOut := false, pwrLowSince := !s.start.pwrEn } }

/-- A sensor reads a temperature (R484): while the trip hold stands, no further trip is counted. -/
def thermalTrip (sensor : Nat) (reading : Int) (s : State) : State :=
  if !s.start.inputInRange || s.start.tripHold || decide (reading < tripPoint sensor) then s else tripNow s

/-- THERMAL_TRIP (R484). -/
def execThermalTrip (sensor : Nat) (reading : Int) (s : State) : Host.Outcome State Fault Refusal :=
  if 17 ≤ sensor then .fault .noSuchUnit else done s (thermalTrip sensor reading s)

/-- Every sensor has cooled by 20 °C (R484): the hold is released once PWR_EN has been accepted low; no start begins by itself. -/
def tripRelease (s : State) : State :=
  if s.start.tripHold && s.start.pwrLowSince then { s with start := { s.start with tripHold := false, pwrLowSince := false } } else s

/-- TRIP_RELEASE (R484). -/
def execTripRelease (s : State) : Host.Outcome State Fault Refusal := done s (tripRelease s)

/-! ### The governor -/

/-- A signed 32-bit value as its bits. -/
def i32 (v : Int) : Nat := (v % 4294967296).toNat

/-- The readings of an evaluation as objects (R495). -/
def State.takeReadings (s : State) (r : Readings) : State :=
  s.wrAll ([(O.inputVoltage, r.millivolts), (O.inputCurrent, r.milliamps), (O.inputPower, r.watts)]
    ++ (natsFrom 0 17).map (fun i => (O.sensorTemp i, i32 (r.temps.getD i 0))))

/-- The hottest stack of a compute die. -/
def hottestStack (r : Readings) (d : Nat) : Int :=
  (natsFrom (5 + 3 * d) 3).foldl (fun m i => max m (r.temps.getD i 0)) (r.temps.getD (5 + 3 * d) 0)

/-- Whether the governor steps a die down (R482). -/
def State.mustSlow (s : State) (r : Readings) (d : Nat) : Bool :=
  decide (s.rd O.pkgPowerLimit < r.watts) || decide ((s.rd O.throttleThreshold : Int) * 1000 ≤ r.temps.getD d 0)
    || decide (95000 ≤ hottestStack r d)

/-- Whether the conditions of a step up hold in an evaluation (R482). -/
def State.isQuiet (s : State) (r : Readings) (d : Nat) : Bool :=
  decide (100 * r.watts ≤ 95 * s.rd O.pkgPowerLimit) && decide (r.temps.getD d 0 ≤ ((s.rd O.throttleThreshold : Int) - 3) * 1000)
    && decide (hottestStack r d ≤ 92000)

/-- One die's step (R482): down at once, up after ten evaluations in a row (1 ms) in which the conditions held, within 800 to 1,600 MHz. -/
def State.governDie (s : State) (r : Readings) (d : Nat) : State :=
  let c := s.rd (O.dieClock d)
  let q := if s.isQuiet r d then min 10 (s.start.quietEvals.getD d 0 + 1) else 0
  let quiets := (natsFrom 0 4).map (fun i => if i = d then q else s.start.quietEvals.getD i 0)
  let t := { s with start := { s.start with quietEvals := quiets } }
  if s.mustSlow r d then t.wr (O.dieClock d) (max 800 (c - 25))
  else if q = 10 then t.wr (O.dieClock d) (min 1600 (c + 25))
  else t

/-- An evaluation of the governor (R482, R483): THROTTLE_US counts the 100 µs that end when a die ran below 1.6 GHz in them. -/
def governorStep (r : Readings) (s : State) : State :=
  if !s.served then s
  else
    let slow := (natsFrom 0 4).any (fun d => s.domainOn (0x30 + d) && decide (s.rd (O.dieClock d) < 1600))
    let t := s.takeReadings r
    let t := if slow then t.add O.throttleUs 100 else t
    State.each (fun (t : State) (d : Nat) => if t.domainOn (0x30 + d) then t.governDie r d else t) t (natsFrom 0 4)

/-- GOVERNOR_STEP (R482). -/
def execGovernorStep (r : Readings) (s : State) : Host.Outcome State Fault Refusal := done s (governorStep r s)

end Sys2Proof.Machine
end

