-- ==== Sys2Proof/Machine/Writes.lean ====
section
/-! DEFINITION. The writes that reach every object: WRITE and WRITE_DOMAIN with the effect each object's own rule gives it, and
SERVICE_WRITE, which applies a value at level SERVICE (R51, R59, R64). -/

namespace Sys2Proof.Machine

/-! ### Objects whose write does more than store, and that have no row of their own -/

/-- A write of TIME_PARENT: the package follows another parent, or none, and starts to lock again (R377). -/
def timeParentEffect (s : State) (_f : Frame) (k v : Nat) : Served :=
  let t := (s.wr k v).wr O.timeState 0
  .done { t with torus := { t.torus with inBand := 0 } } stOk []

/-- A write of 0x00 to DRAIN_FLAG: IMPLICATIONS is emptied and FLAGGED, which follows the flag, clears (R423). -/
def drainFlagEffect (s : State) (_f : Frame) (k v : Nat) : Served :=
  .done { s.wr k v with faults := { s.faults with implications := [] } } stOk []

/-- The entries of a table of 8-byte words. -/
def tableWords (bs : Bytes) (n : Nat) : List Nat := (natsFrom 0 n).map (fun i => leNat ((bs.drop (8 * i)).take 8))

/-- A write of CLIP_LIST: entries of all ones are not in use; an entry that stays keeps the first data epoch it applies to, a new one
applies to every slot that follows (R343). -/
def clipListEffect (s : State) (_k off : Nat) (bs : Bytes) : Served :=
  let n := max s.data.clips.length ((off + bs.length + 7) / 8)
  let old := entryBytes s.clipBytes 8 0 (8 * n)
  let new := old.take off ++ bs ++ old.drop (off + bs.length)
  let ids := (tableWords new n).filter (fun w => decide (w ≠ 2 ^ 64 - 1))
  let epoch := fun (w : Nat) => ((s.data.clips.find? (fun c => decide (c.1 = w))).map Prod.snd).getD 0
  .done { s with data := { s.data with clips := ids.map (fun w => (w, epoch w)) } } stOk []

/-- A write of QP_TABLE: each queue pair it touches begins anew at its START_PSN (Table 13.2, R320). -/
def qpTableEffect (s : State) (k off : Nat) (bs : Bytes) : Served :=
  let port := keyIndex k - 0x8013
  let t := s.setDom k ((s.dom k).setBytes 0#8 off bs)
  let last := (off + bs.length + 63) / 64
  let t := State.each (fun (t : State) (e : Nat) =>
      let psn := byteField (t.qpEntry port e) 12 3
      { t with data := { t.data with qps := t.data.qps.set QueuePair.fresh (64 * port + e) { QueuePair.fresh with psn := psn } } })
    t (natsFrom (off / 64) (last - off / 64))
  .done t stOk []

/-! ### Every object -/

/-- The effect of a write on the objects of chapters 05 to 10 (cores, queues, slots, Lanes, Relay links, versions, commit). -/
def planEffect (s : State) (f : Frame) (k v : Nat) : Served :=
  if isBentObj 0x01 k then coreControlEffect s f k v
  else if isBentObj 0x07 k then fpStatusEffect s f k v
  else if isBentObj 0x1D k ∧ keySub k = 1 then seedEffect s f k v
  else if isBentObj 0x21 k then queueControlEffect s f k v
  else if isStageControl k then stageControlEffect s f k v
  else if isRelayControl k then relayControlEffect s f k v
  else if isLaneControl k then laneControlEffect s f k v
  else if isFetchControl k then vsFetchEffect s f k v
  else if k = O.commitControl then commitControlEffect s f k v
  else if k = O.commitParent then parentEffect s f k v
  else storeEffect s f k v

/-- The effect of a write on the objects of chapters 03 and 11 to 18. -/
def packageEffect (s : State) (f : Frame) (k v : Nat) : Served :=
  if isGroupControl k then groupControlEffect s f k v
  else if k = O.reshardControl then reshardControlEffect s f k v
  else if k = O.jobControl then jobControlEffect s f k v
  else if k = O.dataControl then dataControlEffect s f k v
  else if isPortControl k then portControlEffect s f k v
  else if k = O.timeSet then timeSetEffect s f k v
  else if k = O.timeParent then timeParentEffect s f k v
  else if isSlControl k then slControlEffect s f k v
  else if isRlcEnable k then rlcEnableEffect s f k v
  else if k = O.drainControl then drainControlEffect s f k v
  else if k = O.drainFlag then drainFlagEffect s f k v
  else if k = O.startControl then startControlEffect s f k v
  else if k = O.bootSlotControl then bootSlotControlEffect s f k v
  else if isDomainControl k then domainControlEffect s f k v
  else if isDieControl k then dieControlEffect s f k v
  else if k = O.restoreStored then restoreEffect s f k v
  else if isCounterPart 2 k then overflowClearEffect s f k v
  else if k = O.tagSeed then tagSeedEffect s f k v
  else storeEffect s f k v

/-- The effect of a write of any object whose value is a number (R51). -/
def anyEffect (s : State) (f : Frame) (k v : Nat) : Served :=
  if 0x3000 ≤ keyIndex k ∧ keyIndex k < 0x4300 ∨ 0x6000 ≤ keyIndex k ∧ keyIndex k < 0x7000 then planEffect s f k v
  else packageEffect s f k v

/-- The effect of a write of any DOMAIN object (R59). -/
def anyDomainEffect (s : State) (k off : Nat) (bs : Bytes) : Served :=
  if isBentObj 0x0A k then coreMemoryEffect s k off bs
  else if isBentObj 0x28 k then endpointTableEffect s k off bs
  else if k = O.allocRequest then allocEffect s k off bs
  else if isBootImage k then bootImageEffect s k off bs
  else if k = O.clipList then clipListEffect s k off bs
  else if keyIndex k = 0x8013 ∨ keyIndex k = 0x8014 then qpTableEffect s k off bs
  else .done (storeBytes s k off bs) stOk []

/-- What follows the answer of a write that began a restart (R461). -/
def State.afterWrite (s : State) (f : Frame) (t : State) : State := if s.start.phase = .restarting then t else t.restartNow f

/-- WRITE (R51): the checks of R63, then the effect of the object's own rule. -/
def execWrite (f : Frame) (s : State) : Host.Outcome State Fault Refusal :=
  settled s (s.afterWrite f (commandRow cmdWrite (fun f s level => serveWrite anyEffect s f level) f s))

/-- WRITE_DOMAIN (R59). -/
def execWriteDomain (f : Frame) (s : State) : Host.Outcome State Fault Refusal :=
  settled s (commandRow cmdWriteDomain (serveWriteDomain anyDomainEffect) f s)

/-! ### Signed service writes (R64) -/

/-- VALUE_LENGTH of a SERVICE_WRITE payload (Table 3.9). -/
def serviceLength (p : Bytes) : Nat := byteField p 12 4

/-- Whether a SERVICE_WRITE payload meets the four conditions of R64. -/
def State.serviceAccepts (s : State) (f : Frame) : Bool :=
  let p := f.body
  let n := 16 + serviceLength p
  edVerify s.fuses.serviceKey (s.fuses.serial ++ p.take n) ((p.drop n).take 64)
    && decide (s.rd O.serviceNonce < byteField p 0 8) && decide (byteField p 8 2 = f.index) && decide (byteField p 10 1 = f.sub)

/-- A condition of R64 fails: SERVICE_FAILURES rises, and after 16 failures within 60 s every SERVICE_WRITE is refused for 60 s. -/
def State.serviceFails (s : State) : State :=
  let recent := (s.mgmt.failures.filter (fun t => decide (s.now < t + 60000000))) ++ [s.now]
  let m := { s.mgmt with failures := if 16 ≤ recent.length then [] else recent,
                         lockedUntil := if 16 ≤ recent.length then some (s.now + 60000000) else s.mgmt.lockedUntil }
  { s with mgmt := m }.add O.serviceFailures 1

/-- The value of an accepted SERVICE_WRITE is applied at level SERVICE by the rules of its target (R64). Into 0xF000-0xFFFF the manual does
not specify what it does (R46): no behaviour of the package rests on the content there, and the status is an open value (log entry 34). -/
def applyService (s : State) (f : Frame) (value : Bytes) : Served :=
  if 0xF000 ≤ f.index then
    let (v, t) := s.free
    .done t (v % 256) []
  else
    let st := checkWrite s 2 f.key value.length (leNat value)
    if st = stOk then anyEffect s f f.key (leNat value) else .done s st []

/-- SERVICE_WRITE on an opened session (R64): a payload that is too short, or whose parts do not fit together, meets no condition. -/
def serveService (f : Frame) (s : State) (_level : Nat) : Served :=
  let p := f.body
  let n := serviceLength p
  let t := s.wr O.serviceNonce (byteField p 0 8)
  if s.mgmt.lockedUntil.elim false (fun u => decide (s.now < u)) then .done s stBusy []
  else if !s.serviceAccepts f then .done s.serviceFails stLevel []
  else if p.length ≠ 16 + n + 64 then .done t stType []
  else if n = 0 ∨ 896 < n then .done t stRange []
  else applyService t f ((p.drop 16).take n)

/-- SERVICE_WRITE (R64). -/
def execServiceWrite (f : Frame) (s : State) : Host.Outcome State Fault Refusal :=
  settled s (s.afterWrite f (commandRow cmdServiceWrite serveService f s))

end Sys2Proof.Machine
end

