-- ==== Sys2Proof/Machine/Clock.lean ====
section
/-! DEFINITION. The passing of time on an empty queue (log entry 2, DESIGN CHOICE): one microsecond of the reference clock. The clocks of Table 1.10
advance by their nominal cycles per microsecond; the power sequencer and a restart's hold go on by themselves; a pause of an ingest port ends. -/

namespace Sys2Proof.Machine

/-- The cycles of the IOD fabric clock in a microsecond (Table 1.10). -/
def iodCycles : Nat := 1250

/-- The cycles of a compute die's core clock in a microsecond: DIE_CLOCK in MHz; a die that is off has none. -/
def State.dieMhz (s : State) (d : Nat) : Nat := if s.domainOn (0x30 + d) then s.rd (O.dieClock d) else 0

/-- Package time advances by 1,000 ns and by what the servo's rate adds (R377); a root runs free. -/
def State.tickTime (s : State) : State :=
  let adj : Int := if s.rd O.timeParent = 0xFF then 0 else signedBits 32 (s.rd O.timeFreqAdj)
  let f := s.torus.frac + adj
  let t := s.wr O.timeNow (unsignedBits 64 ((s.time : Int) + 1000 + f / 1000000))
  { t with torus := { t.torus with frac := f % 1000000 } }

/-- DIE_CYCLES of a die whose fabric link clock runs (R471): 48 bits. -/
def State.tickDie (s : State) (d : Nat) : State :=
  let n := s.dieMhz d
  if n = 0 then s else s.wr (O.dieCycles d) ((s.rd (O.dieCycles d) + n) % 2 ^ 48)

/-- The cores of a Bent in RUNNING or WAITING. -/
def State.coresRunning (s : State) (b : Nat) : Nat :=
  (s.cores.entries.filter (fun c => decide (c.1 / 64 = b) && (decide (c.2.state = .running) || decide (c.2.state = .waiting)))).length

/-- What a clock event of a core adds in a microsecond (Table 18.2): CYCLES. -/
def State.coreClockEvent (s : State) (b event : Nat) : Nat := if event = 1 ∧ s.bentOn b = true then s.dieMhz (b / 12) else 0

/-- What a clock event of a Bent adds in a microsecond (Table 18.3): CYCLES, CORES_RUNNING, PACER_STARVE. -/
def State.bentClockEvent (s : State) (b event : Nat) : Nat :=
  if s.bentOn b = false then 0
  else if event = 1 then s.dieMhz (b / 12)
  else if event = 2 then s.dieMhz (b / 12) * s.coresRunning b
  else if event = 0x0D ∧ allSlots.any (fun i => decide (s.rd (O.firstBent i) = b) && (s.slot i).starve.isSome) = true then s.dieMhz (b / 12)
  else 0

/-- Whether flits wait at a torus port without credit (Table 18.4). -/
def State.creditStalls (s : State) (n : Nat) : Bool :=
  (s.tport n).waiting.entries.any (fun w => !w.2.isEmpty && decide ((s.tport n).creditOf w.1 = 0))

/-- What a clock event of the package adds in a microsecond (Table 18.4): IOD_CYCLES, REF_MICROSECONDS, TORUS_CREDIT_STALL. -/
def State.packageClockEvent (s : State) (w : Nat) : Nat :=
  if w % 256 = 1 then iodCycles
  else if w % 256 = 2 then 1
  else if w % 256 = 0x0A then
    (if w / 256 = 255 then iodCycles * ((natsFrom 0 6).filter s.creditStalls).length
     else if s.creditStalls (w / 256) then iodCycles else 0)
  else 0

/-- One counter, by its select object and select word, counts the clock event it selects (R462, R463). -/
def State.tickCounter (s : State) (k w : Nat) : State :=
  let i := keyIndex k
  let j := keySub k
  match counterPart k with
  | some (0, 0) =>
    let b := (i - 0xA300) / 4
    let n := s.coreClockEvent b (w % 256)
    let c := (i - 0xA300) % 4
    if n = 0 then s else s.bump (O.pcValue b c (j - 1)) (O.pcOverflow b (j - 1)) c n
  | some (1, 0) =>
    let b := i - 0xA100
    let n := s.bentClockEvent b (w % 256)
    if n = 0 then s else s.bump (O.bpcValue b (j - 1)) (O.bpcOverflow b) (j - 1) n
  | some (2, 0) =>
    let n := s.packageClockEvent w
    if n = 0 then s else s.bump (O.kpcValue (j - 1)) O.kpcOverflow (j - 1) n
  | _ => s

/-- Every counter counts the clock event it selects, unless the counters are frozen (R465). -/
def State.tickCounters (s : State) : State :=
  if s.rd O.counterFreeze = 1 then s
  else State.each (fun (t : State) (e : Nat × Nat) => t.tickCounter e.1 e.2) s (s.objs.entries.filter (fun e => isCounterPart 0 e.1))

/-- STARVE_US of the slots whose Pacer waits (R219). -/
def State.tickStarve (s : State) : State :=
  State.each (fun (t : State) (e : Nat × Slot) => if e.2.starve.isSome then t.add (O.starveUs e.1) 1 else t) s s.slots.entries

/-- One microsecond of the reference clock passes. -/
def tick (s : State) : State :=
  let t := { s with now := s.now + 1 }
  let t := if t.served then (State.each (fun (u : State) (d : Nat) => u.tickDie d) t.tickTime (natsFrom 0 4)).tickCounters.tickStarve else t
  t.pumpPower.restartOver.endPauses

/-- The outcome of a step on an empty queue (log entry 2, DESIGN CHOICE). -/
def idle (s : State) : Host.Outcome State Fault Refusal := done s (tick s)

end Sys2Proof.Machine
end

