-- ==== Sys2Proof/Machine/Vector.lean ====
section
/-! DEFINITION. The vector descriptors (chapter 07): one meaning per opcode over the shared issue of VectorUnit.lean. -/

namespace Sys2Proof.Machine

/-- No check beyond the shared ones. -/
def vOk (_ : Bytes) : Bool := false

/-- FP32 bits of a code with its flags. -/
def codeWord (p : Nat × Nat) : W32 × Nat := (BitVec.ofNat 32 p.1, p.2)

/-- An arithmetic opcode (R151). -/
def arithRun (o : Arith) (v : VIn) : VOut := perType v o.f32 o.i32 o.bf16

/-- VADD (R151). -/
def execVadd (core : Nat) (s : State) : Host.Outcome State Fault Refusal :=
  settledRow core s (s.vRegister core 0x30 (.elementwise true true false [0, 1, 2] 1) vOk (arithRun .add))

/-- VSUB (R151). -/
def execVsub (core : Nat) (s : State) : Host.Outcome State Fault Refusal :=
  settledRow core s (s.vRegister core 0x31 (.elementwise true true false [0, 1, 2] 1) vOk (arithRun .sub))

/-- VMUL (R151). -/
def execVmul (core : Nat) (s : State) : Host.Outcome State Fault Refusal :=
  settledRow core s (s.vRegister core 0x32 (.elementwise true true false [0, 1, 2] 1) vOk (arithRun .mul))

/-- VFMA (R151). -/
def execVfma (core : Nat) (s : State) : Host.Outcome State Fault Refusal :=
  settledRow core s (s.vRegister core 0x33 (.elementwise true true true [0, 1, 2] 1) vOk (arithRun .fma))

/-- Minimum or maximum of the three element types. -/
def minRun (mx : Bool) (v : VIn) : VOut :=
  perType v (fun a b _ => codeWord (codeMin .fp32 mx a.toNat b.toNat))
    (fun a b _ => if (decide (a.toInt < b.toInt)) != mx then a else b) (fun a b _ => codeMin .bf16 mx a b)

/-- VMIN (R151). -/
def execVmin (core : Nat) (s : State) : Host.Outcome State Fault Refusal :=
  settledRow core s (s.vRegister core 0x34 (.elementwise true true false [0, 1, 2] 1) vOk (minRun false))

/-- VMAX (R151). -/
def execVmax (core : Nat) (s : State) : Host.Outcome State Fault Refusal :=
  settledRow core s (s.vRegister core 0x35 (.elementwise true true false [0, 1, 2] 1) vOk (minRun true))

/-- minimumNumber or maximumNumber. -/
def minNumRun (mx : Bool) (v : VIn) : VOut :=
  perType v (fun a b _ => codeWord (codeMinNum .fp32 mx a.toNat b.toNat)) (fun a _ _ => a) (fun a b _ => codeMinNum .bf16 mx a b)

/-- VMINNUM (R151). -/
def execVminnum (core : Nat) (s : State) : Host.Outcome State Fault Refusal :=
  settledRow core s (s.vRegister core 0x36 (.elementwise true true false [0, 2] 1) vOk (minNumRun false))

/-- VMAXNUM (R151). -/
def execVmaxnum (core : Nat) (s : State) : Host.Outcome State Fault Refusal :=
  settledRow core s (s.vRegister core 0x37 (.elementwise true true false [0, 2] 1) vOk (minNumRun true))

/-- VNEG (R70, R151): the sign bit changes; an integer wraps. -/
def execVneg (core : Nat) (s : State) : Host.Outcome State Fault Refusal :=
  settledRow core s (s.vRegister core 0x38 (.elementwise true false false [0, 1, 2] 1) vOk
    (fun v => perType v (fun a _ _ => (a ^^^ 0x80000000#32, 0)) (fun a _ _ => -a) (fun a _ _ => (a ^^^ 0x8000, 0))))

/-- VABS (R70, R151): the sign bit is cleared; an integer wraps. -/
def execVabs (core : Nat) (s : State) : Host.Outcome State Fault Refusal :=
  settledRow core s (s.vRegister core 0x39 (.elementwise true false false [0, 1, 2] 1) vOk
    (fun v => perType v (fun a _ _ => (a &&& 0x7FFFFFFF#32, 0)) (fun a _ _ => intAbs a) (fun a _ _ => (a &&& 0x7FFF, 0))))

/-- VCOPYSIGN (R70, R151). -/
def execVcopysign (core : Nat) (s : State) : Host.Outcome State Fault Refusal :=
  settledRow core s (s.vRegister core 0x3A (.elementwise true true false [0, 2] 1) vOk
    (fun v => perType v (fun a b _ => ((a &&& 0x7FFFFFFF#32) ||| (b &&& 0x80000000#32), 0)) (fun a _ _ => a)
      (fun a b _ => ((a &&& 0x7FFF) ||| (b &&& 0x8000), 0))))

/-- VCMP's lanes: all ones when true, 0 when false (R151). -/
def cmpRun (v : VIn) : VOut :=
  let sub := vSub v.d
  perType v (fun a b _ => let r := codeCmp .fp32 sub a.toNat b.toNat; (if r.1 then 0xFFFFFFFF#32 else 0#32, r.2))
    (fun a b _ => if intCmp sub a b then 0xFFFFFFFF#32 else 0#32)
    (fun a b _ => let r := codeCmp .bf16 sub a b; (if r.1 then 0xFFFF else 0, r.2))

/-- VCMP (R151). -/
def execVcmp (core : Nat) (s : State) : Host.Outcome State Fault Refusal :=
  settledRow core s (s.vRegister core 0x3B (.elementwise true true false [0, 1, 2] 7) vOk cmpRun)

/-- VSEL (R150, R151): b where a is not 0 as a bit pattern, else c. -/
def execVsel (core : Nat) (s : State) : Host.Outcome State Fault Refusal :=
  settledRow core s (s.vRegister core 0x3C (.elementwise true true true [0, 1, 2] 1) vOk
    (fun v => perType v (fun a b c => (if a = 0#32 then c else b, 0)) (fun a b c => if a = 0#32 then c else b)
      (fun a b c => (if a = 0 then c else b, 0))))

/-- VLOGIC (R150). -/
def execVlogic (core : Nat) (s : State) : Host.Outcome State Fault Refusal :=
  settledRow core s (s.vRegister core 0x3D (.elementwise true true false [1] 7) vOk
    (fun v => perLane v (fun a b _ => (intLogic (vSub v.d) a b, 0))))

/-- VLANEID (R150): the lane number plus IMM. -/
def execVlaneid (core : Nat) (s : State) : Host.Outcome State Fault Refusal :=
  settledRow core s (s.vRegister core 0x3E { VUse.elementwise false false false [1] 1 with imm := true } vOk
    (fun v => .lanes ((natsFrom 0 64).map (fun l => BitVec.ofNat 32 l + vImm v.d)) 0))

/-- VCVTI (R70, R150). -/
def execVcvti (core : Nat) (s : State) : Host.Outcome State Fault Refusal :=
  settledRow core s (s.vRegister core 0x3F (.elementwise true false false [0] 3) vOk
    (fun v => perLane v (fun a _ _ => cvtInt (vSub v.d) a)))

/-- The conversion control of a descriptor, when it is valid. -/
def vConvOf (d : Bytes) : Option Conv := convOf (vConv d)

/-- VPACK's register: element 2l from a, 2l + 1 from b (R152, R165). -/
def packRun (v : VIn) : VOut :=
  match vConvOf v.d with
  | none => .lanes [] 0
  | some c =>
    let xs := (natsFrom 0 64).flatMap (fun l => [v.a.getD l 0#32, v.b.getD l 0#32])
    let rs := c.roundings v.core.rng v.seed ((natsFrom 0 128).map v.offset)
    let o := (xs.zip rs).map (fun p => c.element (f32 p.1) p.2)
    .lanes ((natsFrom 0 64).map (fun l => packLane (o.getD (2 * l) (0, 0)).1 (o.getD (2 * l + 1) (0, 0)).1))
      (o.foldl (fun f p => f ||| p.2) 0)

/-- VPACK (R152). -/
def execVpack (core : Nat) (s : State) : Host.Outcome State Fault Refusal :=
  settledRow core s (s.vRegister core 0x40 { VUse.elementwise true true false [0] 1 with conv := true, elem := true }
    (fun d => (vConvOf d).elim true (fun c => decide (c.fmt ≠ .bf16) || decide (c.scale ≠ 0))) packRun)

/-- VUNPACK (R150): half SUB of each lane widened exactly. -/
def execVunpack (core : Nat) (s : State) : Host.Outcome State Fault Refusal :=
  settledRow core s (s.vRegister core 0x41 (.elementwise true false false [2] 2) vOk
    (fun v => perLane v (fun a _ _ =>
      let x := Fmt.decode .bf16 (if vSub v.d = 0 then lowElem a else highElem a)
      ((widen x).1, snanFlag x))))

/-- VQUANT (R152). -/
def execVquant (core : Nat) (s : State) : Host.Outcome State Fault Refusal :=
  settledRow core s (s.vRegister core 0x42 { VUse.elementwise true false false [0] 1 with conv := true, elem := true }
    (fun d => (vConvOf d).isNone)
    (fun v => match vConvOf v.d with
      | none => .lanes [] 0
      | some c =>
        let r := quantLanes c v.a (c.roundings v.core.rng v.seed ((natsFrom 0 64).map v.offset))
        .lanes r.1 r.2))

/-! ### Loads and stores (R153) -/

/-- The address of a VLOAD or VSTORE. -/
def vAddr (x : Map W64) (d : Bytes) : Nat := addrOf x (byteField d 32 4) (byteField d 36 1)
/-- SCL_ADDR. -/
def vScl (d : Bytes) : Nat := byteField d 38 4

/-- Whether `n` data bytes and `m` scale bytes lie in one local space at a multiple of 16: the fault otherwise (R95, R153). -/
def vMemFault (x : Map W64) (d : Bytes) (n m : Nat) : Nat :=
  let a := vAddr x d
  let same := (inCore a n && (decide (m = 0) || inCore (vScl d) m)) || (inBent a n && (decide (m = 0) || inBent (vScl d) m))
  if a % 16 ≠ 0 ∨ same = false then 0x02 else 0

/-- The storage format and block code that a VLOAD reads. -/
def loadFmt (d : Bytes) : Nat × Nat := (field (vSfmt d) 4 4, field (vSfmt d) 2 2)

/-- Whether SFMT does not fit the element type (R153). -/
def loadBad (d : Bytes) : Bool :=
  let (f, b) := loadFmt d
  decide (field (vSfmt d) 0 2 ≠ 0) || decide (7 < f) || !blkOk f b ||
  (match vType d with
   | 0 => false
   | 1 => !((decide (f = 7) && decide (b = 0)) || decide (f = 0))
   | _ => !((Fmt.ofCode f == some .bf16) && decide (b = 0)))

/-- Elements that a VLOAD reads. -/
def loadCount (d : Bytes) : Nat := if vType d = 2 then 128 else 64
/-- Data bytes and scale bytes of a VLOAD. -/
def loadSizes (d : Bytes) : Nat × Nat :=
  let (f, b) := loadFmt d
  (((Fmt.ofCode f).map (fun x => x.bytesOf (loadCount d))).getD 0, if blkSize b = 0 then 0 else 64 / blkSize b)

/-- The lanes and flags of a VLOAD (R79, R153). -/
def loadRun (d : Bytes) (data scales : Bytes) : List W32 × Nat :=
  let (f, b) := loadFmt d
  match Fmt.ofCode f with
  | none => ([], 0)
  | some ff =>
    let cs := unpackElems ff data (loadCount d)
    if vType d = 2 then ((natsFrom 0 64).map (fun l => packLane (cs.getD (2 * l) 0) (cs.getD (2 * l + 1) 0)), 0)
    else if vType d = 1 then
      (cs.map (fun c => if f = 0 then BitVec.ofNat 32 c else BitVec.ofInt 32 (signed 8 c)), 0)
    else
      let one := fun (j c : Nat) =>
        let x := ff.decode c
        let y := if blkSize b = 0 then x else scaled (byteField scales (j / blkSize b) 1) x
        let w := widen y
        (w.1, w.2 ||| snanFlag x)
      let o := cs.mapIdx one
      (o.map Prod.fst, o.foldl (fun a p => a ||| p.2) 0)

/-- The operand fields of VLOAD and VSTORE. -/
def memoryUse (store : Bool) : VUse :=
  { VUse.elementwise store false false [0, 1, 2] 1 with dst := !store, conv := store, memory := true, elem := store }

/-- VLOAD (R153). -/
def execVload (core : Nat) (s : State) : Host.Outcome State Fault Refusal :=
  settledRow core s (s.vIssue core 0x43 (memoryUse false) loadBad
    (fun k d => vMemFault k.x d (loadSizes d).1 (loadSizes d).2)
    (fun t v =>
      let r := loadRun v.d (t.readLocal core (vAddr v.core.x v.d) (loadSizes v.d).1) (t.readLocal core (vScl v.d) (loadSizes v.d).2)
      .lanes r.1 r.2)
    (fun t _ => t))

/-- The bytes, scales and flags that a VSTORE writes. -/
def storeRun (v : VIn) : Bytes × Bytes × Nat :=
  if vType v.d ≠ 0 then (ofWords v.a, [], 0)
  else
    match vConvOf v.d with
    | none => ([], [], 0)
    | some c => convertRun c (v.a.map f32) (c.roundings v.core.rng v.seed ((natsFrom 0 64).map v.offset))

/-- Data bytes and scale bytes of a VSTORE. -/
def storeSizes (d : Bytes) : Nat × Nat :=
  if vType d ≠ 0 then (256, 0)
  else (((vConvOf d).map (fun c => (c.fmt.bytesOf 64, if c.block = 0 then 0 else 64 / c.block))).getD (0, 0))

/-- VSTORE (R153): WMASK must be 0. -/
def execVstore (core : Nat) (s : State) : Host.Outcome State Fault Refusal :=
  settledRow core s (s.vIssue core 0x44 (memoryUse true)
    (fun d => decide (vWmask d ≠ 0) || decide (vSfmt d ≠ 0) || (if vType d = 0 then (vConvOf d).isNone else decide (vConv d ≠ 0)))
    (fun k d => vMemFault k.x d (storeSizes d).1 (storeSizes d).2)
    (fun _ v => ⟨none, none, (storeRun v).2.2, none, 0, 0⟩)
    (fun t v =>
      let r := storeRun v
      (t.writeLocal core (vAddr v.core.x v.d) r.1).writeLocal core (vScl v.d) r.2.1))

/-! ### Functions, reductions, softmax -/

/-- A function row (R154). -/
def State.vFunction (s : State) (c op : Nat) (f : W32 → W32 × Nat) : State :=
  s.vRegister c op (.elementwise true false false [0] 1) vOk (fun v => perLane v (fun a _ _ => f a))

/-- VEXP2 (R154). -/
def execVexp2 (core : Nat) (s : State) : Host.Outcome State Fault Refusal := settledRow core s (s.vFunction core 0x45 fExp2)

/-- VLOG2 (R154). -/
def execVlog2 (core : Nat) (s : State) : Host.Outcome State Fault Refusal := settledRow core s (s.vFunction core 0x46 fLog2)

/-- VRCP (R154). -/
def execVrcp (core : Nat) (s : State) : Host.Outcome State Fault Refusal := settledRow core s (s.vFunction core 0x47 fRcp)

/-- VRSQRT (R154). -/
def execVrsqrt (core : Nat) (s : State) : Host.Outcome State Fault Refusal := settledRow core s (s.vFunction core 0x48 fRsqrt)

/-- VTANH (R154). -/
def execVtanh (core : Nat) (s : State) : Host.Outcome State Fault Refusal := settledRow core s (s.vFunction core 0x49 fTanh)

/-- Give each group of lanes one value. -/
def spread (n : Nat) (rs : List W32) : List W32 := rs.flatMap (fun r => List.replicate (2 ^ n) r)

/-- VREDUCE's result: each group's in all its lanes, group 0's in XDST (R155). -/
def reduceRun (v : VIn) : VOut :=
  let n := vGroup v.d
  let rs := (groupsOf v v.a).map (fun g => treeOf (reduceOp (decide (vType v.d = 1)) (vSub v.d)) g n)
  ⟨some (spread n (rs.map Prod.fst)), none, rs.foldl (fun a p => a ||| p.2) 0, some ((rs.map Prod.fst).headD 0#32).toNat, 0, 0⟩

/-- VREDUCE (R155). -/
def execVreduce (core : Nat) (s : State) : Host.Outcome State Fault Refusal :=
  settledRow core s (s.vRegister core 0x4A
    { VUse.elementwise true false false [0, 1] 5 with group := some 0, xdst := true } vOk reduceRun)

/-- VNORM_STATS' results (R156). -/
def normRun (v : VIn) : VOut :=
  let n := vGroup v.d
  let rs := (groupsOf v v.a).map (normStats (decide (vSub v.d = 1)) n (vImm v.d))
  ⟨some (spread n (rs.map (fun r => r.1))), some (spread n (rs.map (fun r => r.2.1))), rs.foldl (fun a r => a ||| r.2.2) 0, none, 0, 0⟩

/-- VNORM_STATS (R156). -/
def execVnormStats (core : Nat) (s : State) : Host.Outcome State Fault Refusal :=
  settledRow core s (s.vRegister core 0x4B
    { VUse.elementwise true false false [0] 2 with dst2 := true, imm := true, group := some 1 }
    (fun d => epsBad d || !((vDst2 d).testBit 7)) normRun)

/-- VSOFTMAX's results (R161). -/
def softmaxRun (v : VIn) : VOut :=
  let n := vGroup v.d
  let b := softBase2 v.d
  let l := softL b
  let rows := (softRows v).map (fun r => (r, softChunk l n r))
  let (x, e, m) := softCount (rows.map (fun r => r.2.m))
  ⟨some (rows.flatMap (fun r => r.1.map (fun p => softApply l p.1 p.2 r.2))),
   if (vDst2 v.d).testBit 7 then some (spread n (rows.map (fun r => softLse b r.2))) else none, 0, some x, e, m⟩

/-- VSOFTMAX (R161). -/
def execVsoftmax (core : Nat) (s : State) : Host.Outcome State Fault Refusal :=
  settledRow core s (s.vRegister core 0x4C
    { VUse.elementwise true false false [0] 2 with dst2 := true, imm := true, group := some 2, pmask := true, xdst := true }
    tauBad softmaxRun)

/-- VLSE_UPDATE's states (R161): SUB [0] BASE2, [1] INIT, [2] MERGE. -/
def lseUpdateRun (v : VIn) : VOut :=
  let n := vGroup v.d
  let l := softL (softBase2 v.d)
  let bs := if (vSub v.d).testBit 1 then (groupsOf v v.a).map (fun _ => Soft.none) else (groupsOf v v.b).map softOf
  let as := if (vSub v.d).testBit 2 then (groupsOf v v.a).map softOf else (softRows v).map (softChunk l n)
  .lanes ((bs.zip as).flatMap (fun p => (softMerge l p.1 p.2).lanes n)) 0

/-- VLSE_UPDATE (R161). -/
def execVlseUpdate (core : Nat) (s : State) : Host.Outcome State Fault Refusal :=
  settledRow core s (s.vRegister core 0x4D
    { VUse.elementwise true true false [0] 8 with imm := true, group := some 2, pmask := true }
    (fun d => tauBad d || ((vSub d).testBit 1 && decide (vOpd d 1 ≠ 0))) lseUpdateRun)

/-- VSOFTMAX_APPLY's lanes (R161). -/
def softmaxApplyRun (v : VIn) : VOut :=
  let l := softL (softBase2 v.d)
  .lanes (((softRows v).zip ((groupsOf v v.b).map softOf)).flatMap (fun r => r.1.map (fun p => softApply l p.1 p.2 r.2))) 0

/-- VSOFTMAX_APPLY (R161). -/
def execVsoftmaxApply (core : Nat) (s : State) : Host.Outcome State Fault Refusal :=
  settledRow core s (s.vRegister core 0x4E
    { VUse.elementwise true true false [0] 2 with imm := true, group := some 2, pmask := true } tauBad softmaxApplyRun)

/-- VLSE_FINAL's lanes and reports (R161). -/
def lseFinalRun (v : VIn) : VOut :=
  let n := vGroup v.d
  let sts := (groupsOf v v.b).map softOf
  let (x, e, m) := softCount (sts.map Soft.m)
  ⟨some (spread n (sts.map (softLse (softBase2 v.d)))), none, 0, some x, e, m⟩

/-- VLSE_FINAL (R161). -/
def execVlseFinal (core : Nat) (s : State) : Host.Outcome State Fault Refusal :=
  settledRow core s (s.vRegister core 0x4F
    { VUse.elementwise false true false [0] 2 with group := some 2, xdst := true } vOk lseFinalRun)

/-! ### Random numbers (R164, R165) -/

/-- RNG_CTX (R164): sets the context from X registers at issue. -/
def execRngCtx (core : Nat) (s : State) : Host.Outcome State Fault Refusal :=
  settledRow core s (s.issue core 0x50
    (fun s c d =>
      { invalid := !([8, 9, 10, 11, 12].all (fun i => selOk (byteField d i 1) && selUse (byteField d i 1))) || !zeroBytes d 13 64,
        xs := selXs d [8, 9, 10, 11, 12], tiles := [], fault := 0, next := (s.core c).dptr + 64 })
    (fun t k d =>
      let x := fun (i : Nat) => selVal k.x (byteField d i 1)
      t.modCore core (fun n => { n with rng := ⟨x 8 % 2 ^ 32, x 9 % 2 ^ 14, x 10 % 2 ^ 32, x 11 % 2 ^ 12, x 12 % 2 ^ 40⟩ })))

/-- The random word of a lane (R165). -/
def VIn.word (v : VIn) (l : Nat) : Nat := v.core.rng.word v.seed (v.offset l)

/-- VRAND (R165): RAW words, or UNIFORM values (w >> 8) × 2^-24. -/
def execVrand (core : Nat) (s : State) : Host.Outcome State Fault Refusal :=
  settledRow core s (s.vRegister core 0x51 { VUse.elementwise false false false [0, 1] 2 with elem := true } vOk
    (fun v => .lanes ((natsFrom 0 64).map (fun l =>
      if vSub v.d = 0 then BitVec.ofNat 32 (v.word l) else (toF32 (.fin false (v.word l / 256) (-24))).1)) 0))

/-- VDROPOUT (R165): +0 where the word is below IMM2, else the value scaled by IMM. -/
def execVdropout (core : Nat) (s : State) : Host.Outcome State Fault Refusal :=
  settledRow core s (s.vRegister core 0x52
    { VUse.elementwise true false false [0] 1 with imm := true, imm2 := true, elem := true } vOk
    (fun v =>
      let o := v.a.mapIdx (fun l a => if v.word l < vImm2 v.d then (0#32, 0) else f32Mul a (vImm v.d))
      .lanes (o.map Prod.fst) (o.foldl (fun f p => f ||| p.2) 0)))

end Sys2Proof.Machine
end

