-- ==== Sys2Proof/Machine/Dispatch.lean ====
section
/-! DEFINITION. The meaning of every command: one arm per constructor of Instr. -/

namespace Sys2Proof.Machine

/-- A command's effect on everything but the queue. -/
def exec (i : Instr) (s : State) : Host.Outcome State Fault Refusal :=
  match i with
  | .read f => Sys2Proof.Machine.execRead f s
  | .write f => Sys2Proof.Machine.execWrite f s
  | .readDomain f => Sys2Proof.Machine.execReadDomain f s
  | .writeDomain f => Sys2Proof.Machine.execWriteDomain f s
  | .writeDomainTimeout session seq => Sys2Proof.Machine.execWriteDomainTimeout session seq s
  | .subscribe f => Sys2Proof.Machine.execSubscribe f s
  | .unsubscribe f => Sys2Proof.Machine.execUnsubscribe f s
  | .openSession f => Sys2Proof.Machine.execOpenSession f s
  | .closeSession f => Sys2Proof.Machine.execCloseSession f s
  | .sessionIdleTimeout session => Sys2Proof.Machine.execSessionIdleTimeout session s
  | .serviceWrite f => Sys2Proof.Machine.execServiceWrite f s
  | .serviceLockoutEnd => Sys2Proof.Machine.execServiceLockoutEnd s
  | .proxyResponse f => Sys2Proof.Machine.execProxyResponse f s
  | .eventSend session index sub => Sys2Proof.Machine.execEventSend session index sub s
  | .reqPost frames mask => Sys2Proof.Machine.execReqPost frames mask s
  | .rspTake mask => Sys2Proof.Machine.execRspTake mask s
  | .evtTake mask => Sys2Proof.Machine.execEvtTake mask s
  | .restoreStored f => Sys2Proof.Machine.execRestoreStored f s
  | .counterClear f => Sys2Proof.Machine.execCounterClear f s
  | .nop core => Sys2Proof.Machine.execNop core s
  | .halt core => Sys2Proof.Machine.execHalt core s
  | .wait core => Sys2Proof.Machine.execWait core s
  | .signal core => Sys2Proof.Machine.execSignal core s
  | .fence core => Sys2Proof.Machine.execFence core s
  | .loop core => Sys2Proof.Machine.execLoop core s
  | .branchFlag core => Sys2Proof.Machine.execBranchFlag core s
  | .branchX core => Sys2Proof.Machine.execBranchX core s
  | .xop core => Sys2Proof.Machine.execXop core s
  | .descriptorRetire core => Sys2Proof.Machine.execDescriptorRetire core s
  | .coreWaiting core => Sys2Proof.Machine.execCoreWaiting core s
  | .watchdog core pos => Sys2Proof.Machine.execWatchdog core pos s
  | .moveLocal core => Sys2Proof.Machine.execMoveLocal core s
  | .moveBent core => Sys2Proof.Machine.execMoveBent core s
  | .movePeer core => Sys2Proof.Machine.execMovePeer core s
  | .moveTensor core reads => Sys2Proof.Machine.execMoveTensor core reads s
  | .coreStart f => Sys2Proof.Machine.execCoreStart f s
  | .coreStop f => Sys2Proof.Machine.execCoreStop f s
  | .coreReset f => Sys2Proof.Machine.execCoreReset f s
  | .coreMemoryWrite f => Sys2Proof.Machine.execCoreMemoryWrite f s
  | .coreFpStatusWrite f => Sys2Proof.Machine.execCoreFpStatusWrite f s
  | .mm core => Sys2Proof.Machine.execMm core s
  | .chainLoad core => Sys2Proof.Machine.execChainLoad core s
  | .chainTransfer core => Sys2Proof.Machine.execChainTransfer core s
  | .tileClear core => Sys2Proof.Machine.execTileClear core s
  | .tileStore core => Sys2Proof.Machine.execTileStore core s
  | .tileStat core => Sys2Proof.Machine.execTileStat core s
  | .vadd core => Sys2Proof.Machine.execVadd core s
  | .vsub core => Sys2Proof.Machine.execVsub core s
  | .vmul core => Sys2Proof.Machine.execVmul core s
  | .vfma core => Sys2Proof.Machine.execVfma core s
  | .vmin core => Sys2Proof.Machine.execVmin core s
  | .vmax core => Sys2Proof.Machine.execVmax core s
  | .vminnum core => Sys2Proof.Machine.execVminnum core s
  | .vmaxnum core => Sys2Proof.Machine.execVmaxnum core s
  | .vneg core => Sys2Proof.Machine.execVneg core s
  | .vabs core => Sys2Proof.Machine.execVabs core s
  | .vcopysign core => Sys2Proof.Machine.execVcopysign core s
  | .vcmp core => Sys2Proof.Machine.execVcmp core s
  | .vsel core => Sys2Proof.Machine.execVsel core s
  | .vlogic core => Sys2Proof.Machine.execVlogic core s
  | .vlaneid core => Sys2Proof.Machine.execVlaneid core s
  | .vcvti core => Sys2Proof.Machine.execVcvti core s
  | .vpack core => Sys2Proof.Machine.execVpack core s
  | .vunpack core => Sys2Proof.Machine.execVunpack core s
  | .vquant core => Sys2Proof.Machine.execVquant core s
  | .vload core => Sys2Proof.Machine.execVload core s
  | .vstore core => Sys2Proof.Machine.execVstore core s
  | .vexp2 core => Sys2Proof.Machine.execVexp2 core s
  | .vlog2 core => Sys2Proof.Machine.execVlog2 core s
  | .vrcp core => Sys2Proof.Machine.execVrcp core s
  | .vrsqrt core => Sys2Proof.Machine.execVrsqrt core s
  | .vtanh core => Sys2Proof.Machine.execVtanh core s
  | .vreduce core => Sys2Proof.Machine.execVreduce core s
  | .vnormStats core => Sys2Proof.Machine.execVnormStats core s
  | .vsoftmax core => Sys2Proof.Machine.execVsoftmax core s
  | .vlseUpdate core => Sys2Proof.Machine.execVlseUpdate core s
  | .vsoftmaxApply core => Sys2Proof.Machine.execVsoftmaxApply core s
  | .vlseFinal core => Sys2Proof.Machine.execVlseFinal core s
  | .rngCtx core => Sys2Proof.Machine.execRngCtx core s
  | .vrand core => Sys2Proof.Machine.execVrand core s
  | .vdropout core => Sys2Proof.Machine.execVdropout core s
  | .rngSeedWrite f => Sys2Proof.Machine.execRngSeedWrite f s
  | .queueCreate f => Sys2Proof.Machine.execQueueCreate f s
  | .queueClose f => Sys2Proof.Machine.execQueueClose f s
  | .queueReopen f => Sys2Proof.Machine.execQueueReopen f s
  | .queueDelete f => Sys2Proof.Machine.execQueueDelete f s
  | .endpointTableWrite f => Sys2Proof.Machine.execEndpointTableWrite f s
  | .send core => Sys2Proof.Machine.execSend core s
  | .recv core => Sys2Proof.Machine.execRecv core s
  | .contribute core => Sys2Proof.Machine.execContribute core s
  | .probe core => Sys2Proof.Machine.execProbe core s
  | .messageAccept flight damage => Sys2Proof.Machine.execMessageAccept flight damage s
  | .generationNotice queue gen closed => Sys2Proof.Machine.execGenerationNotice queue gen closed s
  | .chWaitTimeout core => Sys2Proof.Machine.execChWaitTimeout core s
  | .arm f => Sys2Proof.Machine.execArm f s
  | .run f => Sys2Proof.Machine.execRun f s
  | .stageStop f => Sys2Proof.Machine.execStageStop f s
  | .disarm f => Sys2Proof.Machine.execDisarm f s
  | .pacerDecide slot => Sys2Proof.Machine.execPacerDecide slot s
  | .workItemComplete slot => Sys2Proof.Machine.execWorkItemComplete slot s
  | .stageDeadline slot => Sys2Proof.Machine.execStageDeadline slot s
  | .relayOpen f => Sys2Proof.Machine.execRelayOpen f s
  | .relayClose f => Sys2Proof.Machine.execRelayClose f s
  | .relayOpenRequest source remoteLink link direction jobTag => Sys2Proof.Machine.execRelayOpenRequest source remoteLink link direction jobTag s
  | .laneOpen f => Sys2Proof.Machine.execLaneOpen f s
  | .laneClose f => Sys2Proof.Machine.execLaneClose f s
  | .laneReopen f => Sys2Proof.Machine.execLaneReopen f s
  | .laneDelete f => Sys2Proof.Machine.execLaneDelete f s
  | .lanePeerOpen lane depth plane pages maxTokens tokenBytes => Sys2Proof.Machine.execLanePeerOpen lane depth plane pages maxTokens tokenBytes s
  | .laneSend slot ret => Sys2Proof.Machine.execLaneSend slot ret s
  | .batonReceive lane pages baton => Sys2Proof.Machine.execBatonReceive lane pages baton s
  | .allocMap f => Sys2Proof.Machine.execAllocMap f s
  | .allocUnmap f => Sys2Proof.Machine.execAllocUnmap f s
  | .optimizerLayerUpdate slot layer => Sys2Proof.Machine.execOptimizerLayerUpdate slot layer s
  | .vsFetch f => Sys2Proof.Machine.execVsFetch f s
  | .vsFetchDone slot result => Sys2Proof.Machine.execVsFetchDone slot result s
  | .readyToken m => Sys2Proof.Machine.execReadyToken m s
  | .fail m => Sys2Proof.Machine.execFail m s
  | .commit m => Sys2Proof.Machine.execCommit m s
  | .abort m => Sys2Proof.Machine.execAbort m s
  | .query m => Sys2Proof.Machine.execQuery m s
  | .resumeMessage m => Sys2Proof.Machine.execResumeMessage m s
  | .resume f => Sys2Proof.Machine.execResume f s
  | .resolveCommit f => Sys2Proof.Machine.execResolveCommit f s
  | .resolveAbort f => Sys2Proof.Machine.execResolveAbort f s
  | .commitParentWrite f => Sys2Proof.Machine.execCommitParentWrite f s
  | .commitWaitTimeout => Sys2Proof.Machine.execCommitWaitTimeout s
  | .reductionPacket channel p => Sys2Proof.Machine.execReductionPacket channel p s
  | .reshard f => Sys2Proof.Machine.execReshard f s
  | .reshardCancel f => Sys2Proof.Machine.execReshardCancel f s
  | .epochRefusal channel => Sys2Proof.Machine.execEpochRefusal channel s
  | .activate f => Sys2Proof.Machine.execActivate f s
  | .deactivate f => Sys2Proof.Machine.execDeactivate f s
  | .rcHopTimeout channel => Sys2Proof.Machine.execRcHopTimeout channel s
  | .declare f => Sys2Proof.Machine.execDeclare f s
  | .retract f => Sys2Proof.Machine.execRetract f s
  | .ringBlock slot b => Sys2Proof.Machine.execRingBlock slot b s
  | .ringWaitTimeout core => Sys2Proof.Machine.execRingWaitTimeout core s
  | .dataStart f => Sys2Proof.Machine.execDataStart f s
  | .dataStop f => Sys2Proof.Machine.execDataStop f s
  | .clearClips f => Sys2Proof.Machine.execClearClips f s
  | .decodeSlot => Sys2Proof.Machine.execDecodeSlot s
  | .ingestFrame port fr => Sys2Proof.Machine.execIngestFrame port fr s
  | .rdmaTimeout port qp => Sys2Proof.Machine.execRdmaTimeout port qp s
  | .slotDecoded u d => Sys2Proof.Machine.execSlotDecoded u d s
  | .slotTransfer u p => Sys2Proof.Machine.execSlotTransfer u p s
  | .clipNotice decoder sourceId epoch => Sys2Proof.Machine.execClipNotice decoder sourceId epoch s
  | .cursorMessage sink cursor => Sys2Proof.Machine.execCursorMessage sink cursor s
  | .lightDetect port => Sys2Proof.Machine.execLightDetect port s
  | .hello port r => Sys2Proof.Machine.execHello port r s
  | .beaconSend port => Sys2Proof.Machine.execBeaconSend port s
  | .trainStepTimeout port => Sys2Proof.Machine.execTrainStepTimeout port s
  | .identity port r => Sys2Proof.Machine.execIdentity port r s
  | .identityUpdate port r => Sys2Proof.Machine.execIdentityUpdate port r s
  | .lightLoss port lanes => Sys2Proof.Machine.execLightLoss port lanes s
  | .helloTimeout port => Sys2Proof.Machine.execHelloTimeout port s
  | .holdExpiry port => Sys2Proof.Machine.execHoldExpiry port s
  | .portEnable f => Sys2Proof.Machine.execPortEnable f s
  | .portDisable f => Sys2Proof.Machine.execPortDisable f s
  | .portRetrain f => Sys2Proof.Machine.execPortRetrain f s
  | .clearHold f => Sys2Proof.Machine.execClearHold f s
  | .flit port fl => Sys2Proof.Machine.execFlit port fl s
  | .nak port seq => Sys2Proof.Machine.execNak port seq s
  | .keepalive partner => Sys2Proof.Machine.execKeepalive partner s
  | .remotePartnerTimeout partner => Sys2Proof.Machine.execRemotePartnerTimeout partner s
  | .packet port vc p => Sys2Proof.Machine.execPacket port vc p s
  | .lineNotice port dim link down origin => Sys2Proof.Machine.execLineNotice port dim link down origin s
  | .unreachableNotice p dest => Sys2Proof.Machine.execUnreachableNotice p dest s
  | .flowReset source cls => Sys2Proof.Machine.execFlowReset source cls s
  | .routeRejoin dim link => Sys2Proof.Machine.execRouteRejoin dim link s
  | .ptpMessage port m => Sys2Proof.Machine.execPtpMessage port m s
  | .ptpSend port => Sys2Proof.Machine.execPtpSend port s
  | .timeSet f => Sys2Proof.Machine.execTimeSet f s
  | .hostLinkReset r => Sys2Proof.Machine.execHostLinkReset r s
  | .slRetrain f => Sys2Proof.Machine.execSlRetrain f s
  | .claim link fromB epoch mask width => Sys2Proof.Machine.execClaim link fromB epoch mask width s
  | .dieTrainTimeout link => Sys2Proof.Machine.execDieTrainTimeout link s
  | .dieTrainRetry link => Sys2Proof.Machine.execDieTrainRetry link s
  | .scarfFlit link crcOk => Sys2Proof.Machine.execScarfFlit link crcOk s
  | .dieRead die block => Sys2Proof.Machine.execDieRead die block s
  | .dieWrite die block bytes => Sys2Proof.Machine.execDieWrite die block bytes s
  | .readData die block => Sys2Proof.Machine.execReadData die block s
  | .invalidate die block => Sys2Proof.Machine.execInvalidate die block s
  | .invAck die block => Sys2Proof.Machine.execInvAck die block s
  | .writeAck die block => Sys2Proof.Machine.execWriteAck die block s
  | .intMessage die index sub => Sys2Proof.Machine.execIntMessage die index sub s
  | .rlcEnableWrite f => Sys2Proof.Machine.execRlcEnableWrite f s
  | .scrubRead stack errors => Sys2Proof.Machine.execScrubRead stack errors s
  | .recomputeRun core errors => Sys2Proof.Machine.execRecomputeRun core errors s
  | .recomputeForce core errors => Sys2Proof.Machine.execRecomputeForce core errors s
  | .implicationExpiry suspect => Sys2Proof.Machine.execImplicationExpiry suspect s
  | .drain f => Sys2Proof.Machine.execDrain f s
  | .undrain f => Sys2Proof.Machine.execUndrain f s
  | .bentTimeout bent engine => Sys2Proof.Machine.execBentTimeout bent engine s
  | .dieTimeout die suspect => Sys2Proof.Machine.execDieTimeout die suspect s
  | .packageTimeout => Sys2Proof.Machine.execPackageTimeout s
  | .faultReport f => Sys2Proof.Machine.execFaultReport f s
  | .reportSend suspect cls step => Sys2Proof.Machine.execReportSend suspect cls step s
  | .pwrEnHigh => Sys2Proof.Machine.execPwrEnHigh s
  | .pwrEnLow => Sys2Proof.Machine.execPwrEnLow s
  | .rstNLow => Sys2Proof.Machine.execRstNLow s
  | .rstNHigh => Sys2Proof.Machine.execRstNHigh s
  | .startStepComplete r => Sys2Proof.Machine.execStartStepComplete r s
  | .falseStart => Sys2Proof.Machine.execFalseStart s
  | .restart f => Sys2Proof.Machine.execRestart f s
  | .clearFalseStarts f => Sys2Proof.Machine.execClearFalseStarts f s
  | .domainEnable f => Sys2Proof.Machine.execDomainEnable f s
  | .domainDisable f => Sys2Proof.Machine.execDomainDisable f s
  | .powerUpComplete domain => Sys2Proof.Machine.execPowerUpComplete domain s
  | .powerDownComplete domain => Sys2Proof.Machine.execPowerDownComplete domain s
  | .powerUpTimeout domain => Sys2Proof.Machine.execPowerUpTimeout domain s
  | .dieReset f => Sys2Proof.Machine.execDieReset f s
  | .eraseA f => Sys2Proof.Machine.execEraseA f s
  | .eraseB f => Sys2Proof.Machine.execEraseB f s
  | .verifyA f => Sys2Proof.Machine.execVerifyA f s
  | .verifyB f => Sys2Proof.Machine.execVerifyB f s
  | .bootImageWrite f => Sys2Proof.Machine.execBootImageWrite f s
  | .inputInRange => Sys2Proof.Machine.execInputInRange s
  | .inputOutOfRange => Sys2Proof.Machine.execInputOutOfRange s
  | .thermalTrip sensor reading => Sys2Proof.Machine.execThermalTrip sensor reading s
  | .tripRelease => Sys2Proof.Machine.execTripRelease s
  | .governorStep r => Sys2Proof.Machine.execGovernorStep r s
  | .counterFreeze f => Sys2Proof.Machine.execCounterFreeze f s
  | .counterPreset f => Sys2Proof.Machine.execCounterPreset f s
  | .overflowClear f => Sys2Proof.Machine.execOverflowClear f s
  | .counterSelect f => Sys2Proof.Machine.execCounterSelect f s
  | .counterWrap level unit ctr => Sys2Proof.Machine.execCounterWrap level unit ctr s
  | .tagSeed f => Sys2Proof.Machine.execTagSeed f s
  | .requestDeferred session seq => Sys2Proof.Machine.execRequestDeferred session seq s
  | .relayRemoteClose link => Sys2Proof.Machine.execRelayRemoteClose link s
  | .rateRecovery port qp => Sys2Proof.Machine.execRateRecovery port qp s
  | .torusTrainingStepDone port localMask remoteMask => Sys2Proof.Machine.execTorusTrainingStepDone port localMask remoteMask s
  | .dieLinkTestDone link endB mask repaired => Sys2Proof.Machine.execDieLinkTestDone link endB mask repaired s
  | .hostLinkUp h => Sys2Proof.Machine.execHostLinkUp h s
  | .holdBaseRestore port => Sys2Proof.Machine.execHoldBaseRestore port s
  | .glitchFiltered pin => Sys2Proof.Machine.execGlitchFiltered pin s
  | .bootSelAccepted pin level => Sys2Proof.Machine.execBootSelAccepted pin level s
  | .pwrEnRejected => Sys2Proof.Machine.execPwrEnRejected s
  | .railsOutOfRegulation => Sys2Proof.Machine.execRailsOutOfRegulation s
  | .ingestLinkChange port up => Sys2Proof.Machine.execIngestLinkChange port up s
  | .tallyLinkChange up => Sys2Proof.Machine.execTallyLinkChange up s

end Sys2Proof.Machine
end

