-- ==== Sys2Proof/Safety.lean ====
section
/-! DEFINITION. What counts as a safe step and as nothing left to do, and the conditions and states in which the statements are written:
a request that the package takes, a descriptor that issues, and what follows every command. -/

namespace Sys2Proof.Machine

/-! ### Outcomes and invariants -/

/-- A command's outcome is a next state. -/
def Completes (o : Host.Outcome State Fault Refusal) : Prop := ∃ t, o = .next t

/-- An invariant holds after every step that answers a next state, from every state that meets it. -/
def KeptByStep (inv : State → Prop) : Prop := ∀ s t : State, inv s → step s = .next t → inv t

/-- The state after a command that took `s` to `u`, once the partners and the subscribers know what changed, and a package that drained
after it lost a compute die has entered Walk mode (R62, R364, R446). -/
def seen (s u : State) : State := noteChanges s (noteTorus s u.walkDue)

/-- A package that runs and has an excluded compute die is not DRAINED: at DRAINED it is in Walk mode (R446). -/
def WalksWhenDrained (s : State) : Prop :=
  s.start.phase = .ready → s.rd O.drainState = 2 → ∀ d, d < 4 → s.rd (O.dieState d) ≠ 2

/-- No unit of a core has a descriptor to carry on: every issued descriptor is complete. -/
def State.unitsIdle (s : State) : Bool := s.cores.entries.all (fun e => e.2.inflight.all (fun i => decide (i.stage = .complete)))

/-- Nothing in the package waits to go on: every issued descriptor is complete, no reduction channel serves a slot, the step waits for none of
the package's own work, no commit message came early, no slot stops, no drain runs and no candidate waits for room. -/
def State.quiet (s : State) : Bool :=
  s.unitsIdle && (natsFrom 0 32).all (fun c => decide (16 ≤ s.rd (O.rcSlot c)))
    && s.commit.early.isEmpty && !(s.commit.opened && decide (s.rd O.stepState = 0)) && decide (s.rd O.stepState ≠ 1)
    && decide (s.rd O.stepState ≠ 2)
    && allSlots.all (fun i => decide (s.stage i ≠ 3)) && decide (s.rd O.drainState = 0) && s.data.waiting.isEmpty

/-! ### Management requests (R54-R63) -/

/-- The state in which the package has received a frame that is whole and of a version it knows (R54, R65). -/
def received (s : State) (f : Frame) : State :=
  ((((takeFrame s f).getD s).trace f).add O.framesReceived 1).kpc 0x10 0 1

/-- The state in which a request of a session is served: the frame is received, and the session has carried a frame (R57). -/
def inSession (s : State) (f : Frame) : State := (received s f).modSession f.session (fun e => { e with lastFrame := s.now })

/-- The level of the session that a frame names. -/
def levelOf (s : State) (f : Frame) : Nat := (s.session? f.session).elim 0 Session.level

/-- Whether a frame reaches the package as an intact request of a COMMAND for this package (R54, R55). -/
def arrives (s : State) (f : Frame) (cmd : Nat) : Bool :=
  s.served && (takeFrame s f).isSome && f.intact && decide (f.version = 1) && decide (f.kind = 1) && decide (f.target = s.node.id)
    && decide (f.command = cmd)

/-- Whether a frame is a new request of an opened session, whose answer is not held back, and which has room for it among its eight outstanding
requests (R57). -/
def asks (s : State) (f : Frame) (cmd : Nat) : Bool :=
  arrives s f cmd && decide (f.session ≠ 0)
    && (s.session? f.session).elim false (fun e => e.remembered.all (fun p => decide (p.1 ≠ f.seq))
          && s.mgmt.outstanding.all (fun o => !(decide (o.session = e.id) && decide (o.seq = f.seq)))
          && !s.answerHeld e.id f.seq && decide (s.outstandingCount e.id < 8))

/-- Whether a frame is a new WRITE of a value that passes every check of R63. -/
def writes (s : State) (f : Frame) : Bool :=
  asks s f cmdWrite && decide (checkWrite (inSession s f) (levelOf s f) f.key f.body.length (leNat f.body) = stOk)

/-- The value that a WRITE carries (R51). -/
def valueOf (f : Frame) : Nat := leNat f.body

/-- Whether a frame is a new WRITE_DOMAIN whose one frame holds the whole transfer, which passes every check of R59 and R63. -/
def writesWhole (s : State) (f : Frame) : Bool :=
  asks s f cmdWriteDomain && f.isLast && decide (f.body ≠ [])
    && s.mgmt.transfers.all (fun x => !(decide (x.session = f.session) && decide (x.seq = f.seq)))
    && decide (checkDomain (inSession s f) (levelOf s f) f.key true (domSize f.key) (f.offset + f.body.length) = stOk)

/-- The state after a request's response has gone out and its status is remembered (R51, R57). -/
def answered (f : Frame) (t : State) (status : Nat) (payload : Bytes) : State :=
  (t.respond f f.session status payload).remember f.session f.seq status

/-- The state after DEFERRED has gone out for a request, which stays outstanding (R60). -/
def deferredFor (f : Frame) (t : State) (w : Waits) : State := answer f true (.deferred t w)

/-- A new WRITE that passes its checks is answered OK in the state its effect leads to. -/
def writeDone (f : Frame) (t : State) : State := answered f t stOk []

/-! ### Descriptors (R96-R103) -/

/-- The bytes of the descriptor at DPTR of a core. -/
def nextDesc (s : State) (c : Nat) : Bytes := (s.core c).mem.bytes 0#8 (s.core c).dptr 64

/-- Whether a core issues the descriptor at DPTR now, when its operands come to `p`: the core runs, no fault is pending, the opcode is the
row's, the wait condition holds, a fence has nothing before it, there is room and no hazard, and the descriptor is valid (R97-R99). -/
def issues (s : State) (c op : Nat) (p : Plan) : Bool :=
  let k := s.core c
  let d := nextDesc s c
  decide (c < 3072) && k.runs && k.pending.isNone && decide (dOp d = op) && !opReserved op && k.waitMet
    && (!waitsAll d || k.inflight.isEmpty) && decide (k.inflight.length < 8) && decide (field (dFlags d) 0 5 = 0) && !p.invalid
    && k.room (opUnit op) && !k.hazard p.xs p.tiles && decide (p.fault = 0) && decide (0 ≤ p.next) && decide (p.next ≤ 0x7FFC0)

/-- The state in which a core has issued the descriptor at DPTR (R99, R103, R469): DPTR at the next descriptor, the descriptor in flight with
the registers it read, its CLEAR flags cleared, counted. -/
def issued (s : State) (c op next : Nat) : State :=
  let k := s.core c
  let d := nextDesc s c
  let (t, tag) := s.tagAt c d k.dptr
  let now := opUnit op = 0 ∨ opUnit op = 2
  let tag := if now then tag.map (fun g => { g with ended := some g.issue }) else tag
  let i : Issued := { addr := k.dptr, desc := d, x := k.x, rng := k.rng, seed := t.rd (O.rngSeed (c / 64)),
                      stage := if now then .complete else .queued, shadow := none, credit := [], due := t.now + t.rd (O.wdLimit (c / 64)),
                      ring := none, tag := tag, reads := [], asked := none, came := [], paid := false, sample := none }
  (t.modCore c (fun k =>
    { k with state := .running, waitDue := none, dptr := next, inflight := k.inflight ++ [i],
             flags := if dClear d then (k.clearFlags (dWait d)).flags else k.flags })).pc c 0x02 1

/-- What a row of the vector engine says: where it issues, the core takes the result of its operation on the operands it named (R145-R149). -/
def VectorRow (row : Nat → Instr) (op : Nat) (u : VUse) (bad : Bytes → Bool) (fault : Core → Bytes → Nat)
    (run : State → Nat → VIn → VOut) (store : State → Nat → VIn → State) : Prop :=
  ∀ (s : State) (c : Nat),
    let k := s.core c
    let d := nextDesc s c
    let t := issued s c op (k.dptr + 64)
    let v : VIn := ⟨d, if u.a then k.operand d (vOpd d 0) else [], if u.b then k.operand d (vOpd d 1) else [],
      if u.c then k.operand d (vOpd d 2) else [], k, t.rd (O.rngSeed (c / 64))⟩
    issues s c op ⟨u.invalid d || bad d, vXs d, ((u.operands d).filter (fun o => decide (opdKind o = 2))).map opdTile,
      if k.emptyTile (u.operands d) then 0x01 else fault k d, (k.dptr : Int) + 64⟩ = true →
    exec (row c) s = .next (seen s (store (t.vApply c d (run t c v)) c v).settle)

/-- A vector row that reads and writes registers only. -/
def RegisterRow (row : Nat → Instr) (op : Nat) (u : VUse) (bad : Bytes → Bool) (run : VIn → VOut) : Prop :=
  VectorRow row op u bad (fun _ _ => 0) (fun _ _ v => run v) (fun t _ _ => t)

end Sys2Proof.Machine
end

