-- ==== Sys2Proof/WellFormed.lean ====
section
/-! DEFINITION. Which commands can reach the block: frame fields within their widths (Table 3.4), units that exist
(R7, R14, R36, Tables 1.7, 2.6), header fields within theirs. -/

namespace Sys2Proof

/-- The Ethernet II framing of a Tally frame lies within its fields: two MAC addresses, a tag, an EtherType (Table 3.6). -/
def Ether.wf (e : Ether) : Bool :=
  decide (e.dst < 2 ^ 48) && decide (e.src < 2 ^ 48) && e.tag.elim true (fun t => decide (t < 65536)) && decide (e.type < 65536)

/-- The fields of a management frame lie within the widths of Table 3.4, and the carrier delivered the payload. -/
def Frame.wf (f : Frame) : Bool :=
  decide (f.slot < 16) && decide (f.version < 256) && decide (f.kind < 256) && decide (f.command < 256)
    && decide (f.status < 256) && decide (f.seq < 65536) && decide (f.session < 65536) && decide (f.source < 65536)
    && decide (f.dest < 65536) && decide (f.index < 65536) && decide (f.sub < 256) && decide (f.flags < 256)
    && decide (f.offset < 2 ^ 32) && decide (f.length < 65536)
    && (decide (f.carried < 28 + f.length) || decide (f.length ≤ f.payload.length)) && f.ether.wf

/-- A commit message's fields lie within the widths of Table 10.7. -/
def CommitMsg.wf (m : CommitMsg) : Bool :=
  decide (m.format < 256) && decide (m.type < 256) && decide (m.action < 256) && decide (m.attempt < 256)
    && decide (m.step < 2 ^ 32) && decide (m.jobTag < 2 ^ 32) && decide (m.sender < 65536)
    && decide (m.firstFail < 65536) && decide (m.reporters < 2 ^ 32) && decide (m.reason < 256)

/-- An identity record's fields lie within the widths of Table 14.7. -/
def IdRecord.wf (r : IdRecord) : Bool :=
  decide (r.format < 256) && decide (r.kind < 256) && decide (r.packageId < 65536) && decide (r.port < 256)
    && decide (r.generation < 256) && decide (r.compute < 256) && decide (r.iod < 256) && decide (r.dimX < 256) && decide (r.dimY < 256)
    && decide (r.dimZ < 256) && decide (r.iflags < 256) && decide (r.digest < 2 ^ 32) && decide (r.revision < 2 ^ 32) && decide (r.jobTag < 2 ^ 32)
    && decide (r.lanes < 65536) && decide (r.serial.length = 16) && decide (r.lineDown < 2 ^ 32)

/-- Whether a command can reach the block. -/
def Instr.wellFormed : Instr → Bool
  | .read f => f.wf
  | .write f => f.wf
  | .readDomain f => f.wf
  | .writeDomain f => f.wf
  | .writeDomainTimeout session seq => decide (session < 65536) && decide (seq < 65536)
  | .subscribe f => f.wf
  | .unsubscribe f => f.wf
  | .openSession f => f.wf
  | .closeSession f => f.wf
  | .sessionIdleTimeout session => decide (session < 65536)
  | .serviceWrite f => f.wf
  | .serviceLockoutEnd => true
  | .proxyResponse f => f.wf
  | .eventSend session index sub => decide (session < 65536) && decide (index < 65536) && decide (sub < 256)
  | .reqPost frames mask => frames.all Frame.wf && decide (mask < 65536)
  | .rspTake mask => decide (mask < 65536)
  | .evtTake mask => decide (mask < 65536)
  | .restoreStored f => f.wf
  | .counterClear f => f.wf
  | .nop core => decide (core < 3072)
  | .halt core => decide (core < 3072)
  | .wait core => decide (core < 3072)
  | .signal core => decide (core < 3072)
  | .fence core => decide (core < 3072)
  | .loop core => decide (core < 3072)
  | .branchFlag core => decide (core < 3072)
  | .branchX core => decide (core < 3072)
  | .xop core => decide (core < 3072)
  | .descriptorRetire core => decide (core < 3072)
  | .coreWaiting core => decide (core < 3072)
  | .watchdog core _ => decide (core < 3072)
  | .moveLocal core => decide (core < 3072)
  | .moveBent core => decide (core < 3072)
  | .movePeer core => decide (core < 3072)
  | .moveTensor core _ => decide (core < 3072)
  | .coreStart f => f.wf
  | .coreStop f => f.wf
  | .coreReset f => f.wf
  | .coreMemoryWrite f => f.wf
  | .coreFpStatusWrite f => f.wf
  | .mm core => decide (core < 3072)
  | .chainLoad core => decide (core < 3072)
  | .chainTransfer core => decide (core < 3072)
  | .tileClear core => decide (core < 3072)
  | .tileStore core => decide (core < 3072)
  | .tileStat core => decide (core < 3072)
  | .vadd core => decide (core < 3072)
  | .vsub core => decide (core < 3072)
  | .vmul core => decide (core < 3072)
  | .vfma core => decide (core < 3072)
  | .vmin core => decide (core < 3072)
  | .vmax core => decide (core < 3072)
  | .vminnum core => decide (core < 3072)
  | .vmaxnum core => decide (core < 3072)
  | .vneg core => decide (core < 3072)
  | .vabs core => decide (core < 3072)
  | .vcopysign core => decide (core < 3072)
  | .vcmp core => decide (core < 3072)
  | .vsel core => decide (core < 3072)
  | .vlogic core => decide (core < 3072)
  | .vlaneid core => decide (core < 3072)
  | .vcvti core => decide (core < 3072)
  | .vpack core => decide (core < 3072)
  | .vunpack core => decide (core < 3072)
  | .vquant core => decide (core < 3072)
  | .vload core => decide (core < 3072)
  | .vstore core => decide (core < 3072)
  | .vexp2 core => decide (core < 3072)
  | .vlog2 core => decide (core < 3072)
  | .vrcp core => decide (core < 3072)
  | .vrsqrt core => decide (core < 3072)
  | .vtanh core => decide (core < 3072)
  | .vreduce core => decide (core < 3072)
  | .vnormStats core => decide (core < 3072)
  | .vsoftmax core => decide (core < 3072)
  | .vlseUpdate core => decide (core < 3072)
  | .vsoftmaxApply core => decide (core < 3072)
  | .vlseFinal core => decide (core < 3072)
  | .rngCtx core => decide (core < 3072)
  | .vrand core => decide (core < 3072)
  | .vdropout core => decide (core < 3072)
  | .rngSeedWrite f => f.wf
  | .queueCreate f => f.wf
  | .queueClose f => f.wf
  | .queueReopen f => f.wf
  | .queueDelete f => f.wf
  | .endpointTableWrite f => f.wf
  | .send core => decide (core < 3072)
  | .recv core => decide (core < 3072)
  | .contribute core => decide (core < 3072)
  | .probe core => decide (core < 3072)
  | .messageAccept _ _ => true
  | .generationNotice _ _ _ => true
  | .chWaitTimeout core => decide (core < 3072)
  | .arm f => f.wf
  | .run f => f.wf
  | .stageStop f => f.wf
  | .disarm f => f.wf
  | .pacerDecide slot => decide (slot < 16)
  | .workItemComplete slot => decide (slot < 16)
  | .stageDeadline slot => decide (slot < 16)
  | .relayOpen f => f.wf
  | .relayClose f => f.wf
  | .relayOpenRequest source remoteLink link _ _ => decide (source < 16384) && decide (remoteLink < 32) && decide (link < 32)
  | .laneOpen f => f.wf
  | .laneClose f => f.wf
  | .laneReopen f => f.wf
  | .laneDelete f => f.wf
  | .lanePeerOpen lane _ _ _ _ _ => decide (lane < 64)
  | .laneSend slot _ => decide (slot < 16)
  | .batonReceive lane _ _ => decide (lane < 64)
  | .allocMap f => f.wf
  | .allocUnmap f => f.wf
  | .optimizerLayerUpdate slot layer => decide (slot < 16) && decide (layer < 128)
  | .vsFetch f => f.wf
  | .vsFetchDone slot _ => decide (slot < 16)
  | .readyToken m => m.wf
  | .fail m => m.wf
  | .commit m => m.wf
  | .abort m => m.wf
  | .query m => m.wf
  | .resumeMessage m => m.wf
  | .resume f => f.wf
  | .resolveCommit f => f.wf
  | .resolveAbort f => f.wf
  | .commitParentWrite f => f.wf
  | .commitWaitTimeout => true
  | .reductionPacket channel _ => decide (channel < 32)
  | .reshard f => f.wf
  | .reshardCancel f => f.wf
  | .epochRefusal channel => decide (channel < 32)
  | .activate f => f.wf
  | .deactivate f => f.wf
  | .rcHopTimeout channel => decide (channel < 32)
  | .declare f => f.wf
  | .retract f => f.wf
  | .ringBlock slot _ => decide (slot < 16)
  | .ringWaitTimeout core => decide (core < 3072)
  | .dataStart f => f.wf
  | .dataStop f => f.wf
  | .clearClips f => f.wf
  | .decodeSlot => true
  | .ingestFrame port _ => decide (port < 2)
  | .rdmaTimeout port qp => decide (port < 2) && decide (qp < 64)
  | .slotDecoded _ _ => true
  | .slotTransfer _ _ => true
  | .clipNotice _ _ _ => true
  | .cursorMessage _ _ => true
  | .lightDetect port => decide (port < 6)
  | .hello port r => decide (port < 6) && r.wf
  | .beaconSend port => decide (port < 6)
  | .trainStepTimeout port => decide (port < 6) || decide (port = 8)
  | .identity port r => decide (port < 6) && r.wf
  | .identityUpdate port r => decide (port < 6) && r.wf
  | .lightLoss port _ => decide (port < 6)
  | .helloTimeout port => decide (port < 6)
  | .holdExpiry port => decide (port < 6)
  | .portEnable f => f.wf
  | .portDisable f => f.wf
  | .portRetrain f => f.wf
  | .clearHold f => f.wf
  | .flit port _ => decide (port < 6)
  | .nak port seq => decide (port < 6) && decide (seq < 65536)
  | .keepalive partner => decide (partner < 16384)
  | .remotePartnerTimeout partner => decide (partner < 16384)
  | .packet port vc p => decide (port < 6 ∧ p.cls ≤ 4 ∧ vc < if p.cls = 4 then 3 else 2)
  | .lineNotice port dim link _ _ => decide (port < 6) && decide (dim < 3) && decide (link < 32)
  | .unreachableNotice _ _ => true
  | .flowReset source cls => decide (source < 16384) && decide (cls < 8)
  | .routeRejoin dim link => decide (dim < 3) && decide (link < 32)
  | .ptpMessage port _ => decide (port < 6) || decide (port = 9)
  | .ptpSend port => decide (port < 6)
  | .timeSet f => f.wf
  | .hostLinkReset _ => true
  | .slRetrain f => f.wf
  | .claim link _ _ mask _ => decide (link < 10) && decide (mask < 256)
  | .dieTrainTimeout link => decide (link < 10)
  | .dieTrainRetry link => decide (link < 10)
  | .scarfFlit link _ => decide (link < 10)
  | .dieRead die _ => decide (die < 5)
  | .dieWrite die _ _ => decide (die < 5)
  | .readData die _ => decide (die < 5)
  | .invalidate die _ => decide (die < 4)
  | .invAck die _ => decide (die < 4)
  | .writeAck die _ => decide (die < 5)
  | .intMessage die index sub => decide (die < 4) && decide (index < 65536) && decide (sub < 256)
  | .rlcEnableWrite f => f.wf
  | .scrubRead stack _ => decide (stack < 12)
  | .recomputeRun core _ => decide (core < 3072)
  | .recomputeForce core _ => decide (core < 3072)
  | .implicationExpiry _ => true
  | .drain f => f.wf
  | .undrain f => f.wf
  | .bentTimeout bent _ => decide (bent < 48)
  | .dieTimeout die _ => decide (die < 4)
  | .packageTimeout => true
  | .faultReport f => f.wf
  | .reportSend _ _ _ => true
  | .pwrEnHigh => true
  | .pwrEnLow => true
  | .rstNLow => true
  | .rstNHigh => true
  | .startStepComplete _ => true
  | .falseStart => true
  | .restart f => f.wf
  | .clearFalseStarts f => f.wf
  | .domainEnable f => f.wf
  | .domainDisable f => f.wf
  | .powerUpComplete domain => decide (domain < 80)
  | .powerDownComplete domain => decide (domain < 80)
  | .powerUpTimeout domain => decide (domain < 80)
  | .dieReset f => f.wf
  | .eraseA f => f.wf
  | .eraseB f => f.wf
  | .verifyA f => f.wf
  | .verifyB f => f.wf
  | .bootImageWrite f => f.wf
  | .inputInRange => true
  | .inputOutOfRange => true
  | .thermalTrip sensor _ => decide (sensor < 17)
  | .tripRelease => true
  | .governorStep _ => true
  | .counterFreeze f => f.wf
  | .counterPreset f => f.wf
  | .overflowClear f => f.wf
  | .counterSelect f => f.wf
  | .counterWrap level unit ctr =>
    decide (level = 0 ∧ unit < 3072 ∧ ctr < 4) || decide (level = 1 ∧ unit < 48 ∧ ctr < 8) || decide (level = 2 ∧ unit = 0 ∧ ctr < 32)
  | .tagSeed f => f.wf
  | .requestDeferred session seq => decide (session < 65536) && decide (seq < 65536)
  | .relayRemoteClose link => decide (link < 32)
  | .rateRecovery port qp => decide (port < 2) && decide (qp < 64)
  | .torusTrainingStepDone port _ _ => decide (port < 6) || decide (port = 8)
  | .dieLinkTestDone link _ mask _ => decide (link < 10) && decide (mask < 256)
  | .hostLinkUp h => decide (h.config.table.length ≤ 64) && decide (128 ≤ h.config.maxPayload) && decide (h.config.maxPayload ≤ 512)
      && decide (h.config.maxRead ≤ 4096)
  | .holdBaseRestore port => decide (port < 6)
  | .glitchFiltered pin => decide (pin < 4)
  | .bootSelAccepted pin _ => decide (pin = 2) || decide (pin = 3)
  | .pwrEnRejected => true
  | .railsOutOfRegulation => true
  | .ingestLinkChange port _ => decide (port < 2)
  | .tallyLinkChange _ => true

end Sys2Proof
end

