-- ==== Sys2Proof/Certificates/Slice0/Obligations.lean ====
section
/-! DEFINITION. The statements for the provers. Each says, for the commands it names, under which conditions on the state and the operands
the command completes, and gives the whole next state: `seen s u` is the state a command leaves that took `s` to `u`, and what `u` does not
change stays as it was; `settle` carries on what waited for it. -/

open Sys2Proof Sys2Proof.Machine

/-! ### The block -/

/-- A step takes the command at the front of the queue and runs it on the state with the queue's rest (the model's form of a block; log 2). -/
def Obligations.StepRunsFrontCommand : Prop :=
  ∀ (c : Instr) (r : List Instr) (s : State), step { s with pending := c :: r } = exec c { s with pending := r }

/-- On an empty queue one microsecond of the reference clock passes and no command runs (log 2, the model's choice). -/
def Obligations.IdleStepPassesOneMicrosecond : Prop :=
  ∀ s : State, s.pending = [] → ∃ t, step s = .next t ∧ t.now = s.now + 1 ∧ t.pending = []

/-- Every command that can reach the block answers a next state, in every state; none is refused (R14, R36, Table 3.5). A command never runs on a
unit the package does not have: a core above 3,071 stops every descriptor row (R14; log 11). -/
def Obligations.OnlyMissingUnitsStopACommand : Prop :=
  (∀ (i : Instr) (s : State), i.wellFormed = true → ∃ t, exec i s = .next t)
  ∧ ∀ (s : State) (c : Nat) (reads : List BlockRead), 3072 ≤ c →
    ∀ i ∈ [Instr.nop c, .halt c, .wait c, .signal c, .fence c, .loop c, .branchFlag c, .branchX c, .xop c, .mm c, .tileClear c, .tileStore c,
           .moveLocal c, .moveBent c, .movePeer c, .moveTensor c reads, .vadd c, .vload c, .vsoftmax c, .send c, .recv c, .contribute c, .probe c],
      exec i s = .fault .noSuchUnit

/-! ### Whole-machine rules -/

/-- The second sentence of R446, for every step: no step, of any command or of the idle block, leaves a running package DRAINED with an excluded
die; and what would be such a state is seen in Walk mode, with the reason 0x0A. -/
def Obligations.WalkFollowsDrainAfterDieLoss : Prop :=
  KeptByStep WalksWhenDrained
  ∧ ∀ s u : State, u.start.phase = .ready → u.rd O.drainState = 2 → (∃ d, d < 4 ∧ u.rd (O.dieState d) = 2) →
      (seen s u).start.phase = .walk ∧ (seen s u).rd O.walkReason = 0x0A

/-- The invariant of `WalkFollowsDrainAfterDieLoss` holds at reset. -/
def Obligations.WalkRuleHoldsAtReset : Prop := WalksWhenDrained State.reset

/-- R62: after every command, each subscription whose object now reads otherwise than before is marked for an event. -/
def Obligations.EveryChangeMarksItsSubscriptions : Prop :=
  ∀ (i : Instr) (s t : State), exec i s = .next t →
    ∀ e ∈ t.mgmt.sessions, ∀ b ∈ e.subs, objSame s t b.key = false → b.dirty = true

/-- What follows a command and concerns neither a partner nor a subscriber leaves every unit as the command left it: a frame for every
statement below. -/
def Obligations.SeenLeavesTheUnits : Prop :=
  ∀ s u : State, u.rd O.drainState ≠ 2 →
    let t := seen s u
    t.pending = u.pending ∧ t.now = u.now ∧ t.fuses = u.fuses ∧ t.doms = u.doms ∧ t.start = u.start ∧ t.node = u.node ∧ t.cores = u.cores
      ∧ t.bents = u.bents ∧ t.queues = u.queues ∧ t.flights = u.flights ∧ t.frames = u.frames ∧ t.pages = u.pages ∧ t.slots = u.slots
      ∧ t.lanes = u.lanes ∧ t.asks = u.asks ∧ t.commit = u.commit ∧ t.buckets = u.buckets ∧ t.chans = u.chans ∧ t.faults = u.faults
      ∧ t.data = u.data ∧ t.dies = u.dies ∧ t.mgmt.outstanding = u.mgmt.outstanding
      ∧ t.mgmt.sessions.map Session.id = u.mgmt.sessions.map Session.id

/-- Where nothing waits, carrying on changes nothing: a frame for every statement below whose next state settles. -/
def Obligations.QuietStateIsSettled : Prop := ∀ s : State, s.quiet = true → s.settle = s

/-- What issue leaves unchanged (R98, R99, R116): every other core, memory, queues, tensor memory and, of its own core, the registers, the
tiles, the status flags and core memory; one descriptor more is in flight. -/
def Obligations.IssueKeepsEverythingElse : Prop :=
  ∀ (s : State) (c op next : Nat), (s.core c).runs = true →
    let t := issued s c op next
    let k := s.core c
    let n := t.core c
    (∀ c', c' ≠ c → t.core c' = s.core c') ∧ t.bents = s.bents ∧ t.queues = s.queues ∧ t.flights = s.flights ∧ t.frames = s.frames
      ∧ t.pages = s.pages ∧ t.slots = s.slots ∧ t.doms = s.doms ∧ t.start = s.start ∧ t.mgmt = s.mgmt ∧ t.out = s.out
      ∧ t.commit = s.commit ∧ t.torus = s.torus ∧ t.data = s.data ∧ t.dies = s.dies ∧ t.faults = s.faults ∧ t.pending = s.pending
      ∧ n.dptr = next ∧ n.state = .running ∧ n.x = k.x ∧ n.v = k.v ∧ n.mem = k.mem ∧ n.tiles = k.tiles ∧ n.fp = k.fp ∧ n.chain = k.chain
      ∧ n.rng = k.rng ∧ n.ends = k.ends ∧ n.fault = k.fault ∧ n.retired = k.retired ∧ n.lost = k.lost ∧ n.haltCode = k.haltCode
      ∧ n.inflight.length = k.inflight.length + 1

/-! ### Reading and writing objects (chapter 03) -/

/-- R51, R58: READ answers with the value of the object, READ_DOMAIN with its bytes of one instant, in segments; the session and the counts of
frames aside nothing changes. -/
def Obligations.ReadsAnswerWithTheContent : Prop :=
  (∀ (s : State) (f : Frame) (r : ObjRow), f.index < 0xF000 → f.sub ≠ 0 → rowOf f.key = some r →
    (asks s f cmdRead = true → checkRead (inSession s f) (levelOf s f) f.key = stOk →
      let u := answered f (inSession s f) stOk
        (if r.type = .vstr then (inSession s f).readText f.key else (inSession s f).readValue f.key r.type.size)
      exec (.read f) s = .next (seen s u)
      ∧ u.queues = s.queues ∧ u.flights = s.flights ∧ u.lanes = s.lanes ∧ u.bents = s.bents)
    ∧ (arrives s f cmdRead = true → f.session = 0 → openFull s f = false → checkRead (received s f) 0 f.key = stOk →
      let u := (received s f).respond f 0 stOk
        (if r.type = .vstr then (received s f).readText f.key else (received s f).readValue f.key r.type.size)
      exec (.read f) s = .next (seen s u)
      ∧ u.queues = s.queues ∧ u.flights = s.flights ∧ u.lanes = s.lanes ∧ u.bents = s.bents))
  ∧ (∀ (s : State) (f : Frame), asks s f cmdReadDomain = true → f.body.length = 4 → 1 ≤ valueOf f → valueOf f ≤ 65536 →
    checkDomain (inSession s f) (levelOf s f) f.key false (domSize f.key) (f.offset + valueOf f) = stOk →
    let u := answer f true (.segs (inSession s f) f.offset ((inSession s f).readDom f.key f.offset (valueOf f)))
    exec (.readDomain f) s = .next (seen s u)
    ∧ u.queues = s.queues ∧ u.flights = s.flights ∧ u.lanes = s.lanes ∧ u.bents = s.bents)

/-- WRITE applies the object's own rule (R51); where it has none, the value is stored and nothing else changes. In Walk mode every readable object
stays readable, and a write to an object that is not a recovery object is answered WALK (R50). -/
def Obligations.WriteAppliesTheObjectsRule : Prop :=
  (∀ (s : State) (f : Frame), writes s f = true →
    exec (.write f) s
        = .next (seen s (s.afterWrite f (answer f true (anyEffect (inSession s f) f f.key (valueOf f)))).settle)
    ∧ (f.index ∈ [0x1200, 0x1202, 0x1204, 0x1302, 0x1400, 0x2032, 0x9020] → s.quiet = true → f.sub < 256 →
        s.start.phase ≠ .restarting →
        exec (.write f) s = .next (seen s (writeDone f ((inSession s f).wr f.key (valueOf f))))))
  ∧ (∀ (s : State) (f : Frame), asks s f cmdWrite = true → s.walk = true → levelOf s f < 2 → (rowOf f.key).isSome = true →
    keyIndex f.key < 0xF000 → isRecovery f.key = false →
    exec (.write f) s = .next (seen s (s.afterWrite f (answered f (inSession s f) stWalk [])).settle))
  ∧ (∀ (s : State) (level k size stop : Nat),
    let w : State := { s with start := { s.start with phase := .walk } }
    checkRead w level k = checkRead s level k ∧ checkDomain w level k false size stop = checkDomain s level k false size stop
    ∧ (level < 2 → (rowOf k).isSome = true → keyIndex k < 0xF000 → isRecovery k = false → checkDomain w level k true size stop = stWalk))

/-- WRITE_DOMAIN (R59): a whole transfer is applied as one write by the rule of its object, which stores its bytes where it has no rule of its
own; a first frame that is not the last is kept and nothing is answered; an incomplete transfer ends with STATE after 100 ms. -/
def Obligations.WriteDomainAppliesWholeTransfers : Prop :=
  (∀ (s : State) (f : Frame), writesWhole s f = true →
    exec (.writeDomain f) s = .next (seen s (answer f true (anyDomainEffect (inSession s f) f.key f.offset f.body)).settle)
    ∧ (0x5000 ≤ keyIndex f.key → keyIndex f.key < 0x6000 →
        exec (.writeDomain f) s = .next (seen s (writeDone f (storeBytes (inSession s f) f.key f.offset f.body)).settle)))
  ∧ (∀ (s : State) (f : Frame), asks s f cmdWriteDomain = true → f.isLast = false →
      s.mgmt.transfers.all (fun x => !(decide (x.session = f.session) && decide (x.seq = f.seq))) = true →
      exec (.writeDomain f) s = .next (seen s ((
        let t := inSession s f
        let x : Transfer := { session := f.session, seq := f.seq, carrier := f.carrier, source := f.source, station := f.ether.src,
                              flags := f.flags, key := f.key, began := s.now, parts := [(f.offset, f.body)], stop := none }
        { t with mgmt := { t.mgmt with transfers := s.mgmt.transfers ++ [x] } } : State).settle)))
  ∧ (∀ (s : State) (x : Transfer), s.mgmt.transfers.find? (fun y => decide (y.session = x.session) && decide (y.seq = x.seq)) = some x →
      x.began + 100000 ≤ s.now →
      exec (.writeDomainTimeout x.session x.seq) s = .next (seen s (
        let t : State := { s with mgmt := { s.mgmt with transfers := s.mgmt.transfers.erase x } }
        let o : Outstanding := ⟨x.session, x.seq, cmdWriteDomain, x.key, x.source, x.flags, x.carrier, x.station, x.began, false, .prisum stState⟩
        (t.send x.carrier x.source (completionFrame t o 2 stState [])).remember x.session x.seq stState)))

/-- R57: OPEN_SESSION grants a new id at the lower of what is asked and what the carrier allows; CLOSE_SESSION and SESSION_IDLE_LIMIT close
the session with its subscriptions and transfers. -/
def Obligations.SessionsOpenAndClose : Prop :=
  (∀ (s : State) (f : Frame), arrives s f cmdOpenSession = true → f.session = 0 → f.body.length = 1 → valueOf f ≤ 2 →
    openFull s f = false → s.mgmt.sessions.length < 64 →
    exec (.openSession f) s = .next (seen s (
      let r := received s f
      let t : State := { r with fresh := r.fresh + 1 }
      let id := freeSessionId t (Config.freeNat r.fresh) 65
      let level := min (min (valueOf f) 1) (carrierLimit r f.carrier)
      let e : Session := { id := id, level := level, carrier := f.carrier, proxied := f.isProxied, source := f.source,
                           station := f.ether.src, lastFrame := s.now, remembered := [], subs := [], queue := [], count := 0, overflow := false }
      ({ t with mgmt := { t.mgmt with sessions := t.mgmt.sessions ++ [e] } } : State).respond f id stOk (natLe 1 level))))
  ∧ (∀ (s : State) (f : Frame), asks s f cmdCloseSession = true →
      exec (.closeSession f) s = .next (seen s (answered f ((inSession s f).closeSession f.session) stOk [])))
  ∧ (∀ (s : State) (id : Nat) (e : Session), s.session? id = some e → e.lastFrame + s.rd O.sessionIdleLimit * 1000000 ≤ s.now →
      exec (.sessionIdleTimeout id) s = .next (seen s (s.closeSession id)))

/-- R62: SUBSCRIBE adds and UNSUBSCRIBE removes a subscription; EVENT_SEND sends the value of a changed object at most once a millisecond and
not before the response of a write of the same session, on the Tally port or the torus at once, on the host window through the queue of 64, which
drops and counts what it cannot hold. -/
def Obligations.SubscriptionsAndEvents : Prop :=
  (∀ (s : State) (f : Frame) (e : Session), asks s f cmdSubscribe = true → s.session? f.session = some e →
    checkRead (inSession s f) (levelOf s f) f.key ∈ [stOk, stType] → (∀ b ∈ e.subs, b.key ≠ f.key) → e.subs.length < 256 →
    exec (.subscribe f) s = .next (seen s (answered f
      ((inSession s f).modSession f.session (fun x => { x with subs := x.subs ++ [⟨f.key, false, none⟩] })) stOk [])))
  ∧ (∀ (s : State) (f : Frame), asks s f cmdUnsubscribe = true → checkRead (inSession s f) (levelOf s f) f.key ∈ [stOk, stType] →
    exec (.unsubscribe f) s = .next (seen s (answered f
      ((inSession s f).modSession f.session (fun x => { x with subs := x.subs.filter (fun b => decide (b.key ≠ f.key)) })) stOk [])))
  ∧ (∀ (s : State) (id index sub : Nat) (e : Session) (b : Sub), s.session? id = some e →
      e.subs.find? (fun b => decide (b.key = index * 256 + sub)) = some b → b.dirty = true →
      (∀ t, b.lastSent = some t → t + 1000 ≤ s.now) → s.served = true → s.writeUnanswered id = false →
      let k := index * 256 + sub
      let sent := e.subs.map (fun x => if x.key = k then { x with dirty := false, lastSent := some s.now } else x)
      (e.carrier ≠ .host →
        exec (.eventSend id index sub) s = .next (seen s
          ((s.modSession id (fun x => { x with subs := sent, count := x.count + 1 })).send e.carrier e.source (eventFrame s e k))))
      ∧ (e.carrier = .host → 64 ≤ e.queue.length →
        exec (.eventSend id index sub) s = .next (seen s
          ((s.modSession id (fun x => { x with subs := sent, count := x.count + 1, overflow := true })).add O.eventsDropped 1)))
      ∧ (e.carrier = .host → e.queue.length < 64 →
        exec (.eventSend id index sub) s = .next (seen s (State.refillEvents
          (s.modSession id (fun x => { x with subs := sent, count := x.count + 1, queue := x.queue ++ [eventFrame s e k] })) 1))))

/-- R64: an accepted SERVICE_WRITE advances SERVICE_NONCE and applies its value at level SERVICE by the rule of its target; into
0xF000-0xFFFF its status is an open value (R46, log 34, the model's choice); one that meets not every condition is answered LEVEL and counted;
the lockout ends after its 60 s. -/
def Obligations.ServiceWritesAndLockout : Prop :=
  (∀ (s : State) (f : Frame), asks s f cmdServiceWrite = true → f.carrier ≠ .torus →
    (∀ u, s.mgmt.lockedUntil = some u → u ≤ s.now) → 16 ≤ f.body.length → 1 ≤ serviceLength f.body → serviceLength f.body ≤ 896 →
    f.body.length = 16 + serviceLength f.body + 64 → (inSession s f).serviceAccepts f = true →
    let t := (inSession s f).wr O.serviceNonce (byteField f.body 0 8)
    let v := (f.body.drop 16).take (serviceLength f.body)
    (f.index < 0xF000 → checkWrite t 2 f.key v.length (leNat v) = stOk →
      exec (.serviceWrite f) s = .next (seen s (s.afterWrite f (answer f true (anyEffect t f f.key (leNat v)))).settle))
    ∧ (0xF000 ≤ f.index → exec (.serviceWrite f) s = .next (seen s (s.afterWrite f
        (answered f { t with fresh := t.fresh + 1 } (Config.freeNat t.fresh % 256) [])).settle)))
  ∧ (∀ (s : State) (f : Frame), asks s f cmdServiceWrite = true → f.carrier ≠ .torus →
    (∀ u, s.mgmt.lockedUntil = some u → u ≤ s.now) → (inSession s f).serviceAccepts f = false →
    exec (.serviceWrite f) s = .next (seen s (s.afterWrite f (answered f (inSession s f).serviceFails stLevel [])).settle))
  ∧ (∀ (s : State) (u : Nat), s.mgmt.lockedUntil = some u → u ≤ s.now →
      exec .serviceLockoutEnd s = .next (seen s { s with mgmt := { s.mgmt with lockedUntil := none, failures := [] } }))

/-- R55, R56, R60: the host window's slots, the way back of a proxied response and the DEFERRED of a request that is not complete 10 ms after it
was taken. -/
def Obligations.HostWindowAndProxy : Prop :=
  (∀ (s : State) (f : Frame) (mask : Nat), s.hostReaches = true → f.carrier = .host → f.slot < 16 → mask.testBit f.slot = true →
    (∀ p ∈ s.mgmt.requests, p.1 ≠ f.slot) →
    exec (.reqPost [f] mask) s = .next (seen s { s with mgmt := { s.mgmt with requests := s.mgmt.requests ++ [(f.slot, f)] } }))
  ∧ (∀ (s : State) (mask : Nat), s.hostReaches = true →
    exec (.rspTake mask) s = .next (seen s (State.refillResponses
      { s with mgmt := { s.mgmt with responses := s.mgmt.responses.filter (fun p => !mask.testBit p.1) } } s.mgmt.held.length))
    ∧ exec (.evtTake mask) s = .next (seen s (State.refillEvents
      { s with mgmt := { s.mgmt with events := s.mgmt.events.filter (fun p => !mask.testBit p.1) } } 16)))
  ∧ (∀ (s : State) (f : Frame) (p : Proxy), s.start.phase = .ready → f.carrier = .torus → f.intact = true → f.version = 1 → f.kind = 2 →
    f.status ≠ stDeferred → f.command ≠ cmdOpenSession →
    s.mgmt.proxies.find? (fun p => decide (p.seq = f.seq) && decide (p.dest = f.source) && decide (p.session = f.session)) = some p →
    exec (.proxyResponse f) s = .next (seen s (
      let t := (s.trace f).add O.framesReceived 1
      ({ t with mgmt := { t.mgmt with proxies := t.mgmt.proxies.erase p } } : State).send p.carrier p.source
        (Frame.seal { f with carrier := p.carrier, dest := p.source, ether := { Ether.none with src := p.station } }))))
  ∧ (∀ (s : State) (o : Outstanding),
      s.mgmt.outstanding.find? (fun x => decide (x.session = o.session) && decide (x.seq = o.seq) && !x.deferred) = some o →
      o.taken + 10000 ≤ s.now →
      exec (.requestDeferred o.session o.seq) s = .next (seen s (
        let t : State := { s with mgmt := { s.mgmt with
          outstanding := s.mgmt.outstanding.map (fun x => if x = o then { x with deferred := true } else x) } }
        t.send o.carrier o.source (completionFrame t o 2 stDeferred []))))

/-- Writes that only mark or store: RESTORE_STORED (R53), a counter cleared by 0 (R144), KPC_VALUE and the select objects (R464, R465),
COUNTER_FREEZE (R465), an overflow bit cleared by 1 (R464), TAG_SEED (R469). COUNTER_USER_READ opens the counters and tag objects to reads at
USER, and writes to the objects of the chapter ask for OPERATOR (R467). -/
def Obligations.MarkingAndCounterWrites : Prop :=
  (∀ (s : State) (k len v size stop : Nat) (r : ObjRow), rowOf k = some r → keySub k ≠ 0 →
    (0xA010 ≤ keyIndex k → keyIndex k < 0xA440 →
      (s.rd O.counterUserRead = 1 → checkRead s 0 k = checkRead s 1 k ∧ checkDomain s 0 k false size stop = checkDomain s 1 k false size stop)
      ∧ (s.rd O.counterUserRead = 0 → checkRead s 0 k = stLevel ∧ checkDomain s 0 k false size stop = stLevel))
    ∧ (0xA000 ≤ keyIndex k → keyIndex k < 0xB000 → s.walk = false →
      checkWrite s 0 k len v = stLevel ∧ checkDomain s 0 k true size stop = stLevel))
  ∧ ∀ (s : State) (f : Frame), writes s f = true →
    let t := inSession s f
    let v := valueOf f
    (f.key = O.restoreStored →
      exec (.restoreStored f) s = .next (seen s (writeDone f { t with mgmt := { t.mgmt with restoreMark := decide (v = 1) } })))
    ∧ (keyIsCounter f.key = true → exec (.counterClear f) s = .next (seen s (writeDone f (t.wr f.key v))))
    ∧ (f.key = O.counterFreeze → exec (.counterFreeze f) s = .next (seen s (writeDone f (t.wr f.key v))))
    ∧ (isCounterPart 1 f.key = true → exec (.counterPreset f) s = .next (seen s (writeDone f (t.wr f.key v))))
    ∧ (isCounterPart 0 f.key = true → exec (.counterSelect f) s = .next (seen s (writeDone f (t.wr f.key v))))
    ∧ (isCounterPart 2 f.key = true → (counterPart f.key = some (0, 2) → v < 16) →
        exec (.overflowClear f) s = .next (seen s (writeDone f (t.wr f.key (t.rd f.key - (t.rd f.key &&& v))))))
    ∧ (f.key = O.tagSeed →
        exec (.tagSeed f) s = .next (seen s (writeDone f (State.each (fun (t : State) (b : Nat) =>
          if t.bentOn b then
            State.each (fun (t : State) (c : Nat) => t.modCore c (fun x => { x with tagState := tagInit v c })) t (natsFrom (64 * b) 64)
          else t) (t.wr f.key v) (natsFrom 0 48)))))

/-- R464: "Passing 2^48 − 1 sets its sticky overflow bit." A counter that wraps reads 0 and its overflow bit is set; a frozen one, one with no
event and one of an unpowered Bent stay as they are. -/
def Obligations.CounterWrapSetsItsOverflowBit : Prop :=
  ∀ (s : State) (level unit ctr value overflow select : Nat), counterKeys level unit ctr = some (value, overflow, select) →
    (s.rd O.counterFreeze ≠ 1 → s.rd select % 256 ≠ 0 → s.served = true → (∀ b, counterBent value = some b → s.bentOn b = true) →
      exec (.counterWrap level unit ctr) s = .next (seen s ((s.wr value 0).wr overflow (s.rd overflow ||| 2 ^ ctr))))
    ∧ (s.rd O.counterFreeze = 1 ∨ s.rd select % 256 = 0 → exec (.counterWrap level unit ctr) s = .next (seen s s))

/-! ### Cores (chapter 05) -/

/-- R114: CORE_CONTROL START sets DPTR to CORE_ENTRY, X0 to the core id, X1 to the logical Bent and X2 to X15 to zero, and makes the core
RUNNING; STOP stops issue; RESET makes it IDLE with its registers, flags and tiles cleared. -/
def Obligations.CoreControlCommands : Prop :=
  ∀ (s : State) (f : Frame), writes s f = true → isBentObj 0x01 f.key = true →
    let t := inSession s f
    let c := keyCore f.key
    let k := s.core c
    t.paced c = false →
    (valueOf f = 1 → (k.state = .idle ∨ k.state = .halted) → t.rd (O.coreEntry (c / 64) (c % 64)) % 64 = 0 →
        t.rd (O.coreEntry (c / 64) (c % 64)) < 0x80000 →
        let x := ((Map.empty : Map W64).set 0#64 0 (BitVec.ofNat 64 c)).set 0#64 1 (BitVec.ofNat 64 (c / 64))
        exec (.coreStart f) s = .next (seen s (writeDone f ((t.setCore c { k with
          state := .running, dptr := t.rd (O.coreEntry (c / 64) (c % 64)), x := x, waitDue := none, pending := none }).readerStarts c))))
    ∧ (valueOf f = 2 → k.runs = true → k.inflight ≠ [] →
        exec (.coreStop f) s = .next (seen s (writeDone f ((t.setCore c { k with state := .stopping, waitDue := none }).settle))))
    ∧ (valueOf f = 2 → k.runs = true → k.inflight = [] → k.pending = none →
        exec (.coreStop f) s = .next (seen s (writeDone f
          (((t.setCore c { k with state := .stopping, waitDue := none }).enterHalted c 0xFF).settle))))
    ∧ (valueOf f = 3 → k.state ≠ .off →
        exec (.coreReset f) s = .next (seen s (writeDone f (
          let u := (t.abandonFrom c 0 true false).abandonSample c
          ((u.modCore c (fun n => { n with
            state := .idle, fault := 0, x := Map.empty, flags := 0, v := Map.empty, fp := 0, tiles := Map.empty, chain := none,
            rng := ⟨0, 0, 0, 0, 0⟩, inflight := [], pending := none, waitDue := none, retired := 0 })).readerResets c).settle))))

/-- R113, R118, R168: a program is loaded into core memory while the core does not run; each bit written 1 to CORE_FP_STATUS clears its flag;
RNG_SEED is set while no core of its Bent runs and no job is declared. -/
def Obligations.CoreMemoryStatusAndSeedWrites : Prop :=
  (∀ (s : State) (f : Frame), writesWhole s f = true → isBentObj 0x0A f.key = true →
    let c := keyCore f.key
    let k := s.core c
    k.active = false → k.state ≠ .off →
    exec (.coreMemoryWrite f) s
      = .next (seen s (writeDone f ((inSession s f).setCore c { k with mem := k.mem.setBytes 0#8 f.offset f.body }))))
  ∧ (∀ (s : State) (f : Frame), writes s f = true →
      let t := inSession s f
      let c := keyCore f.key
      let k := s.core c
      (isBentObj 0x07 f.key = true → k.state ≠ .off → valueOf f < 32 →
        exec (.coreFpStatusWrite f) s = .next (seen s (writeDone f (t.setCore c { k with fp := k.fp &&& (31 - valueOf f) }))))
      ∧ (isBentObj 0x1D f.key = true → keySub f.key = 1 → t.rd O.jobState ≠ 1 →
          (∀ c ∈ natsFrom (64 * keyBent f.key) 64, (s.core c).active = false) →
          exec (.rngSeedWrite f) s = .next (seen s (writeDone f (t.wr f.key (valueOf f))))))

/-- The control descriptors that do not jump (R103, R105, Table 5.5): NOP, WAIT whose condition holds, FENCE with nothing before it, and XOP, which
writes its X register with the result of its operation, go on at the next descriptor; SIGNAL clears and sets flags of its own core, or sets flags
of a peer that runs, waits or stops, and a set toward any other peer is lost and counted; HALT retires at once and leaves the core HALTED. -/
def Obligations.ControlDescriptorsWithoutJump : Prop :=
  (∀ (s : State) (c : Nat),
    let k := s.core c
    let d := nextDesc s c
    let p := fun (bad : Bool) (xs : List Nat) => (⟨bad, xs, [], 0, (k.dptr : Int) + 64⟩ : Plan)
    (issues s c 0x00 (p (!zeroBytes d 8 64) []) = true →
      exec (.nop c) s = .next (seen s (issued s c 0x00 (k.dptr + 64)).settle))
    ∧ (issues s c 0x02 (p (decide (1 < byteField d 8 1) || decide (dWait d = 0) || !zeroBytes d 9 64) []) = true →
      exec (.wait c) s = .next (seen s (issued s c 0x02 (k.dptr + 64)).settle))
    ∧ (issues s c 0x04 (p (decide (2 < byteField d 8 1) || !zeroBytes d 9 64) []) = true →
      exec (.fence c) s = .next (seen s (issued s c 0x04 (k.dptr + 64)).settle))
    ∧ (issues s c 0x08 (p (!selOk (byteField d 8 1) || !selUse (byteField d 8 1) || !selOk (byteField d 9 1) || !selOk (byteField d 10 1)
        || decide (0x0D < byteField d 11 1) || !zeroBytes d 12 16 || !zeroBytes d 24 64) (selXs d [8, 9, 10])) = true →
      exec (.xop c) s = .next (seen s ((issued s c 0x08 (k.dptr + 64)).modCore c (fun n => n.setX (selReg (byteField d 8 1))
        (xopValue (byteField d 11 1) (BitVec.ofNat 64 (selVal k.x (byteField d 9 1))) (termB k.x 10 d)))).settle)))
  ∧ (∀ (s : State) (c : Nat),
    let k := s.core c
    let d := nextDesc s c
    let p := fun (bad : Bool) => (⟨bad, [], [], 0, (k.dptr : Int) + 64⟩ : Plan)
    let t := fun (op : Nat) => issued s c op (k.dptr + 64)
    (issues s c 0x03 (p (sigInvalid c d)) = true →
      (sigTarget c d = c → exec (.signal c) s = .next (seen s
        ((((t 0x03).modCore c (fun n => n.clearFlags (byteField d 10 2))).setFlags c (byteField d 8 2)).settle)))
      ∧ (sigTarget c d ≠ c → (s.core (sigTarget c d)).active = true →
          exec (.signal c) s = .next (seen s (((t 0x03).setFlags (sigTarget c d) (byteField d 8 2)).settle)))
      ∧ (sigTarget c d ≠ c → (s.core (sigTarget c d)).active = false →
          exec (.signal c) s = .next (seen s
            (((t 0x03).modCore (sigTarget c d) (fun n => { n with lost := n.lost + 1 })).settle))))
    ∧ (issues s c 0x01 (p (!zeroBytes d 9 64)) = true →
        exec (.halt c) s = .next (seen s ((((t 0x01).retireHead c).enterHalted c (byteField d 8 1)).settle))))

/-- The jumps (R105, Table 5.5): LOOP decrements its counter and jumps while the result is not zero; BRANCH_FLAG and BRANCH_X jump when their
condition holds and fall through otherwise; BRANCH_FLAG clears the flags it tested when it consumes them. A jump is counted as event 0x09. -/
def Obligations.JumpDescriptors : Prop :=
  ∀ (s : State) (c : Nat),
    let k := s.core c
    let d := nextDesc s c
    let target := fun (jump : Bool) => if jump then jumpTo k.dptr d else (k.dptr : Int) + 64
    let gone := fun (op : Nat) (jump : Bool) =>
      if jump then (issued s c op (target jump).toNat).pc c 0x09 1 else issued s c op (target jump).toNat
    (issues s c 0x05 ⟨!selOk (byteField d 8 1) || !selUse (byteField d 8 1) || !zeroBytes d 9 12 || !zeroBytes d 16 64,
        [selReg (byteField d 8 1)], [], 0, target (decide (loopValue k d ≠ 0#64))⟩ = true →
      exec (.loop c) s = .next (seen s ((gone 0x05 (decide (loopValue k d ≠ 0#64))).modCore c
        (fun n => n.setX (selReg (byteField d 8 1)) (k.xr (selReg (byteField d 8 1)) - 1#64))).settle))
    ∧ (issues s c 0x06 ⟨decide (byteField d 8 2 = 0) || decide (3 < byteField d 10 1) || decide (1 < byteField d 11 1) || !zeroBytes d 16 64,
        [], [], 0, target (flagCond k.flags d)⟩ = true →
      exec (.branchFlag c) s = .next (seen s (
        if flagCond k.flags d = true ∧ byteField d 11 1 = 1 then
          (gone 0x06 true).modCore c (fun n => n.clearFlags (k.flags &&& byteField d 8 2))
        else gone 0x06 (flagCond k.flags d)).settle))
    ∧ (issues s c 0x07 ⟨!selOk (byteField d 8 1) || !selUse (byteField d 8 1) || !selOk (byteField d 9 1) || decide (5 < byteField d 10 1)
        || !zeroBytes d 11 12 || !zeroBytes d 24 64, selXs d [8, 9], [], 0, target (xCond k d)⟩ = true →
      exec (.branchX c) s = .next (seen s (gone 0x07 (xCond k d)).settle))

/-- R98, R116: a descriptor that its row finds invalid has no effect; the core faults with INVALID_DESCRIPTOR once the descriptors before it
have retired, at once when there is none. Stated for a reserved opcode, which any descriptor row meets so. -/
def Obligations.ReservedOpcodeFaultsTheCore : Prop :=
  ∀ (s : State) (c : Nat), c < 3072 → (s.core c).runs = true → (s.core c).pending = none → (s.core c).inflight = [] →
    opReserved (dOp (nextDesc s c)) = true → (s.core c).waitMet = true →
    ∀ i ∈ [Instr.nop c, .mm c, .vadd c, .moveLocal c, .send c],
      exec i s = .next (seen s ((s.faultNext c 0x01 (nextDesc s c)).settle))

/-- R102, R112, R117, R194, R310: the head of the issued descriptors retires once its effects are complete; a core held only by its wait
condition enters WAITING, with the limit of a channel wait when an endpoint drives an awaited flag; a descriptor that has exceeded its limit
faults the core, unless it and all before it are complete, when they retire (a retirement in the same microsecond prevails); a channel wait and a
ring wait that exceed their limit fault the core. -/
def Obligations.RetirementAndCoreTimers : Prop :=
  (∀ (s : State) (c : Nat) (i : Issued) (r : List Issued), c < 3072 → (s.core c).inflight = i :: r → i.stage = .complete →
    exec (.descriptorRetire c) s = .next (seen s (s.retireHead c).settle))
  ∧ (∀ (s : State) (c : Nat) (i : Issued) (r : List Issued), c < 3072 → (s.core c).inflight = i :: r → i.stage = .complete →
    dOp i.desc < 0x70 → i.credit = [] → i.tag = none →
    exec (.descriptorRetire c) s = .next (seen s
      (((((s.modCore c (fun k => { k with inflight := r, retired := k.retired + 1 })).setFlags c (dSignal i.desc)).pc c 0x03 1).finishStop c).settle)))
  ∧ (∀ (s : State) (c : Nat), c < 3072 → (s.core c).state = .running → (s.core c).onlyWaits = true →
      exec (.coreWaiting c) s = .next (seen s (s.setCore c { s.core c with
        state := .waiting, waitDue := if (s.core c).awaited = [] then none else some (s.now + s.rd (O.chWaitLimit (c / 64))) })))
  ∧ (∀ (s : State) (c pos : Nat) (i : Issued), c < 3072 → (s.core c).inflight[pos]? = some i → i.due < s.now → i.ring = none →
      ((∃ j ∈ (s.core c).inflight.take (pos + 1), j.stage ≠ .complete) →
        exec (.watchdog c pos) s = .next (seen s
          ((((s.add (O.wdExpiries (c / 64)) 1).expiry 1 (s.suspect susCore c)).faultIssued c pos 0x06).settle)))
      ∧ ((∀ j ∈ (s.core c).inflight.take (pos + 1), j.stage = .complete) →
        exec (.watchdog c pos) s = .next (seen s (State.each (fun (t : State) (_ : Nat) => t.retireHead c) s (natsFrom 0 (pos + 1))).settle)))
  ∧ (∀ (s : State) (c due : Nat) (x : Nat × Endpoint) (r : List (Nat × Endpoint)), c < 3072 → (s.core c).state = .waiting →
      (s.core c).waitDue = some due → due < s.now → (s.core c).awaited = x :: r → (s.core c).waitMet = false →
      exec (.chWaitTimeout c) s = .next (seen s
        (((((s.add (O.chWaitExpiries (c / 64)) 1).expiry 2 (s.suspect susCore c)).waitReport c x.2).faultNext c 0x35 (nextDesc s c)).settle)))
  ∧ (∀ (s : State) (c pos : Nat), c < 3072 →
      (s.core c).inflight.findIdx? (fun i => i.ring.isSome && decide (i.due < s.now)) = some pos →
      exec (.ringWaitTimeout c) s = .next (seen s (((
        ((s.add (O.chWaitExpiries (c / 64)) 1).expiry 2 (s.suspect susCore c)).wrAll
          [(O.waitCore (c / 64), c % 64), (O.waitKind (c / 64), 0), (O.waitQueue (c / 64), 0xFFFFFFFF), (O.peerCore (c / 64), 0xFFFF),
           (O.peerState (c / 64), 0), (O.peerWaitQueue (c / 64), 0xFFFFFFFF)]).faultIssued c pos 0x35).settle)))

/-! ### Matrix and move descriptors (chapters 05 and 06) -/

/-- A matrix descriptor whose unit is free runs at once (R119-R141): an MM adds its passes to its tile and counts its retries and conditions;
TILE_CLEAR empties its tiles; TILE_STORE writes the converted cells; TILE_STAT writes the tile's status to an X register. -/
def Obligations.MatrixDescriptors : Prop :=
  ∀ (s : State) (c : Nat), s.unitsIdle = true →
    let k := s.core c
    let d := nextDesc s c
    let b := c / 64
    let n := k.inflight.length
    let t := fun (op : Nat) => issued s c op (k.dptr + 64)
    let next : Int := (k.dptr : Int) + 64
    (issues s c 0x10 ⟨mmInvalid k.x (c % 64) d, descXs d, [mmTile d],
        if mmOutside k.x d then 0x02 else if tileConflict (mmFinds k d) d then 0x10 else 0, next⟩ = true →
      (mmChainIn d = false → mmChainOut d = false → s.rd O.recomputeN = 0 →
        let r := mmRun k.x ⟨k.mem, (s.bent b).mem⟩ d (if mmZero d then Tile.empty else k.tile (mmTile d))
        exec (.mm c) s = .next (seen s ((((((((((t 0x10).modCore c (fun k => k.setTile (mmTile d) r.1)).add (O.mxRetries b (c % 64)) r.2.1).add
          (O.mxRangeLow b (c % 64)) r.2.2.2).add (O.mxSaturated b (c % 64)) r.2.2.1.toNat).pc c 0x0B (mmMacs d * (r.2.1 + 1))).pc c 0x12
          r.2.1).modIssued c n (fun i => { i with stage := .begun, shadow := some (k.tile (mmTile d)), sample := none })).finish c n).settle)))
      ∧ (mmChainIn d = true → k.chain = none →
          exec (.mm c) s = .next (seen s ((t 0x10).modIssued c n (fun i => { i with stage := .begun })).settle)))
    ∧ (issues s c 0x18 ⟨decide (byteField d 8 1 = 0) || decide (15 < byteField d 8 1) || !zeroBytes d 9 64, [], descTiles d, 0, next⟩ = true →
        exec (.tileClear c) s = .next (seen s (((t 0x18).modCore c (fun k => (natsFrom 0 4).foldl
          (fun k i => if (byteField d 8 1).testBit i then k.setTile i Tile.empty else k) k)).finish c n).settle))
    ∧ (issues s c 0x19 ⟨tsInvalid k.x d, descXs d, descTiles d,
        if field (k.tile (byteField d 13 1 % 4)).status 6 2 = 0 then 0x01 else if tsOutside k.x d then 0x02 else 0, next⟩ = true →
        let r := tsRun k.rng ((t 0x19).rd (O.rngSeed b)) k.x k.mem d (k.tile (byteField d 13 1 % 4))
        exec (.tileStore c) s = .next (seen s (((r.1.foldl (fun (u : State) (p : Nat × Bytes) => u.writeLocal c p.1 p.2) (t 0x19)).modCore c
          (fun k => k.raise r.2)).finish c n).settle))
    ∧ (issues s c 0x1A ⟨decide (3 < byteField d 8 1) || !selOk (byteField d 9 1) || !selUse (byteField d 9 1) || !zeroBytes d 10 64,
        descXs d, [byteField d 8 1 % 4], 0, next⟩ = true →
        exec (.tileStat c) s = .next (seen s (((t 0x1A).modCore c (fun n => n.setX (selReg (byteField d 9 1))
          (BitVec.ofNat 64 (k.tile (byteField d 8 1 % 4)).status))).finish c n).settle))

/-- The chain waits of an MM (R135): CHAIN_LOAD takes the tile of the full chain buffer, empties the buffer and runs the passes; CHAIN_TRANSFER
hands the tile to the next core's empty buffer and completes the MM, which faults with CHAIN_TARGET_OFF where that core is OFF. -/
def Obligations.ChainLoadAndTransfer : Prop :=
  ∀ (s : State) (c pos : Nat) (i : Issued), c < 3072 → (s.core c).inflight[pos]? = some i →
    let n := c / 64 * 64 + mmNext i.desc
    (∀ v, waitingMm false (s.core c).inflight = some pos → (s.core c).chain = some v → tileConflict v.status i.desc = false →
      exec (.chainLoad c) s = .next (seen s (s.mmResult c pos (State.mmPasses
        (s.modCore c (fun k => { (k.setTile (mmTile i.desc) v) with chain := none })) c pos i v)).settle))
    ∧ (waitingMm true (s.core c).inflight = some pos → (s.core n).state ≠ .off → (s.core n).chain = none →
        exec (.chainTransfer c) s = .next (seen s
          ((s.modCore n (fun k => { k with chain := some ((s.core c).tile (mmTile i.desc)) })).finish c pos).settle))
    ∧ (waitingMm true (s.core c).inflight = some pos → (s.core n).state = .off →
        exec (.chainTransfer c) s = .next (seen s (s.faultIssued c pos 0x11).settle))

/-- A move whose unit is free runs at once (R107-R110): the rows of its source go to its destination in own core memory, in the Bent window or
in a peer's core memory, and its bytes are counted; a peer that is OFF takes nothing. -/
def Obligations.LocalMovesCopyTheirRows : Prop :=
  ∀ (s : State) (c : Nat), s.unitsIdle = true →
    let k := s.core c
    let d := nextDesc s c
    let n := k.inflight.length
    let t := fun (op : Nat) => issued s c op (k.dptr + 64)
    let plan := fun (op : Nat) => (⟨mvInvalid (c % 64) op d, mvXs d, [], s.mvFault c op d, (k.dptr : Int) + 64⟩ : Plan)
    let rows := fun (op : Nat) => (mvRowsAt (mvSrc k.x d) (mvSrcStride d) d).map (fun r => (t op).readLocal c r (mvRow d))
    let copied := fun (op to_ : Nat) =>
      ((((t op).putRows c to_ (mvDst k.x d) (mvDstStride d) (rows op)).pc c 0x0E (mvRow d * mvRows d)).finish c n).settle
    (issues s c 0x60 (plan 0x60) = true → exec (.moveLocal c) s = .next (seen s (copied 0x60 c)))
    ∧ (issues s c 0x61 (plan 0x61) = true → exec (.moveBent c) s = .next (seen s (copied 0x61 c)))
    ∧ (issues s c 0x62 (plan 0x62) = true →
        exec (.movePeer c) s = .next (seen s (copied 0x62 (c / 64 * 64 + mvPeer d))))

/-- What a local move stores to (R107, R108): the rows of `ROW_BYTES` bytes from its destination, one every `DST_STRIDE`. Every byte of core memory
and of the Bent window outside them reads as before. -/
def Obligations.LocalMovesKeepOtherBytes : Prop :=
  ∀ (s : State) (c peer dst stride : Nat) (rows : List Bytes) (a : Nat),
    (∀ i bs, rows[i]? = some bs → ¬(dst + i * stride ≤ a ∧ a < dst + i * stride + bs.length)) →
    s.cores.wf (fun _ => Core.off) = true → s.bents.wf (fun _ => Bent.empty) = true →
    (peer = c → (s.putRows c peer dst stride rows).readLocal c a 1 = s.readLocal c a 1)
    ∧ (peer ≠ c → ((s.putRows c peer dst stride rows).core peer).mem.bytes 0#8 a 1 = (s.core peer).mem.bytes 0#8 a 1
        ∧ (s.putRows c peer dst stride rows).core c = s.core c)

/-- MOVE_TENSOR (R109, R238, R266, R309, R310, R390-R394, R409): it is issued and runs at once. A read of mapped blocks of the core's own die that pass
their checks puts their bytes in local memory and completes; a read of a ring block that has not landed waits, with the limit of a ring wait; a write
of writable blocks of the own die that no other die holds puts them there, and completes when nothing is left open; a move that asks for blocks of
other dies waits for them, and one that ends completes. -/
def Obligations.TensorMoves : Prop :=
  ∀ (s : State) (c : Nat) (reads : List BlockRead), s.unitsIdle = true →
    let k := s.core c
    let d := nextDesc s c
    let n := k.inflight.length
    let t := (issued s c 0x63 (k.dptr + 64)).modIssued c n (fun i => { i with reads := reads })
    issues s c 0x63 ⟨mvInvalid (c % 64) 0x63 d, mvXs d, [], s.mvFault c 0x63 d, (k.dptr : Int) + 64⟩ = true →
    ∃ i, (t.core c).inflight[n]? = some i ∧ i.desc = d ∧ i.x = k.x ∧ i.reads = reads
      ∧ (mvDir d = 0 →
        let bs := distinct (mvBlocks (mvSrc k.x d) (mvSrcStride d) d)
        let list := bs.filterMap (fun b => (t.resolve (t.itemOf c) (b / 16)).map (fun f => (b, f, (t.page (b / 16)).pool)))
        ((∀ b ∈ bs, t.mapped (b / 16) = true ∧ t.ringKeyOf b = none) →
          (∀ x ∈ list, homeOf (16 * x.2.1 + x.1 % 16) = c / 768 ∧ (t.frame x.2.1).poison.contains (x.1 % 16) = false
            ∧ ∀ r ∈ reads, r.block ≠ x.1) →
          let cold := list.filter (fun x => !(t.isResident (c / 64) x.2.1))
          let v := (t.countReads (c / 64) (distinct (list.map (fun x => x.2.1)))).countHbm 0x03 (c / 64) cold
          let u := v.bpc (c / 64) 0x0B list.length
          let rows := (mvRowsAt (mvSrc k.x d) (mvSrcStride d) d).map (fun r => u.tensorBytes (v.itemOf c) r (mvRow d))
          exec (.moveTensor c reads) s = .next (seen s
            ((((u.putRows c c (mvDst k.x d) (mvDstStride d) rows).pc c 0x0E (mvRow d * mvRows d)).finish c n).settle)))
        ∧ ((∃ b ∈ bs, ∃ m key, t.ringKeyOf b = some (m, false, key) ∧ (t.slot m).landed.contains key = false) →
          exec (.moveTensor c reads) s = .next (seen s (t.modIssued c n (fun i =>
            { i with stage := .begun, ring := some (i.due - t.now), due := t.now + t.rd (O.chWaitLimit (c / 64)) })).settle))
        ∧ (∀ u, t.runTensorRead c n i = .done u → (u.finish c n).unitsIdle = true →
          exec (.moveTensor c reads) s = .next (seen s (u.finish c n).settle)))
      ∧ (mvDir d = 1 →
        let bs := mvBlocks (mvDst k.x d) (mvDstStride d) d
        (∀ b ∈ bs, t.mapped (b / 16) = true ∧ t.blockWritable b = true) →
        let w := (State.each (fun (t : State) (p : Nat × Bytes) => t.moveBlock c p) t (t.movedBlocks c i)).bpc (c / 64) 0x05 (4096 * bs.length)
        ((∀ b ∈ bs, t.ringKeyOf b = none ∧ t.plainWrite (c / 768) (16 * (t.page (b / 16)).frame + b % 16) = true) → t.openWrites c = [] →
          t.bentSlot (c / 64) = 0xFF →
          exec (.moveTensor c reads) s = .next (seen s
            ((((w.bpc (c / 64) 0x0B bs.length).pc c 0x0E (mvRow d * mvRows d)).finish c n).settle)))
        ∧ (w.openWrites c ≠ [] → exec (.moveTensor c reads) s
            = .next (seen s (w.modIssued c n (fun i => { i with stage := .begun, asked := some (w.openWrites c) })).settle))
        ∧ (w.openWrites c = [] → ((w.endTensorWrite c i).finish c n).unitsIdle = true →
            exec (.moveTensor c reads) s = .next (seen s ((w.endTensorWrite c i).finish c n).settle)))

/-! ### The vector engine (chapter 07) -/

/-- The element-wise rows (R150-R152): in every lane, by element type, the operation of the operands' lanes; comparison, selection, bits, lane
numbers, conversion and packing. -/
def Obligations.VectorElementwiseRows : Prop :=
  RegisterRow .vadd 0x30 (.elementwise true true false [0, 1, 2] 1) vOk (arithRun .add)
  ∧ RegisterRow .vsub 0x31 (.elementwise true true false [0, 1, 2] 1) vOk (arithRun .sub)
  ∧ RegisterRow .vmul 0x32 (.elementwise true true false [0, 1, 2] 1) vOk (arithRun .mul)
  ∧ RegisterRow .vfma 0x33 (.elementwise true true true [0, 1, 2] 1) vOk (arithRun .fma)
  ∧ RegisterRow .vmin 0x34 (.elementwise true true false [0, 1, 2] 1) vOk (minRun false)
  ∧ RegisterRow .vmax 0x35 (.elementwise true true false [0, 1, 2] 1) vOk (minRun true)
  ∧ RegisterRow .vminnum 0x36 (.elementwise true true false [0, 2] 1) vOk (minNumRun false)
  ∧ RegisterRow .vmaxnum 0x37 (.elementwise true true false [0, 2] 1) vOk (minNumRun true)
  ∧ RegisterRow .vneg 0x38 (.elementwise true false false [0, 1, 2] 1) vOk
      (fun v => perType v (fun a _ _ => (a ^^^ 0x80000000#32, 0)) (fun a _ _ => -a) (fun a _ _ => (a ^^^ 0x8000, 0)))
  ∧ RegisterRow .vabs 0x39 (.elementwise true false false [0, 1, 2] 1) vOk
      (fun v => perType v (fun a _ _ => (a &&& 0x7FFFFFFF#32, 0)) (fun a _ _ => intAbs a) (fun a _ _ => (a &&& 0x7FFF, 0)))
  ∧ RegisterRow .vcopysign 0x3A (.elementwise true true false [0, 2] 1) vOk
      (fun v => perType v (fun a b _ => ((a &&& 0x7FFFFFFF#32) ||| (b &&& 0x80000000#32), 0)) (fun a _ _ => a)
        (fun a b _ => ((a &&& 0x7FFF) ||| (b &&& 0x8000), 0)))
  ∧ RegisterRow .vcmp 0x3B (.elementwise true true false [0, 1, 2] 7) vOk cmpRun
  ∧ RegisterRow .vsel 0x3C (.elementwise true true true [0, 1, 2] 1) vOk
      (fun v => perType v (fun a b c => (if a = 0#32 then c else b, 0)) (fun a b c => if a = 0#32 then c else b)
        (fun a b c => (if a = 0 then c else b, 0)))
  ∧ RegisterRow .vlogic 0x3D (.elementwise true true false [1] 7) vOk (fun v => perLane v (fun a b _ => (intLogic (vSub v.d) a b, 0)))
  ∧ RegisterRow .vlaneid 0x3E { VUse.elementwise false false false [1] 1 with imm := true } vOk
      (fun v => .lanes ((natsFrom 0 64).map (fun l => BitVec.ofNat 32 l + vImm v.d)) 0)
  ∧ RegisterRow .vcvti 0x3F (.elementwise true false false [0] 3) vOk (fun v => perLane v (fun a _ _ => cvtInt (vSub v.d) a))
  ∧ RegisterRow .vpack 0x40 { VUse.elementwise true true false [0] 1 with conv := true, elem := true }
      (fun d => (vConvOf d).elim true (fun c => decide (c.fmt ≠ .bf16) || decide (c.scale ≠ 0))) packRun
  ∧ RegisterRow .vunpack 0x41 (.elementwise true false false [2] 2) vOk
      (fun v => perLane v (fun a _ _ =>
        let x := Fmt.decode .bf16 (if vSub v.d = 0 then lowElem a else highElem a)
        ((widen x).1, snanFlag x)))
  ∧ RegisterRow .vquant 0x42 { VUse.elementwise true false false [0] 1 with conv := true, elem := true } (fun d => (vConvOf d).isNone)
      (fun v => match vConvOf v.d with
        | none => .lanes [] 0
        | some c =>
          let r := quantLanes c v.a (c.roundings v.core.rng v.seed ((natsFrom 0 64).map v.offset))
          .lanes r.1 r.2)

/-- VLOAD and VSTORE (R153): a load reads its data and scale bytes of local memory into DST; a store writes its bytes and its scales and no
register. An address that is no multiple of 16, or bytes that do not lie in one local space, fault instead (R95). -/
def Obligations.VectorLoadAndStore : Prop :=
  VectorRow .vload 0x43 (memoryUse false) loadBad (fun k d => vMemFault k.x d (loadSizes d).1 (loadSizes d).2)
    (fun t c v =>
      let r := loadRun v.d (t.readLocal c (vAddr v.core.x v.d) (loadSizes v.d).1) (t.readLocal c (vScl v.d) (loadSizes v.d).2)
      .lanes r.1 r.2)
    (fun t _ _ => t)
  ∧ VectorRow .vstore 0x44 (memoryUse true)
      (fun d => decide (vWmask d ≠ 0) || decide (vSfmt d ≠ 0) || (if vType d = 0 then (vConvOf d).isNone else decide (vConv d ≠ 0)))
      (fun k d => vMemFault k.x d (storeSizes d).1 (storeSizes d).2)
      (fun _ _ v => ⟨none, none, (storeRun v).2.2, none, 0, 0⟩)
      (fun t c v =>
        let r := storeRun v
        (t.writeLocal c (vAddr v.core.x v.d) r.1).writeLocal c (vScl v.d) r.2.1)

/-- The functions, the reductions and the softmax rows (R154-R157, R161); RNG_CTX, VRAND and VDROPOUT (R164, R165): the context comes from five X
registers, the random words follow from it, the seed and the element, and dropped lanes are +0. -/
def Obligations.VectorFunctionAndRandomRows : Prop :=
  (∀ p ∈ [(Instr.vexp2, 0x45, fExp2), (Instr.vlog2, 0x46, fLog2), (Instr.vrcp, 0x47, fRcp), (Instr.vrsqrt, 0x48, fRsqrt), (Instr.vtanh, 0x49, fTanh)],
    RegisterRow p.1 p.2.1 (.elementwise true false false [0] 1) vOk (fun v => perLane v (fun a _ _ => p.2.2 a)))
  ∧ RegisterRow .vreduce 0x4A { VUse.elementwise true false false [0, 1] 5 with group := some 0, xdst := true } vOk reduceRun
  ∧ RegisterRow .vnormStats 0x4B { VUse.elementwise true false false [0] 2 with dst2 := true, imm := true, group := some 1 }
      (fun d => epsBad d || !((vDst2 d).testBit 7)) normRun
  ∧ RegisterRow .vsoftmax 0x4C
      { VUse.elementwise true false false [0] 2 with dst2 := true, imm := true, group := some 2, pmask := true, xdst := true } tauBad softmaxRun
  ∧ RegisterRow .vlseUpdate 0x4D { VUse.elementwise true true false [0] 8 with imm := true, group := some 2, pmask := true }
      (fun d => tauBad d || ((vSub d).testBit 1 && decide (vOpd d 1 ≠ 0))) lseUpdateRun
  ∧ RegisterRow .vsoftmaxApply 0x4E { VUse.elementwise true true false [0] 2 with imm := true, group := some 2, pmask := true } tauBad
      softmaxApplyRun
  ∧ RegisterRow .vlseFinal 0x4F { VUse.elementwise false true false [0] 2 with group := some 2, xdst := true } vOk lseFinalRun
  ∧ (∀ (s : State) (c : Nat),
    let k := s.core c
    let d := nextDesc s c
    let x := fun (i : Nat) => selVal k.x (byteField d i 1)
    issues s c 0x50 ⟨!([8, 9, 10, 11, 12].all (fun i => selOk (byteField d i 1) && selUse (byteField d i 1))) || !zeroBytes d 13 64,
      selXs d [8, 9, 10, 11, 12], [], 0, (k.dptr : Int) + 64⟩ = true →
    exec (.rngCtx c) s = .next (seen s ((issued s c 0x50 (k.dptr + 64)).modCore c (fun n =>
      { n with rng := ⟨x 8 % 2 ^ 32, x 9 % 2 ^ 14, x 10 % 2 ^ 32, x 11 % 2 ^ 12, x 12 % 2 ^ 40⟩ })).settle))
  ∧ RegisterRow .vrand 0x51 { VUse.elementwise false false false [0, 1] 2 with elem := true } vOk
      (fun v => .lanes ((natsFrom 0 64).map (fun l =>
        if vSub v.d = 0 then BitVec.ofNat 32 (v.word l) else (toF32 (.fin false (v.word l / 256) (-24))).1)) 0)
  ∧ RegisterRow .vdropout 0x52 { VUse.elementwise true false false [0] 1 with imm := true, imm2 := true, elem := true } vOk
      (fun v =>
        let o := v.a.mapIdx (fun l a => if v.word l < vImm2 v.d then (0#32, 0) else f32Mul a (vImm v.d))
        .lanes (o.map Prod.fst) (o.foldl (fun f p => f ||| p.2) 0))

/-- R148: lanes whose mask lane is zero keep their contents. With WMASK enabled, a lane of DST whose mask lane is zero reads as before, and a lane
whose mask lane is not zero holds the result. -/
def Obligations.MaskedLanesKeepTheirContents : Prop :=
  ∀ (s : State) (c : Nat) (d : Bytes) (o : VOut) (ls : List W32) (l : Nat), (vWmask d).testBit 7 = true → l < 64 → ls.length = 64 →
    o.dst = some ls → o.dst2 = none → (s.core c).runs = true → (s.core c).v.wf (fun _ => 0#2048) = true →
    let m := vLane ((s.core c).vr (vWmask d % 32)) l
    let new := vLane (((s.vApply c d o).core c).vr (vDst d % 32)) l
    (m = 0#32 → new = vLane ((s.core c).vr (vDst d % 32)) l) ∧ (m ≠ 0#32 → some new = ls[l]?)

/-- R151: INT32 arithmetic is modulo 2^32. Without a mask, lane l of DST is the sum, difference or product modulo 2^32 of lanes l of A and B. -/
def Obligations.IntegerLanesWrap : Prop :=
  ∀ (s : State) (c l : Nat), l < 64 →
    let k := s.core c
    let d := nextDesc s c
    let a := (k.operand d (vOpd d 0)).getD l 0#32
    let b := (k.operand d (vOpd d 1)).getD l 0#32
    let u := VUse.elementwise true true false [0, 1, 2] 1
    ∀ p ∈ [(Instr.vadd, 0x30, a + b), (Instr.vsub, 0x31, a - b), (Instr.vmul, 0x32, a * b)],
      vType d = 1 → (vWmask d).testBit 7 = false →
      issues s c p.2.1 ⟨u.invalid d || vOk d, vXs d, ((u.operands d).filter (fun o => decide (opdKind o = 2))).map opdTile,
        if k.emptyTile (u.operands d) then 0x01 else 0, (k.dptr : Int) + 64⟩ = true →
      s.quiet = true → k.v.wf (fun _ => 0#2048) = true →
      ∃ t, exec (p.1 c) s = .next t ∧ vLane ((t.core c).vr (vDst d % 32)) l = p.2.2

/-! ### Channels (chapter 08) -/

/-- R172, Table 8.3: CREATE opens an UNUSED queue whose configuration fits with a new generation; CLOSE closes an OPEN one; REOPEN and DELETE of a
CLOSED one move its generation, to OPEN and to UNUSED. R174, R175, R193: a write of ENDPOINT_TABLE binds every changed endpoint when all its checks
pass, and none when one fails, with the status of the lowest; a generation notice of a remote queue ends and wakes the bindings that it concerns. -/
def Obligations.QueuesAndEndpoints : Prop :=
  (∀ (s : State) (f : Frame), writes s f = true → isBentObj 0x21 f.key = true →
    let t := inSession s f
    let q := keyQueue f.key
    t.bentOn (keyBent f.key) = true →
    (valueOf f = 1 → (t.queue q).state = 0 → t.queueFits q = true → exec (.queueCreate f) s = .next (seen s (writeDone f (t.moveGen q 1))))
    ∧ (valueOf f = 2 → (t.queue q).state = 1 → exec (.queueClose f) s = .next (seen s (writeDone f (t.closeQueue q).settle)))
    ∧ (valueOf f = 3 → (t.queue q).state = 2 → exec (.queueReopen f) s = .next (seen s (writeDone f (t.moveGen q 1).settle)))
    ∧ (valueOf f = 4 → (t.queue q).state = 2 → exec (.queueDelete f) s = .next (seen s (writeDone f (t.moveGen q 0).settle))))
  ∧ (∀ (s : State) (f : Frame), writesWhole s f = true → isBentObj 0x28 f.key = true → (s.core (keyCore f.key)).state ≠ .off →
    let t := inSession s f
    let c := keyCore f.key
    let now := (natsFrom 0 16).flatMap (fun e => (t.endpointBytes ((t.core c).endp e)).take 10 ++ List.replicate 6 0#8)
    let bytes := ((Map.empty.setBytes 0#8 0 now).setBytes 0#8 f.offset f.body).bytes 0#8 0 256
    let r := t.writeTable c bytes
    exec (.endpointTableWrite f) s = .next (seen s (answered f r.2.settle r.1 []))
    ∧ (r.1 ≠ stOk → r.2 = t))
  ∧ (∀ (s : State) (name gen : Nat) (closed : Bool),
      exec (.generationNotice name gen closed) s = .next (seen s (s.generationNotice name gen closed).settle)
      ∧ (s.ownQueue name = true → s.generationNotice name gen closed = s))

/-- R182, R184: a SEND or CONTRIBUTE is judged at issue. It takes one credit, or one reservation on the return plane, and its message is on its way to a
queue of this package, or given to the Relay link of another's; without a credit it waits; with a stale or closed binding it completes with the
refusal's code, unless ON_REFUSE faults it. -/
def Obligations.SendsTakeCredit : Prop :=
  ∀ (s : State) (c : Nat), s.unitsIdle = true →
    let k := s.core c
    let d := nextDesc s c
    let ep := chEp d
    let e := k.endp ep
    let n := k.inflight.length
    let ret := s.returnPlane e
    let pay := fun (e : Endpoint) => if ret then { e with reserved := e.reserved - 1 } else { e with credit := e.credit - 1 }
    ∀ p ∈ [(Instr.send, 0x70, false), (Instr.contribute, 0x72, true)],
      let t := issued s c p.2.1 (k.dptr + 64)
      issues s c p.2.1 ⟨chInvalid d, descXs d, [], s.chFault c d, (k.dptr : Int) + 64⟩ = true →
      (s.bindStatus e = 0 → s.ownQueue e.queue = true → (if ret then 0 < e.reserved else 0 < e.credit) →
        let paid := (t.modEndp c ep pay).modIssued c n (fun i => { i with paid := true })
        let bytes := paid.readLocal c (chAddr k.x d) (64 * chSize d)
        let f : Flight := { origin := .endpoint c ep e.gen, queue := nameQueue e.queue, gen := e.gen, contribute := p.2.2, sender := e.sender,
                            seq := dSeq d, count := e.accepted, payload := bytes, checks := payloadChecks bytes }
        exec (p.1 c) s = .next (seen s (({ paid with flights := paid.flights ++ [f] } : State).modIssued c n (fun i => { i with stage := .begun })).settle))
      ∧ (s.bindStatus e = 0 → s.ownQueue e.queue = false → (if ret then 0 < e.reserved else 0 < e.credit) →
          let paid := (t.modEndp c ep pay).modIssued c n (fun i => { i with paid := true })
          let bytes := paid.readLocal c (chAddr k.x d) (64 * chSize d)
          let told := (paid.emit (.channelMessage (namePkg e.queue) (nameQueue e.queue)
            (messageHeader (chSize d) e.sender 0 e.gen (dSeq d) e.accepted (payloadChecks bytes)) bytes)).modEndp c ep
            (fun e => { e with accepted := (e.accepted + 1) % 2 ^ 32 })
          let u := told.relaySent ((told.relayTo (namePkg e.queue)).getD 32) (128 + bytes.length)
          exec (p.1 c) s = .next (seen s ((((u.add (O.chSent (c / 64)) 1).pc c 0x10 bytes.length).chStatus c d e.gen 0 0 0 0).finish c n).settle))
      ∧ (s.bindStatus e = 0 → ret = false → e.credit = 0 →
          exec (p.1 c) s = .next (seen s t.settle))
      ∧ (s.bindStatus e ≠ 0 →
          exec (p.1 c) s = .next (seen s (((t.add (if s.bindStatus e = 0x22 then O.chRefusedStale (c / 64) else O.chRefusedClosed (c / 64)) 1).chStatus c d
            e.gen (s.bindStatus e) 0 0 0).finish c n).settle))

/-- R176, R181, R183: a RECV takes the head of its queue, whose header and payload stand in a slot of the queue in Bent memory, verifies it, writes its
payload and its status, and completes; it waits while the queue is open and empty. A PROBE reports the head and takes nothing. -/
def Obligations.ReceivesTakeTheHead : Prop :=
  ∀ (s : State) (c : Nat), s.unitsIdle = true →
    let k := s.core c
    let d := nextDesc s c
    let e := k.endp (chEp d)
    let q := nameQueue e.queue
    let n := k.inflight.length
    let t := fun (op : Nat) => issued s c op (k.dptr + 64)
    let plan : Plan := ⟨chInvalid d, descXs d, [], s.chFault c d, (k.dptr : Int) + 64⟩
    e.kind = 3 →
    (issues s c 0x71 plan = true →
      (s.bindStatus e = 0x22 → (chOn d).testBit 0 = false →
        exec (.recv c) s = .next (seen s (((t 0x71).chStatus c d e.gen 0x22 0 0 0).finish c n).settle))
      ∧ (∀ m, s.bindStatus e ≠ 0x22 → (t 0x71).headFor q c (chEp d) = some m →
        let h := (t 0x71).slotHeader q m.slot
        let p := (t 0x71).slotPayload q m.slot
        hSize h ≤ chSize d → payloadChecks p = hChecks h (payloadChecks p).length →
        let r := (t 0x71).takeHead q c (chEp d)
        let u := ((r.1.modIssued c n (fun i => { i with credit := r.2 })).writeLocal c (chAddr k.x d) p).add (O.chReceived (c / 64)) 1
        exec (.recv c) s = .next (seen s (((u.pc c 0x11 p.length).chStatus c d e.gen 0 (hSender h) (hFlags h * 2 ^ 14 % 2 ^ 16) (hSize h)).finish
          c n).settle))
      ∧ ((t 0x71).headFor q c (chEp d) = none → s.bindStatus e = 0 → exec (.recv c) s = .next (seen s (t 0x71).settle)))
    ∧ (issues s c 0x73 plan = true → s.bindStatus e ≠ 0x22 →
      (∀ m, (t 0x73).headFor q c (chEp d) = some m →
        let h := (t 0x73).slotHeader q m.slot
        exec (.probe c) s = .next (seen s (((t 0x73).chStatus c d e.gen 0 (hSender h) (hFlags h * 2 ^ 14 % 2 ^ 16) (hSize h)).finish c n).settle))
      ∧ ((t 0x73).headFor q c (chEp d) = none → s.bindStatus e = 0 →
          exec (.probe c) s = .next (seen s (((t 0x73).chStatus c d e.gen 0 0 0 0).finish c n).settle)))

/-- R177, R184, R192, R193: the oldest message of a binding is written whole at its queue: accepted, the SEND completes and the queue holds it; with
the queue full it stays on its way; refused, the SEND completes with the refusal, and one of another package is dropped, counted, and its package
told. -/
def Obligations.MessagesAreAcceptedInOrder : Prop :=
  ∀ (s : State) (n : Nat) (damage : List (Nat × Byte)) (g f0 : Flight), s.flights[n]? = some g →
    s.flights.find? g.sameBinding = some f0 →
    let t := { s with flights := eraseFirst g.sameBinding s.flights }
    (∀ c ep gen, f0.origin = .endpoint c ep gen →
      let f := { f0 with count := ((s.core c).endp ep).accepted, payload := damageBytes f0.payload damage }
      (∀ u und, t.offer f = .taken u und → exec (.messageAccept n damage) s = .next (seen s (u.sendAccepted c ep f.payload.length und).settle))
      ∧ (∀ st, t.offer f = .refused st → exec (.messageAccept n damage) s = .next (seen s (t.sendRefused c ep f.queue st gen).settle))
      ∧ (t.offer f = .full → exec (.messageAccept n damage) s = .next (seen s s.settle)))
    ∧ (∀ p, f0.origin = .remote p →
        let f := { f0 with payload := damageBytes f0.payload damage }
        (∀ u und, t.offer f = .taken u und → exec (.messageAccept n damage) s = .next (seen s u.settle))
        ∧ (∀ st, t.offer f = .refused st →
            exec (.messageAccept n damage) s
              = .next (seen s (((t.add (O.queueDropped (f.queue / 64) (f.queue % 64)) 1).noticeTo p f.queue).settle)))
        ∧ (t.offer f = .full → exec (.messageAccept n damage) s = .next (seen s s.settle)))

/-! ### Relay links and Lanes (chapter 09) -/

/-- R204: a Relay link is opened from CLOSED and is UP once the open request of its remote end stands; it is closed from its own end, or goes down
when the remote end closes. R188, R208, Table 8.3: OPEN of a Lane whose peer is local takes effect at once, unless it closes a cycle; with a remote
peer it is answered DEFERRED, and takes effect once the peer has opened with the same shape; CLOSE, REOPEN and DELETE act on an OPEN or a CLOSED
end. -/
def Obligations.RelayAndLaneControls : Prop :=
  (∀ (s : State) (f : Frame), writes s f = true → isRelayControl f.key = true →
    let t := inSession s f
    let r := keyIndex f.key - 0x4200
    let toPkg := t.rd (O.relayRemote r)
    (valueOf f = 1 → t.rd (O.relayState r) = 0 →
      exec (.relayOpen f) s = .next (seen s (writeDone f (((t.wr (O.relayState r) 1).emit
        (.relayOpen toPkg (t.rd (O.relayRemoteLink r)) r (t.rd (O.relayDirection r)) (t.rd O.commitJobTag))).matchRelay r))))
    ∧ (valueOf f = 2 → t.rd (O.relayState r) ≠ 0 →
        exec (.relayClose f) s = .next (seen s (writeDone f (((if t.rd (O.relayState r) = 3 then t
          else (t.relayDown r).emit (.relayClose toPkg (t.rd (O.relayRemoteLink r)))).wr (O.relayState r) 0).settle)))))
  ∧ (∀ (s : State) (source remote link dir tag : Nat), link < 32 →
      let a : RelayAsk := ⟨source, remote, link, dir, tag⟩
      exec (.relayOpenRequest source remote link dir tag) s = .next (seen s (
        ({ s with asks := s.asks.filter (fun (b : RelayAsk) => !(decide (b.source = source) && decide (b.link = remote))) ++ [a] } : State).matchRelay link)))
  ∧ (∀ (s : State) (link : Nat), link < 32 →
      exec (.relayRemoteClose link) s = .next (seen s (((
        ({ s with asks := s.asks.filter (fun (a : RelayAsk) => !(decide (a.own = link) && decide (a.source = s.rd (O.relayRemote link)))) } : State).relayDown
          link)).settle)))
  ∧ (∀ (s : State) (f : Frame), writes s f = true → isLaneControl f.key = true →
    let t := inSession s f
    let n := keyIndex f.key - 0x4100
    let st := t.rd (O.laneState n)
    (valueOf f = 1 → st = 0 → (t.lane n).opening = false → t.laneRefused n = false →
      (t.laneCycle n = false → t.laneLocal n = true →
        (t.laneReads n = false → exec (.laneOpen f) s = .next (seen s (writeDone f
          ((t.wrAll [(O.laneState n, 1), (O.laneGen n, nextGen (t.rd (O.laneGen n)))]).setLane n
            (if t.laneReturn n then LaneEnd.unused
             else { LaneEnd.unused with credit := t.rd (O.laneDepth n), pages := t.rd (O.lanePages n) })))))
        ∧ (∀ u, t.startLane n = some u → exec (.laneOpen f) s = .next (seen s (writeDone f u))))
      ∧ (t.laneCycle n = true → t.laneOverride n = none → exec (.laneOpen f) s = .next (seen s (answered f t stCycle [])))
      ∧ (t.laneCycle n = false → t.laneLocal n = false →
          let told := t.emit (.laneOpen (t.lanePackage n) (t.rd (O.lanePeerLane n)) (t.laneShape n))
          ((t.lane n).peer = none →
            exec (.laneOpen f) s = .next (seen s (deferredFor f (told.modLane n (fun e => { e with opening := true })) (.lane n))))
          ∧ ((t.lane n).peer ≠ none →
            exec (.laneOpen f) s = .next (seen s (deferredFor f (told.meetLane n).2 (.prisum (told.meetLane n).1))))))
    ∧ (valueOf f = 2 → st = 1 → exec (.laneClose f) s = .next (seen s (writeDone f (t.closeLane n))))
    ∧ (valueOf f = 3 → st = 2 → exec (.laneReopen f) s = .next (seen s (writeDone f (t.reopenLane n))))
    ∧ (valueOf f = 4 → st = 2 → exec (.laneDelete f) s = .next (seen s (writeDone f (t.deleteLane n)))))
  ∧ (∀ (s : State) (lane depth plane pages tokens bytes : Nat), lane < 64 →
      let shape := [depth, plane, pages, tokens, bytes]
      let t := s.modLane lane (fun e => { e with peer := some shape })
      ((s.lane lane).opening = false → s.rd (O.laneState lane) = 0 →
        exec (.lanePeerOpen lane depth plane pages tokens bytes) s = .next (seen s t))
      ∧ ((s.lane lane).opening = true → t.laneShape lane ≠ shape →
          exec (.lanePeerOpen lane depth plane pages tokens bytes) s = .next (seen s
            ((t.modLane lane (fun e => { e with opening := false, peer := none })).complete (.lane lane) stRange)))
      ∧ (∀ u, (s.lane lane).opening = true → t.laneShape lane = shape →
          (t.modLane lane (fun e => { e with opening := false, peer := none })).startLane lane = some u →
          exec (.lanePeerOpen lane depth plane pages tokens bytes) s = .next (seen s (u.complete (.lane lane) stOk))))

/-- R210-R213: LANE_SEND sends the next complete output of a slot over its Lane, taking its micro-batch and page credit, and frees its staging pages;
without the credit it waits, and over a stale end it is the stage fault of the Lane. BATON_RECEIVE takes a Baton whose pages have landed whole at an
OPEN reader's end, and discards and counts it at one that is not open. -/
def Obligations.LaneTraffic : Prop :=
  (∀ (s : State) (i : Nat) (ret : Bool) (m : Micro), i < 16 →
    let n := if ret then s.rd (O.retOutLane i) else s.rd (O.outLane i)
    let pages := if ret then s.backPages i (batonTokens m.baton) else s.outPages i (batonTokens m.baton)
    let at_ := if ret then s.backAt i m.id else s.outAt i m.id
    n < 64 → (s.stage i = 2 ∨ s.stage i = 3) → (s.slot i).nextOutput ret = some m →
    ((s.lane n).status ≠ 0 → exec (.laneSend i ret) s
        = .next (seen s (s.stageFaultOf i (if (s.lane n).cut then sfRelay else sfLaneStale) (if ret then 2 else 1) m.id).settle))
    ∧ (s.rd (O.laneState n) = 1 → (s.lane n).status = 0 → ((s.lane n).credit = 0 ∨ (s.lane n).pages < pages) →
        exec (.laneSend i ret) s = .next (seen s s.settle))
    ∧ (s.rd (O.laneState n) = 1 → (s.lane n).status = 0 → (s.lane n).credit ≠ 0 → pages ≤ (s.lane n).pages →
        (∀ x ∈ s.blockList none (pageSize * at_) (pageSize * pages), s.blockFault [] x.2.1 x.1 = none) →
        let r := s.engineReads (s.rd (O.firstBent i)) (s.blockList none (pageSize * at_) (pageSize * pages))
        let t := r.modLane n (fun e => { e with credit := e.credit - 1, pages := e.pages - pages })
        let b := batonOut m.baton (if ret then 1 else 0) (t.jobStageOf i) pages
        let u := t.outputSent i m.id at_ pages ret
        (t.laneLocal n = true → t.rd (O.laneState (t.rd (O.lanePeerLane n))) = 1 →
          exec (.laneSend i ret) s
            = .next (seen s (u.takeBaton (t.rd (O.lanePeerLane n)) (t.rd (O.laneGen n)) (t.pageContents at_ pages) b).settle))
        ∧ (t.laneLocal n = false → exec (.laneSend i ret) s = .next (seen s
            ((((u.laneAway n pages).relaySent (s.rd (O.laneRelay n)) (pageSize * pages + 64)).emit
              (.lane (t.lanePackage n) (t.rd (O.lanePeerLane n)) (t.pageBytes at_ pages) b)).settle)))))
  ∧ (∀ (s : State) (n : Nat) (pages : List LandedPage) (b : Bytes), n < 64 → s.laneReads n = true → s.laneLocal n = false →
      let t := s.relayGot (s.rd (O.laneRelay n)) (pageSize * pages.length + 64)
      (s.rd (O.laneState n) ≠ 1 → exec (.batonReceive n pages b) s = .next (seen s (t.add (O.laneDropped n) 1).settle))
      ∧ (s.rd (O.laneState n) = 1 → (s.lane n).status = 0 → s.stage (s.rd (O.laneStage n)) ≠ 0 → (∀ p ∈ pages, p.bad = false) →
          exec (.batonReceive n pages b) s
            = .next (seen s (t.takeBaton n (s.rd (O.laneGen n)) (pages.map LandedPage.bytes) b).settle)))

/-! ### Stages and the Pacer (chapter 09) -/

/-- R200, R201: ARM of a DISARMED or STOPPED slot whose checks pass takes what the slot needs and makes it ARMED; RUN starts it; STOP stops it; DISARM
releases all it holds. -/
def Obligations.StageControls : Prop :=
  ∀ (s : State) (f : Frame), writes s f = true → isStageControl f.key = true →
    let t := inSession s f
    let i := keySlot f.key
    let a := if t.rd (O.seqShare i) = 0 then t else t.wr (O.stashWorstPages i) (t.stashWorst i)
    (∀ u, valueOf f = 1 → (t.stage i = 0 ∨ t.stage i = 4) → a.rd O.drainState = 0 → a.jobCheck i = stOk → a.planCheck i = stOk →
      (if a.stage i = 4 then a.releaseSlot i else a).takeSlot i = some u →
      exec (.arm f) s = .next (seen s (writeDone f
        ((((u.dismissBents i).assignBents i).fillLedger i).wrAll [(O.stageState i, 1), (O.stageFault i, 0)]))))
    ∧ (valueOf f = 2 → t.stage i = 1 → (∀ c ∈ t.slotCores i, (t.core c).state = .idle ∨ (t.core c).state = .halted) →
        exec (.run f) s = .next (seen s (writeDone f (t.wr (O.stageState i) 2))))
    ∧ (valueOf f = 3 → (t.stage i = 2 ∨ t.stage i = 5) →
        exec (.stageStop f) s = .next (seen s (writeDone f
          ((((t.modSlot i (fun v => { v with stopDue := some (t.now + t.level6) })).wr (O.stageState i) 3).settleStop i).settleDrain))))
    ∧ (valueOf f = 4 → (t.stage i = 1 ∨ t.stage i = 4) → exec (.disarm f) s = .next (seen s (writeDone f (t.disarm i).settleDrain)))

/-- R214, R218, R219: with its slot free, and the Batons and ring blocks that waited for the step taken, the lead Pacer runs the oldest pending W
first in mode 0 and at the limit of mode 1; else it follows its schedule: a ready entry is dispatched, a W runs in a bubble, nothing starves the
slot, and the end with nothing left ends the step. -/
def Obligations.PacerFollowsItsSchedule : Prop :=
  ∀ (s0 : State) (i : Nat), i < 16 → s0.stage i = 2 →
    let s := (s0.acceptEarly i).takeRingEarly i
    s.stage i = 2 → (s.slot i).item = none → (s.slot i).stepDone = false →
    let v := s.slot i
    let max := s.rd (O.wPendingMax i)
    (s.rd (O.wMode i) = 0 → v.pendingW ≠ [] → exec (.pacerDecide i) s0 = .next (seen s0 (s.runOldestW i).settle))
    ∧ (s.rd (O.wMode i) = 1 → v.pendingW.length = max → exec (.pacerDecide i) s0 = .next (seen s0 ((s.add (O.wForced i) 1).runOldestW i).settle))
    ∧ ((s.rd (O.wMode i) = 0 → v.pendingW = []) → (s.rd (O.wMode i) = 1 → v.pendingW.length ≠ max) → s.jobStageOf i ≠ 0 →
        let w := s.walkOf i (s.acceptedF i)
        let e := s.sched i v.ptr
        let ptr := if v.cnt + 1 = seArg e then v.ptr + 1 else v.ptr
        let cnt := if v.cnt + 1 = seArg e then 0 else v.cnt + 1
        (seKind e = 1 → 0 < w.fLeft → w.readyF = true →
          exec (.pacerDecide i) s0 = .next (seen s0 ((s.setPointer i ptr cnt).dispatch i 1 v.fOut).settle))
        ∧ (seKind e = 2 → 0 < w.bLeft → w.readyB = true →
            exec (.pacerDecide i) s0 = .next (seen s0 ((s.setPointer i ptr cnt).dispatch i 2 v.bOut).settle))
        ∧ (seKind e = 3 → 0 < w.pendW → exec (.pacerDecide i) s0 = .next (seen s0 ((s.setPointer i ptr cnt).runOldestW i).settle))
        ∧ ((seKind e = 1 ∧ 0 < w.fLeft ∧ w.readyF = false) ∨ (seKind e = 2 ∧ 0 < w.bLeft ∧ w.readyB = false) →
            (0 < w.pendW → exec (.pacerDecide i) s0
              = .next (seen s0 (((s.setPointer i v.ptr v.cnt).add (O.wInBubble i) 1).runOldestW i).settle))
            ∧ (w.pendW = 0 → exec (.pacerDecide i) s0 = .next (seen s0 ((s.setPointer i v.ptr v.cnt).starves i).settle)))
        ∧ (seKind e = 0 → w.bLeft = 0 → w.pendW = 0 →
            exec (.pacerDecide i) s0 = .next (seen s0
              ((s.setPointer i v.ptr v.cnt).modSlot i (fun v => { v with stepDone := true, starve := none })).settle)))
    ∧ (∀ u, (s.rd (O.wMode i) = 0 → v.pendingW = []) → (s.rd (O.wMode i) = 1 → v.pendingW.length ≠ max) → s.jobStageOf i = 0 →
        (if v.replays.isEmpty ∧ s.sinkFor i = true then s.refuseHeads i (s.data.offers.length + 1) else s).admitNext i = (true, u) →
        let e := s.sched i v.ptr
        let ptr := if v.cnt + 1 = seArg e then v.ptr + 1 else v.ptr
        let cnt := if v.cnt + 1 = seArg e then 0 else v.cnt + 1
        seKind e = 1 → v.fOut < s.rd (O.microBatches i) →
        exec (.pacerDecide i) s0 = .next (seen s0 ((u.setPointer i ptr cnt).dispatch i 1 (u.slot i).fOut).settle))

/-- R203, R225: a work item is complete once every core of its slot is HALTED with a work code and its ring blocks are sent; a FAULTED or OFF core is the
stage fault CORE, another HALT code the stage fault PROGRAM; at its deadline an item that is complete is done (a completion in the same microsecond
prevails), and otherwise the cores are stopped and the fault is DEADLINE. -/
def Obligations.WorkItemsEnd : Prop :=
  ∀ (s : State) (i : Nat) (it : Item), i < 16 → (s.slot i).item = some it →
    let ks := (s.slotCores i).map s.core
    ((∀ k ∈ ks, k.state = .halted ∧ k.haltCode ≤ 0x7F) → s.ringComplete i it = true →
      exec (.workItemComplete i) s = .next (seen s (s.itemDone i it).settle))
    ∧ ((∃ k ∈ ks, k.state = .faulted ∨ k.state = .off) →
        exec (.workItemComplete i) s = .next (seen s (s.stageFaultOf i sfCore it.kind it.mb).settle))
    ∧ ((∀ k ∈ ks, k.state ≠ .faulted ∧ k.state ≠ .off) → (∃ k ∈ ks, k.state = .halted ∧ 0x80 ≤ k.haltCode ∧ k.haltCode ≤ 0xFE) →
        exec (.workItemComplete i) s = .next (seen s (s.stageFaultOf i sfProgram it.kind it.mb).settle))
    ∧ (it.due ≤ s.now → (∀ k ∈ ks, k.state = .halted ∧ k.haltCode ≤ 0x7F) → s.ringComplete i it = true →
        exec (.stageDeadline i) s = .next (seen s (s.itemDone i it).settle))
    ∧ (it.due ≤ s.now → ((∃ k ∈ ks, ¬(k.state = .halted ∧ k.haltCode ≤ 0x7F)) ∨ s.ringComplete i it = false) →
        let t := State.each (fun (t : State) (c : Nat) => if (t.core c).active then t.stopCore c else t) s (s.slotCores i)
        exec (.stageDeadline i) s = .next (seen s
          (((t.add (O.stageExpiries i) 1).expiry 4 (t.suspect susSlot i)).stageFaultOf i sfDeadline it.kind it.mb).settle))

/-! ### Memory, versions and the step (chapters 09 to 12) -/

/-- R231: ALLOC_REQUEST maps pages that are not mapped onto free frames, or unmaps pages of its pool. R247: the Optimizer engine updates a layer whose
gradient is delivered, once per attempt. R260: VS_FETCH asks the source and stands open; the answer of a source that matches fills the windows; one that
does not match completes the write with RANGE, and one whose content fails its checks leaves the fetch FAILED. -/
def Obligations.AllocatorOptimizerAndFetch : Prop :=
  (∀ (s : State) (f : Frame), writesWhole s f = true → f.key = O.allocRequest → f.offset = 0 → f.body.length = 16 → requestFits f.body = true →
    let t := inSession s f
    let p := byteField f.body 0 8 / pageSize
    let n := byteField f.body 8 4
    let pool := byteField f.body 12 1
    (∀ fs u, byteField f.body 14 1 = 1 → (∀ q ∈ natsFrom p n, t.mapped q = false) → t.takeFrames (byteField f.body 13 1) 1 0 0 n = some (fs, u) →
      exec (.allocMap f) s = .next (seen s (writeDone f (u.mapPages p pool fs))))
    ∧ (byteField f.body 14 1 = 2 → (∀ q ∈ natsFrom p n, (t.page q).pool = pool ∧ t.inWindow q = false) →
        exec (.allocUnmap f) s = .next (seen s (writeDone f (t.unmapPages (fun t f => t.freeFrame f) p n)))))
  ∧ (∀ (s : State) (i l : Nat), i < 16 → l < 128 →
      (s.layerDue i l = true → exec (.optimizerLayerUpdate i l) s = .next (seen s (s.updateLayer i l).settle))
      ∧ ((s.slot i).layers.contains l = true → exec (.optimizerLayerUpdate i l) s = .next (seen s s.settle)))
  ∧ (∀ (s : State) (f : Frame), writes s f = true → isFetchControl f.key = true → valueOf f = 1 →
      let t := inSession s f
      let i := keySlot f.key
      t.stage i = 0 → t.rd (O.vsFetchState i) ≠ 1 →
      exec (.vsFetch f) s = .next (seen s (answer f true (.open_
        ((t.wr (O.vsFetchState i) 1).emit (.versionFetch (t.rd (O.vsFetchSource i)) (t.fetchRequest i))) (.fetch i)))))
  ∧ (∀ (s : State) (i : Nat) (r : FetchResult), i < 16 → s.rd (O.vsFetchState i) = 1 →
      (s.fetchMatches i r = false →
        exec (.vsFetchDone i r) s = .next (seen s ((s.wr (O.vsFetchState i) 0).complete (.fetch i) stRange).settle))
      ∧ (s.fetchMatches i r = true →
        let t := s.complete (.fetch i) stOk
        (∀ u, r.passed = true → t.takeFetch i r = some u → exec (.vsFetchDone i r) s = .next (seen s u.settle))
        ∧ (r.passed = false → exec (.vsFetchDone i r) s = .next (seen s ((t.wr (O.vsFetchState i) 3).landedFails (t.rd (O.weightBase i))
            (t.suspect susPort (t.arrivalPort (t.rd (O.vsFetchSource i))))).settle))))

/-- R252-R258: the messages of the commit tree. A READY or FAIL of a child takes effect for the open attempt, and waits for one that is still to open;
COMMIT finds the package READY; ABORT ends the attempt, or goes to the children and waits for its attempt; QUERY is answered with the decision applied
or goes to the parent; RESUME goes to the children and begins a held attempt again; a READY package times its wait for the decision. -/
def Obligations.CommitTreeMessages : Prop :=
  (∀ (s : State) (m : CommitMsg), s.commitOk m = true →
    (s.commitChildren.contains m.sender = true → s.ripe m = true →
      (m.type = cmReady → (∀ r ∈ s.commit.ready, r.1 ≠ m.sender) →
        exec (.readyToken m) s = .next (seen s ({ s with commit := { s.commit with
          ready := s.commit.ready ++ [(m.sender, m.reporters, m.reason.testBit 0)] } } : State).settle))
      ∧ (m.type = cmFail → exec (.fail m) s = .next (seen s (s.failUp m.reason m.firstFail m.reporters).settle)))
    ∧ (s.ripe m = false → s.tooSoon m = true →
        (m.type = cmReady → exec (.readyToken m) s = .next (seen s (s.keepEarly m).settle))
        ∧ (m.type = cmFail → exec (.fail m) s = .next (seen s (s.keepEarly m).settle)))
    ∧ (m.type = cmCommit → s.concerns m = true → s.rd O.stepState = 3 →
        exec (.commit m) s = .next (seen s (s.applyDecision cmCommit 0).settle))
    ∧ (m.type = cmAbort → m.action ≤ 2 → s.concerns m = true →
        exec (.abort m) s = .next (seen s (s.applyDecision cmAbort m.action).settle))
    ∧ (m.type = cmAbort → m.action ≤ 2 → s.concerns m = false → s.tooSoon m = true →
        exec (.abort m) s = .next (seen s ((s.sendDown cmAbort m.action m.attempt m.step).keepEarly m).settle))
    ∧ (m.type = cmQuery →
        (∀ type action, s.decisionOn m.step m.attempt = some (type, action) →
          exec (.query m) s = .next (seen s (s.sendCommit m.sender type action m.attempt m.step 0xFFFF 0 0).settle))
        ∧ (s.decisionOn m.step m.attempt = none → s.commitRoot = false →
            exec (.query m) s = .next (seen s (s.emit (.commit (s.rd O.commitParent)
              (commitBytes cmQuery 0 m.attempt m.step m.jobTag m.sender m.firstFail m.reporters m.reason))).settle)))
    ∧ (m.type = cmResume →
        let t := s.sendDown cmResume 0 m.attempt m.step
        (m.step = s.rd O.stepNumber ∨ s.tooSoon m = false →
          exec (.resumeMessage m) s = .next (seen s (t.resumeAt m.step m.attempt).settle))
        ∧ (m.step ≠ s.rd O.stepNumber → s.tooSoon m = true → exec (.resumeMessage m) s = .next (seen s (t.keepEarly m).settle))))
  ∧ (∀ (s : State) (due : Nat), s.commit.pending = some due → s.rd O.stepState = 2 → due ≤ s.now →
      exec .commitWaitTimeout s = .next (seen s
        ((({ s with commit := { s.commit with pending := none } } : State).expiry 7 (s.suspect susPackage 0)).sendFail reTimeout).settle))

/-- R258, R260: COMMIT_CONTROL RESUME begins a held attempt again at the root; RESOLVE_COMMIT and RESOLVE_ABORT decide in doubt; a write of COMMIT_PARENT
that changes it acts as the loss of the former parent. -/
def Obligations.CommitControls : Prop :=
  ∀ (s : State) (f : Frame), writes s f = true →
    let t := inSession s f
    (f.key = O.commitControl →
      (valueOf f = 1 → t.commitRoot = true → t.onHold = true →
        exec (.resume f) s = .next (seen s (writeDone f
          ((t.sendDown cmResume 0 (t.rd O.stepAttempt) (t.rd O.stepNumber)).resumeAt (t.rd O.stepNumber) (t.rd O.stepAttempt)).settle)))
      ∧ (valueOf f = 2 → t.rd O.inDoubt = 1 → exec (.resolveCommit f) s = .next (seen s (writeDone f (t.applyDecision cmCommit 0).settle)))
      ∧ (valueOf f = 3 → t.rd O.inDoubt = 1 → exec (.resolveAbort f) s = .next (seen s (writeDone f (t.applyDecision cmAbort acHold).settle))))
    ∧ (f.key = O.commitParent → t.rd O.commitParent ≠ valueOf f →
        let u := (if t.commitRoot then t else t.parentGone).wr O.commitParent (valueOf f)
        exec (.commitParentWrite f) s = .next (seen s (writeDone f
          ((if u.rd O.inDoubt = 1 ∧ valueOf f ≠ 0xFFFF then
              u.sendCommit (valueOf f % 16384) cmQuery 0 (u.rd O.stepAttempt) (u.rd O.stepNumber) 0xFFFF 0 0 else u).settle))))

/-- R276, R277, R291, R294, R296, R300: a frame of the reduction that is judged right lands in a free receive area, segment by segment, and is accepted
with its last one; a stale one is dropped and counted; a segment that fails its check is dropped; an epoch refusal fails the attempt; a hop timeout
faults its channel; groups are activated and deactivated, and a re-shard is prepared and cancelled. -/
def Obligations.ReductionCommands : Prop :=
  (∀ (s : State) (c : Nat) (p : RedPacket), c < 32 → s.rd (O.rcSlot c) < 16 → s.rgActive (s.rd (O.rcSlot c)) = true → (s.chan c).landing = none →
    let t := s.modChan c (fun k => { k with areas := k.areas + 1 })
    (p.checks = segmentChecks p.segment → s.judge c p.header = .accepted → p.offset = 0 → (s.chan c).areas < 2 →
      (p.segment.length = byteField p.header 24 4 → exec (.reductionPacket c p) s
          = .next (seen s ((t.modChan c (fun k => { k with landing := none })).acceptFrame c p.header p.segment).settle))
      ∧ (p.segment.length < byteField p.header 24 4 → exec (.reductionPacket c p) s
          = .next (seen s (t.modChan c (fun k => { k with landing := some ⟨p.header, p.segment, false⟩ })).settle)))
    ∧ (p.checks = segmentChecks p.segment → s.judge c p.header = .stale → p.offset = 0 →
        exec (.reductionPacket c p) s = .next (seen s ((s.add (O.rcStaleDropped c) 1).swallow c p).settle))
    ∧ (p.checks ≠ segmentChecks p.segment → exec (.reductionPacket c p) s = .next (seen s ((s.frameBad c).swallow c p).settle)))
  ∧ (∀ (s : State) (c : Nat), c < 32 →
      exec (.epochRefusal c) s = .next (seen s ((s.add (O.rcEpochRefused c) 1).sendFail reStage).settle)
      ∧ (∀ due, (s.chan c).waiting = some due → due ≤ s.now →
          exec (.rcHopTimeout c) s = .next (seen s
            ((((s.modChan c (fun k => { k with waiting := none })).expiry 7 (s.suspect susChannel c)).faultChannel c).sendFail reTimeout).settle)))
  ∧ (∀ (s : State) (f : Frame), writes s f = true →
      let t := inSession s f
      let i := keySlot f.key
      (isGroupControl f.key = true → t.stage i = 0 →
        (∀ u, valueOf f = 1 → t.rgActive i = false → t.layoutOk 0 i = true → t.bucketsFree 0 i false = true → t.mapBuckets i = some u →
          exec (.activate f) s = .next (seen s (writeDone f (((u.wr (O.rgState i) 1).resetThinning i).grantAreas i))))
        ∧ (valueOf f = 2 → t.rgActive i = true →
            let u := State.each (fun (t : State) (b : Nat) => t.setBucket i b Bucket.idle) (t.unmapBuckets i) (natsFrom 0 64)
            let w := State.each (fun (t : State) (c : Nat) => (t.setChan c { Channel.idle with credit := (t.chan c).credit }).wr (O.rcState c) 0)
              u (u.channelsOf 0 i)
            exec (.deactivate f) s = .next (seen s (writeDone f ((w.wr (O.rgState i) 0).settle)))))
      ∧ (f.key = O.reshardControl →
          (∀ fs u, valueOf f = 1 → t.rd O.reshardState ≠ 1 → t.rd O.reshardEpoch ≠ t.rd O.layoutEpoch → t.rd O.stepNumber < t.rd O.reshardStep →
            t.nextBankOk = true →
            t.takeFrames 0xFF 2 ownReshard 0 t.reshardFrames = some (fs, u) →
            exec (.reshard f) s = .next (seen s (writeDone f (u.wr O.reshardState 1))))
          ∧ (valueOf f = 2 → t.rd O.reshardState = 1 →
              exec (.reshardCancel f) s = .next (seen s (writeDone f ((t.freeOwner ownReshard).wr O.reshardState 0))))))

/-- R303, R304, R309, R313, R314: DECLARE makes a job that passes its checks current and seeds the Bents; RETRACT ends it. A ring block of the open attempt
that fits lands in its area and goes on where the ring forwards; one that does not fit is the stage fault BATON_CHECK; one over a link that is not UP, or
of an attempt that is over, is discarded and counted; one of the attempt to come waits. A block of another work item finds the complete one completed. -/
def Obligations.JobsAndRingBlocks : Prop :=
  (∀ (s : State) (f : Frame), writes s f = true → f.key = O.jobControl →
    let t := inSession s f
    (valueOf f = 1 → t.declareCheck = stOk →
      exec (.declare f) s = .next (seen s (writeDone f
        ((t.wrAll ((natsFrom 0 48).map (fun b => (O.rngSeed b, t.rd O.jobSeed)))).wr O.jobState 1))))
    ∧ (valueOf f = 2 → t.planned = [] → exec (.retract f) s = .next (seen s (writeDone f (t.wr O.jobState 0)))))
  ∧ (∀ (s : State) (i : Nat) (b : RingBlock), i < 16 → s.stage i ≠ 0 → s.hasRing i = true →
      (∀ it, (s.slot i).item = some it → it.kind = b.kind ∧ it.mb = b.mb ∨ s.itemComplete i it = false) →
      let t := s.relayGot (s.rd (O.ringInRelay i)) 4096
      let key : RingKey := ⟨b.kind, b.mb % 2, b.hop, b.block⟩
      (s.rd (O.relayState (s.rd (O.ringInRelay i))) ≠ 2 →
        exec (.ringBlock i b) s = .next (seen s (s.add (O.ringDiscarded i) 1).settle))
      ∧ (s.rd (O.relayState (s.rd (O.ringInRelay i))) = 2 →
        (t.ringStale b = true → exec (.ringBlock i b) s = .next (seen s (t.add (O.ringDiscarded i) 1).settle))
        ∧ (t.ringStale b = false → b.checkOk = true →
          (t.attemptOpen = true → b.step = t.rd O.stepNumber → b.attempt = t.rd O.stepAttempt →
            (t.ringFits i b = true → exec (.ringBlock i b) s = .next (seen s ((t.landRing i key b.bytes).forwardRing i b.mb key).settle))
            ∧ (t.ringFits i b = false → exec (.ringBlock i b) s
                = .next (seen s (t.stageFaultOf i sfBaton (if b.kind = 2 then 2 else 1) b.mb).settle)))
          ∧ (t.attemptOpen = false → t.attemptAhead b.step b.attempt = true → exec (.ringBlock i b) s
              = .next (seen s (t.modSlot i (fun v => { v with ringEarly := v.ringEarly ++ [b] })).settle)))))
  ∧ (∀ (s : State) (i : Nat) (b : RingBlock) (it : Item), i < 16 → (s.slot i).item = some it → it.kind ≠ b.kind ∨ it.mb ≠ b.mb →
      s.itemComplete i it = true → exec (.ringBlock i b) s = .next (seen s ((s.itemDone i it).ringBlock i b).settle))

/-! ### The data engine (chapter 13) -/

/-- R348, R343: DATA_START takes the rings and begins anew when its checks pass; DATA_STOP stops what runs or is faulted; CLEAR_CLIPS empties the clip list
while stopped. R318-R321: a decoder begins its next slot and its reads; a frame that is no RoCE v2 packet of a live queue pair, or fails its invariant
CRC, is discarded and counted, and a packet takes effect by its opcode. R325-R343, R349: a decoded slot becomes a sample or a drop by what its data and
streams hold; results, cursors, clip notices and retransmissions take effect where their conditions hold. -/
def Obligations.DataEngineCommands : Prop :=
  (∀ (s : State) (f : Frame), writes s f = true → f.key = O.dataControl →
    let t := inSession s f
    (∀ u, valueOf f = 1 → t.startCheck = stOk → t.dropOffers.mapDataRings = some u →
      exec (.dataStart f) s = .next (seen s (writeDone f u.dataBegin)))
    ∧ (valueOf f = 2 → (t.rd O.dataState = 1 ∨ t.rd O.dataState = 3) →
        exec (.dataStop f) s = .next (seen s (writeDone f (t.wr O.dataState 2).settleData)))
    ∧ (valueOf f = 3 → t.rd O.dataState = 0 →
        exec (.clearClips f) s = .next (seen s (writeDone f (t.modData (fun e => { e with clips := [] }))))))
  ∧ (∀ s : State, s.rd O.dataState = 1 → s.isDecoder = true → s.data.next ≤ s.lowestCursor + s.rd O.lookahead → s.epochOpen s.data.next = true →
      let u := s.data.next
      let id := s.slotSample u
      let next := u + s.rd O.decoders
      let t := s.modData (fun e => { e with next := next, jobs := e.jobs ++ [⟨u, id, [], 1, []⟩] })
      let t := (if s.isSink then t else t.wr O.dataCursor next).kpc 0x0F 0 1
      exec .decodeSlot s = .next (seen s (t.readRegion u id (t.rd O.catRegion) (t.rd O.catOffset + 64 * id) 64).settleData.settle))
  ∧ (∀ (s : State) (port qp : Nat), port < 2 → qp < 64 →
      (∀ (fr : Bytes), s.ingestUsed port = true →
        let dropped := (s.add (O.ingestDiscarded port) 1).settleData.settle
        (isPause fr = false →
          (rocePacket fr = none → exec (.ingestFrame port fr) s = .next (seen s dropped))
          ∧ (∀ p, rocePacket fr = some p →
            (s.roceQp port p = none → exec (.ingestFrame port fr) s = .next (seen s dropped))
            ∧ (∀ k, s.roceQp port p = some k →
              (p.checkOk = false → exec (.ingestFrame port fr) s = .next (seen s dropped))
              ∧ (p.checkOk = true →
                (isReadResponse p.opcode = true →
                  exec (.ingestFrame port fr) s = .next (seen s (s.readResponse k p).settleData.settle))
                ∧ (isReadResponse p.opcode = false → p.sequenceNak = true →
                  exec (.ingestFrame port fr) s = .next (seen s (s.retransmit k).settleData.settle))
                ∧ (isReadResponse p.opcode = false → p.sequenceNak = false → p.congestion = true →
                  exec (.ingestFrame port fr) s
                    = .next (seen s (s.modQp k (fun q => { q with rate := max 1 (q.rate / 2), paced := s.now })).settleData.settle))))))
        ∧ (∀ q, isPause fr = true → pauseOf fr (s.rd O.ingestPfcPriority) = some q →
          exec (.ingestFrame port fr) s = .next (seen s ((s.modData (fun e =>
            { e with pauses := e.pauses.set 0 port (if q = 0 then 0 else s.now + pauseTime q) })).startAll).settleData.settle)))
      ∧ (∀ due, (s.qp (64 * port + qp)).due = some due → due ≤ s.now →
          exec (.rdmaTimeout port qp) s = .next (seen s (s.retransmit (64 * port + qp)).settleData.settle))
      ∧ ((s.qp (64 * port + qp)).paced + 55 ≤ s.now → exec (.rateRecovery port qp) s
          = .next (seen s (s.modQp (64 * port + qp) (fun q => { q with rate := min 1048576 (q.rate + 65536), paced := s.now }))))
      ∧ (∀ up, exec (.ingestLinkChange port up) s = .next (seen s (s.wr (O.ingestLinkState port) (up && s.ingestUsed port).toNat))))
  ∧ (∀ (s : State) (u : Nat) (d : Decoded) (j : DecodeJob), s.job u = some j → j.record ≠ [] → j.left = 0 → s.rd O.dataState ≠ 0 →
      let kept := s.framesKept j (j.decoded d)
      (j.decoded d = none →
        exec (.slotDecoded u d) s = .next (seen s ((s.add O.damageEvents j.programme.events).dropSlot u j.id 3).settleData.settle))
      ∧ (∀ o, j.decoded d = some o →
        let t := s.countDecoded o
        (s.decodedCause (some o) kept = 0 → exec (.slotDecoded u d) s = .next (seen s (t.deliver j o kept).settleData.settle))
        ∧ (∀ cause, s.decodedCause (some o) kept = cause → cause ≠ 0 →
          (¬(cause = 5 ∧ t.rd O.damagePolicy = 2) → exec (.slotDecoded u d) s = .next (seen s (t.dropSlot u j.id cause).settleData.settle))
          ∧ (cause = 5 → t.rd O.damagePolicy = 2 → exec (.slotDecoded u d) s
              = .next (seen s (((t.clipSample (byteField j.record 40 8) (t.slotEpoch u)).dropSlot u j.id cause).settleData.settle))))))
  ∧ (∀ (s : State) (u : Nat) (p : SlotPayload), s.decoderAt (u % s.rd O.decoders) ≠ s.node.id → s.rd O.dataState = 1 → s.isSink = true →
      s.data.expect ≤ u → (∀ a ∈ s.data.arrived, a.1 ≠ u) →
      (p ≠ .transferFailed →
        let t := s.modData (fun e => { e with arrived := e.arrived ++ [(u, p)] })
        exec (.slotTransfer u p) s = .next (seen s ((t.assemble t.data.arrived.length).settleSink).settle))
      ∧ (p = .transferFailed → s.data.failures.get 0 u + 1 < 3 →
          exec (.slotTransfer u p) s = .next (seen s
            ((s.modData (fun e => { e with failures := e.failures.set 0 u (s.data.failures.get 0 u + 1) })).emit
              (.slotAgain (s.decoderAt (u % s.rd O.decoders)) u)).settle)))
  ∧ (∀ (s : State) (d source epoch : Nat), s.isDecoder = true → s.decoderAt d ≠ 0xFFFF → s.decoderAt d ≠ s.node.id → source ≠ 2 ^ 64 - 1 →
      exec (.clipNotice d source epoch) s = .next (seen s (s.enterClip source epoch).settle))
  ∧ (∀ (s : State) (sink cursor : Nat), s.isDecoder = true → sink < 128 → s.rd O.dataState ≠ 0 → s.rd (O.sinkTable sink) ≠ 0xFFFF →
      s.rd (O.sinkTable sink) ≠ s.node.id → exec (.cursorMessage sink cursor) s = .next (seen s (s.takeCursor sink cursor).settle))

/-! ### The network (chapter 14) -/

/-- R357-R364: the life of a torus port: light, hellos, training, identity, losses, hold-downs and its controls. -/
def Obligations.TorusPortLife : Prop :=
  (∀ (s : State) (n : Nat), n < 6 →
    let st := s.pstate n
    (st = ptDark → exec (.lightDetect n) s = .next (seen s ((s.modTport n (fun p => { p with light := true })).idlePort n).settle))
    ∧ (∀ r, r.kind = 1 → s.recordPasses n r = true →
        (st = ptUp → exec (.hello n r) s = .next (seen s (s.modTport n (fun p => { p with lastHello := s.now })).settle))
        ∧ (st = ptBeacon → r.iflags.testBit 3 = false → 1 ≤ (s.tport n).hellos →
            exec (.hello n r) s = .next (seen s ((s.setPstate n ptBeacon).beginTraining n).settle)))
    ∧ (∀ r, r.kind = 1 → s.recordPasses n r = false → (st = ptBeacon ∨ st = ptUp ∨ st = ptMiswired) →
        exec (.hello n r) s = .next (seen s (s.miswire n r).settle))
    ∧ (st ≠ ptDisabled → st ≠ ptTraining → st ≠ ptIdentity → s.elapsed (s.tport n).beacon s.beaconInterval = true →
        exec (.beaconSend n) s = .next (seen s ((s.sendIdentity n 1).modTport n (fun p => { p with beacon := s.now })).settle))
    ∧ (∀ r, st = ptIdentity → r.kind = 2 → s.recordPasses n r = true →
        let t := ((s.takePartner n r).setPstate n ptUp).modTport n (fun p =>
          { p.cleared with step := 0, lastHello := s.now, beacon := s.now, upSince := s.now, replays := [] })
        let u := (t.add (O.upCount n) 1).partnerEvent 1 n r.packageId r.digest
        exec (.identity n r) s = .next (seen s (((u.takeLine (n / 2) r.lineDown).ownLinks (n / 2)).linkChanged n false).settle))
    ∧ (∀ r, st = ptUp → r.kind = 3 → s.recordPasses n r = true →
        exec (.identityUpdate n r) s = .next (seen s ((s.takePartner n r).partnerEvent 5 n r.packageId r.digest).settle))
    ∧ ((st = ptTraining ∨ st = ptIdentity) → (s.tport n).since + trainBound (s.tport n).step ≤ s.now →
        exec (.trainStepTimeout n) s = .next (seen s ((s.idlePort n).add (O.trainFails n) 1).settle))
    ∧ (st = ptTraining →
        ((s.tport n).step = 2 → ∀ a b, exec (.torusTrainingStepDone n a b) s
          = .next (seen s (s.modTport n (fun p => { p with step := 3, since := s.now })).settle))
        ∧ ((s.tport n).step = 4 → ∀ a b, exec (.torusTrainingStepDone n a b) s
            = .next (seen s (((s.setPstate n ptIdentity).modTport n (fun p => { p with step := 5, since := s.now })).sendIdentity n 2).settle)))
    ∧ (∀ lanes, s.portUp n = true → lanes % 2 ^ s.rd (O.lanesUsed n) = 2 ^ s.rd (O.lanesUsed n) - 1 →
        exec (.lightLoss n lanes) s = .next (seen s ((s.modTport n (fun p => { p with light := false })).portLost n).settle))
    ∧ (s.portUp n = true → s.elapsed (s.tport n).lastHello (3 * s.beaconInterval) = true →
        exec (.helloTimeout n) s = .next (seen s (s.portLost n).settle))
    ∧ (st = ptHeld → (s.tport n).holdUntil ≤ s.now →
        exec (.holdExpiry n) s = .next (seen s ((s.idlePort n).modTport n (fun p => { p with flaps := [] })).settle))
    ∧ (s.portUp n = true → s.elapsed (s.tport n).upSince (s.rd O.holdMax * 1000000) = true →
        exec (.holdBaseRestore n) s = .next (seen s (s.wr (O.holdNext n) (s.rd O.holdBase)).settle)))
  ∧ (∀ (s : State) (f : Frame), writes s f = true → isPortControl f.key = true →
      let t := inSession s f
      let n := keyIndex f.key - 0x7010
      (valueOf f = 1 → t.pstate n = ptDisabled → t.dimSize (n / 2) ≠ 1 → t.domainOn (0x40 + n) = true →
        exec (.portEnable f) s = .next (seen s (writeDone f (t.darkPort n)).settle))
      ∧ (valueOf f = 2 →
          ((t.tport n).lostAt ≠ some t.now → exec (.portDisable f) s = .next (seen s (writeDone f (t.disablePort n)).settle))
          ∧ ((t.tport n).lostAt = some t.now →
            let u := t.disablePort n
            exec (.portDisable f) s = .next (seen s (writeDone f
              ((u.wr (O.lossCount n) (u.rd (O.lossCount n) - 1)).modTport n (fun p =>
                { p with lostAt := none, flaps := p.flaps.filter (fun f => decide (f ≠ t.now)) }))).settle)))
      ∧ (valueOf f = 3 → t.pstate n = ptUp →
          exec (.portRetrain f) s = .next (seen s (writeDone f ((t.leaveUp n ptTraining).beginTraining n)).settle))
      ∧ (valueOf f = 4 → t.pstate n = ptHeld →
          exec (.clearHold f) s = .next (seen s (writeDone f
            (((t.idlePort n).modTport n (fun p => { p with flaps := [] })).wr (O.holdNext n) (t.rd O.holdBase))).settle)))

/-- R355, R356, R366-R374: the link layer and the switch. A good flit in sequence is taken into its buffer, one that is not good is discarded with a NAK,
and one out of sequence is passed over; a NAK replays what it names; a packet for another package goes on or is discarded and its source told, one for
this package is delivered; notices, keepalives and flow resets. -/
def Obligations.LinkLayerAndSwitch : Prop :=
  (∀ (s : State) (n : Nat), n < 6 → s.portUp n = true →
    (∀ fl, let t := s.add (O.fecCorrected n) fl.corrected
      let p := (t.tport n).acknowledge fl
      let v := flitBuffer fl.vc
      let got := { p with rx := fl.linkSeq, awaits := false }
      (flitGood fl = false →
        let u := (t.add (O.fecUncorrected n) 1).modTport n (fun p => { p with awaits := true })
        exec (.flit n fl) s = .next (seen s ((u.put (.nak n (u.tport n).rx)).putFlit n 4 0 (u.tport n).rx []).settle))
      ∧ (flitGood fl = true →
        (fl.kind = 0 → exec (.flit n fl) s = .next (seen s (((t.setTport n p).pump n).tell).settle))
        ∧ ((fl.kind = 1 ∨ fl.kind = 2) → fl.linkSeq = (p.rx + 1) % 65536 → v ≤ 10 → p.held.get 0 v < vcBuffer v →
          exec (.flit n fl) s
            = .next (seen s ((((((t.setTport n (got.takeFlit fl)).add (O.flitsReceived n) 1).kpc 0x09 n 1).pump n).tell).settle)))
        ∧ (fl.kind = 3 → fl.linkSeq = (p.rx + 1) % 65536 →
          exec (.flit n fl) s = .next (seen s ((((((t.setTport n got).add (O.flitsReceived n) 1).kpc 0x09 n 1).pump n).tell).settle)))
        ∧ (1 ≤ fl.kind → fl.kind ≤ 3 → fl.linkSeq ≠ (p.rx + 1) % 65536 →
          exec (.flit n fl) s = .next (seen s ((t.setTport n p).tell).settle))))
    ∧ (∀ seq, let p := s.tport n
        let done := (seq + 65536 - p.acked) % 65536
        let rs := p.replays.filter (fun t => decide (s.now < t + 1000)) ++ [s.now]
        let again := p.window.drop done
        let t := ((s.setTport n { p with acked := seq, window := again, replays := rs }).add (O.linkReplays n) 1).put
          (.replay n ((seq + 1) % 65536) again.length)
        let u := State.each (fun (t : State) (x : SentFlit) => t.putFlit n x.kind x.vc x.seq x.payload) t again
        done ≤ p.window.length → exec (.nak n seq) s = .next (seen s (if 8 ≤ rs.length then u.retrainPort n else u.pump n).settle))
    ∧ (∀ (vc : Nat) (given : Packet), given.cls ≤ 4 → (vc < if given.cls = 4 then 3 else 2) →
        let v := 2 * given.cls + vc
        let port := s.tport n
        let run := fun (t : State) (p : Packet) (come : Bool) =>
          let u := if come then t.freeFlits n v (pieces 608 p.bytes).length else t
          (p.dest = s.node.id → p.dest < s.torusSize → exec (.packet n vc given) s = .next (seen s ((u.deliverPacket p).tell).settle))
          ∧ (p.dest < s.torusSize → p.dest ≠ s.node.id →
              exec (.packet n vc given) s = .next (seen s ((t.passPacket n vc p come).tell).settle))
          ∧ (s.torusSize ≤ p.dest → exec (.packet n vc given) s = .next (seen s ((u.discardPacket O.unreachable p).tell).settle))
        ((∀ a ∈ port.arrived, a.1 ≠ v) → run s given false)
        ∧ (∀ a, port.arrived.find? (fun a => decide (a.1 = v)) = some a →
            run (s.setTport n { port with arrived := port.arrived.erase (v, a.2) }) a.2 true))
    ∧ (∀ link down origin, link < s.dimSize (n / 2) → origin ≠ s.node.id →
        let ports := [2 * (n / 2), 2 * (n / 2) + 1].filter (fun m => decide (s.portLink m = link))
        exec (.lineNotice n (n / 2) link down origin) s = .next (seen s
          ((s.setRing (n / 2) link (down || ports.any (fun m => !s.portUp m))).lineOut (n ^^^ 1) (n / 2) link down origin).settle)))
  ∧ (∀ (s : State) (p : Nat),
      (s.remotePartners.contains p = true → s.elapsed (s.torus.sentTo.get 0 p) s.beaconInterval = true →
        exec (.keepalive p) s = .next (seen s (s.emit (.keepalive p)).settle))
      ∧ (s.elapsed (s.torus.heard.get 0 p) (3 * s.beaconInterval) = true →
          exec (.remotePartnerTimeout p) s = .next (seen s (s.remoteLost p).settle))
      ∧ (∀ q : Packet,
          (q.cls = 4 → exec (.unreachableNotice q p) s = .next (seen s ((s.bulkCreditIn p 1).remoteLost p).settle))
          ∧ (q.cls ≠ 4 → q.unit ≠ 0x01 → exec (.unreachableNotice q p) s = .next (seen s (s.remoteLost p).settle))
          ∧ (∀ x, q.cls ≠ 4 → q.unit = 0x01 → byteField q.payload 1 1 ≠ 4 →
              s.mgmt.proxies.find? (fun x => decide (x.dest = p) && decide (x.seq = byteField q.payload 4 2)
                && decide (x.session = byteField q.payload 6 2)) = some x →
              let o : Outstanding := ⟨x.session, x.seq, byteField q.payload 2 1, 0, x.source, 4, x.carrier, x.station, s.now, false, .prisum stState⟩
              let t : State := { s with mgmt := { s.mgmt with proxies := s.mgmt.proxies.erase x } }
              exec (.unreachableNotice q p) s
                = .next (seen s (((t.send x.carrier x.source (completionFrame t o 2 stState [])).remoteLost p)).settle)))
      ∧ (∀ cls, exec (.flowReset p cls) s = .next (seen s { s with torus := { s.torus with
          flowsOut := s.torus.flowsOut.set Flow.fresh (8 * p + cls) { s.torus.flowsOut.get Flow.fresh (8 * p + cls) with mark := true } } })))
  ∧ (∀ (s : State) (dim link : Nat),
      exec (.routeRejoin dim link) s = .next (seen s { s with torus := { s.torus with rejoin := s.torus.rejoin.filter (fun r =>
        decide (r.dim ≠ dim) || decide (r.link ≠ link) || !s.elapsed r.since (s.rd O.routeRejoinHold)) } }))

/-- R376-R383: the time, the host link and the Tally port: Sync and Follow_Up from the parent port give an offset, a Pdelay_Req is answered and its answers
give the path delay, an UP port sends what is due; TIME_SET steps the time of a root; the host link trains, comes up with its width and is reset; the
Tally link comes and goes, and the time is held over where it was the parent. -/
def Obligations.TimeHostAndTally : Prop :=
  (∀ (s : State) (n : Nat) (m : PtpMsg), (n < 6 ∧ s.portUp n = true) ∨ (n = 9 ∧ s.rd O.tallyLinkState = 1 ∧ s.rd O.timeParent = 9) →
    m.domain = s.rd O.timeDomain →
    (m.kind = 0 → s.rd O.timeParent = n →
      exec (.ptpMessage n m) s = .next (seen s (s.setTport n { s.tport n with ptp := { (s.tport n).ptp with syncSeq := m.seq, syncAt := m.arrival } })))
    ∧ (m.kind = 1 → s.rd O.timeParent = n → m.seq = (s.tport n).ptp.syncSeq →
        exec (.ptpMessage n m) s
          = .next (seen s (s.timeOffset (((s.tport n).ptp.syncAt : Int) - m.stamp - s.pathDelay n - s.asymmetry n))))
    ∧ (m.kind = 2 → n < 6 → exec (.ptpMessage n m) s = .next (seen s ((s.putPtp n 3 m.seq m.arrival).putPtp n 4 m.seq s.time)))
    ∧ (m.kind = 3 → n < 6 → m.seq = (s.tport n).ptp.reqSeq → (s.tport n).ptp.reqAt.isSome = true →
        exec (.ptpMessage n m) s
          = .next (seen s (s.setTport n { s.tport n with ptp := { (s.tport n).ptp with t2 := m.stamp, t4 := m.arrival } })))
    ∧ (m.kind = 4 → n < 6 → m.seq = (s.tport n).ptp.reqSeq → (s.tport n).ptp.t4 ≠ 0 →
        let q := (s.tport n).ptp
        let d : Int := ((q.t4 : Int) - q.t1 - ((m.stamp : Int) - q.t2)) / 2
        exec (.ptpMessage n m) s
          = .next (seen s ((s.wr (O.pdelay n) (unsignedBits 32 d)).setTport n { s.tport n with ptp := { q with t4 := 0 } }))))
  ∧ (∀ (s : State) (n : Nat), n < 6 → s.portUp n = true → exec (.ptpSend n) s = .next (seen s (s.ptpOut n)))
  ∧ (∀ (s : State) (f : Frame), writes s f = true → f.key = O.timeSet → (inSession s f).rd O.timeParent = 0xFF →
      let t := inSession s f
      exec (.timeSet f) s = .next (seen s (writeDone f ({ t.wr O.timeNow (valueOf f) with torus := { t.torus with frac := 0 } } : State))))
  ∧ (∀ s : State,
      (∀ r : HostReset,
        let t := s.hostReset r
        exec (.hostLinkReset r) s = .next (seen s t)
        ∧ (∀ e ∈ t.mgmt.sessions, e ∈ s.mgmt.sessions ∧ e.carrier ≠ .host)
        ∧ (∀ e ∈ s.mgmt.sessions, (∀ d ∈ s.mgmt.sessions, d.carrier = .host → d.id ≠ e.id) → e ∈ t.mgmt.sessions)
        ∧ t.mgmt.requests = [] ∧ t.mgmt.responses = [] ∧ t.mgmt.held = [] ∧ t.mgmt.events = [] ∧ t.mgmt.msiEnabled = false
        ∧ t.mgmt.host = HostConfig.reset ∧ t.mgmt.proxies = s.mgmt.proxies ∧ t.rd O.hostLinkDowns = s.rd O.hostLinkDowns + 1
        ∧ (s.objs.wf objDefault = true → t.rd O.hostReplays = s.rd O.hostReplays + r.replays)
        ∧ (∀ k, k ∉ [O.hostReplays, O.hostLinkDowns, O.hostLinkState, O.hostLanesUsed, O.hostWidth] → t.rd k = s.rd k)
        ∧ t.cores = s.cores ∧ t.bents = s.bents ∧ t.queues = s.queues ∧ t.flights = s.flights ∧ t.frames = s.frames ∧ t.pages = s.pages
        ∧ t.slots = s.slots ∧ t.lanes = s.lanes ∧ t.commit = s.commit ∧ t.buckets = s.buckets ∧ t.chans = s.chans ∧ t.data = s.data
        ∧ t.dies = s.dies ∧ t.doms = s.doms ∧ t.faults = s.faults ∧ t.start = s.start)
      ∧ (∀ h : HostTrained, s.domainOn 0x47 = true → s.rd O.hostLinkState = 2 →
          let w := hostWidths h.lanes
          let t := s.wrAll [(O.hostLanesUsed, w.1), (O.hostWidth, w.2), (O.hostLinkState, if w.1 = 0 then 0 else 3)]
          exec (.hostLinkUp h) s = .next (seen s
            (({ t with mgmt := { t.mgmt with msiEnabled := h.config.msix, host := h.config } } : State).modTport 8 (fun p => { p with step := 0 }))))
      ∧ (s.rd O.hostLinkState < 2 → s.domainOn 0x47 = true →
          let p := s.tport 8
          (∀ a b, (p.step < 3 → exec (.torusTrainingStepDone 8 a b) s
              = .next (seen s ((s.wr O.hostLinkState 1).setTport 8 { p with step := 3, since := s.now })))
            ∧ (p.step = 3 → laneCount (a &&& b) 6 ≠ 0 → exec (.torusTrainingStepDone 8 a b) s
              = .next (seen s ((s.setTport 8 { p with mask := a % 64, step := 4, since := s.now }).reviseLanes 8 (laneCount a 6))))
            ∧ (p.step = 4 → exec (.torusTrainingStepDone 8 a b) s
              = .next (seen s ((s.wr O.hostLinkState 2).setTport 8 { p with step := 5 }))))
          ∧ (2 ≤ p.step → p.step ≤ 4 → p.since + trainBound p.step ≤ s.now →
              exec (.trainStepTimeout 8) s = .next (seen s ((s.wr O.hostLinkState 0).modTport 8 (fun p => { p with step := 2, since := s.now })))))
      ∧ exec (.tallyLinkChange true) s = .next (seen s (s.wr O.tallyLinkState 1))
      ∧ (s.rd O.timeParent ≠ 9 → exec (.tallyLinkChange false) s = .next (seen s (s.wr O.tallyLinkState 0)))
      ∧ (s.rd O.timeParent = 9 → s.rd O.tallyLinkState = 1 →
          exec (.tallyLinkChange false) s = .next (seen s ((s.wr O.tallyLinkState 0).wr O.timeState 3))))

/-! ### The die fabric (chapter 15) -/

/-- R388, R399-R402, R405: a die link trains: each end claims what passed its test, both claims that agree bring the link UP, a failed or late training charges
its dies, the retry comes 1 ms later; a flit whose CRC fails is counted and replayed; RETRAIN begins a training of an UP link. -/
def Obligations.DieLinkTraining : Prop :=
  (∀ (s : State) (n : Nat), n < 10 →
    let l := s.dieLink n
    (∀ mask repaired, s.rd (O.slState n) = 1 → l.step = 1 → l.claimA = none → l.claimB = none →
      let c : DieClaim := ⟨l.epochA, mask % 256, claimWidth (mask % 256) l.cap⟩
      let t := s.setDieLink n { l with claimA := some c }
      exec (.dieLinkTestDone n false mask repaired) s = .next (seen s
        ((t.wr (O.slLanesRepaired n) (min 255 (t.rd (O.slLanesRepaired n) + repaired))).wr (O.slLocalClaim n) c.word).settle))
    ∧ (∀ a b : DieClaim, s.rd (O.slState n) = 1 → l.claimA = some a → l.claimB = some b → l.gotB = true →
        exec (.claim n false a.epoch a.mask a.width) s = .next (seen s ((s.setDieLink n { l with gotA := true }).judgeClaims n a b).settle))
    ∧ (∀ a b : DieClaim, a.epoch = b.epoch → a.width = b.width → a.mask &&& b.mask ≠ 0 → a.width ≤ laneCount (a.mask &&& b.mask) 8 →
        s.judgeClaims n a b = s.linkReady n a.width (lowestModules (a.mask &&& b.mask) a.width))
    ∧ (s.rd (O.slState n) = 1 → (l.since + dieTrainBound l.step ≤ s.now ∨ l.began + s.rd O.slRetrainBound ≤ s.now) →
        exec (.dieTrainTimeout n) s = .next (seen s (s.trainingFails n).settle))
    ∧ (∀ due, l.retryAt = some due → due ≤ s.now → s.rd (O.slState n) = 0 → s.linkLive n = true →
        exec (.dieTrainRetry n) s = .next (seen s (s.trainLink n 8 false).settle))
    ∧ (s.rd (O.slState n) = 2 →
        exec (.scarfFlit n true) s = .next (seen s (s.kpc 0x07 n 1).settle)
        ∧ (let times := s.now :: l.replays.filter (fun x => decide (s.now < x + 100))
            let t := (((s.kpc 0x07 n 1).add (O.slCrcErrors n) 1).add (O.slReplays n) 1).setDieLink n { l with replays := times }
            times.length < s.rd O.slRetryLimit → exec (.scarfFlit n false) s = .next (seen s t.settle))))
  ∧ (∀ (s : State) (f : Frame), writes s f = true → isSlControl f.key = true →
      let t := inSession s f
      let n := keyIndex f.key - 0xB000
      t.rd (O.slState n) = 2 → exec (.slRetrain f) s = .next (seen s (writeDone f (t.trainLink n 8 false))))

/-- R389-R396: the die protocol, of the compute dies and of the IOD (die 4): a READ and a WRITE that are next on their way reach the home of their block, and
a unit whose requests this model does not form sends them; a write by the home die starts there; READ_DATA fills a line and serves its unit; INVALIDATE
drops the line and is acknowledged; INV_ACK and WRITE_ACK end their waits; INT reaches the Prisum; RLC_ENABLE 0 empties the cache. -/
def Obligations.DieProtocol : Prop :=
  (∀ (s : State) (d block : Nat), d < 5 →
    let h := homeOf block
    let c := s.cache d
    (h ≠ d → s.reaches d block = true →
      (∀ m, s.inTransit .read d h block = true → s.nextDie .read d h block = some m →
        exec (.dieRead d block) s = .next (seen s ((s.takeDie m).homeRead d block).settle))
      ∧ (s.inTransit .read d h block = false → (onLink h c.reads).length < 256 → s.rlcOn d = false →
        let t := (s.setCache d { c with reads := c.reads ++ [⟨block, none, none⟩] }).sendDie ⟨.read, d, h, block, none⟩
        exec (.dieRead d block) s = .next (seen s (t.readIn d block).settle))
      ∧ (∀ bytes m, s.inTransit .write d h block = true → s.nextDie .write d h block = some m →
        exec (.dieWrite d block bytes) s = .next (seen s ((s.takeDie m).homeWrite d block (m.content.getD Map.empty)).settle))
      ∧ (∀ bytes, s.inTransit .write d h block = false → (onLink h c.writes).length < 64 →
        let t := (s.setCache d { c with writes := c.writes ++ [⟨block, none, some bytes⟩] }).sendDie ⟨.write, d, h, block, some bytes⟩
        exec (.dieWrite d block bytes) s = .next (seen s (t.writeIn d block).settle)))
    ∧ (∀ bytes, h = d → s.reaches d block = true → exec (.dieWrite d block bytes) s = .next (seen s (s.homeWrite d block bytes).settle))
    ∧ (∀ m, s.nextDie .readData h d block = some m →
        let t := s.takeDie m
        exec (.readData d block) s = .next (seen s ((t.setCache d { t.cache d with
          lines := if t.rlcOn d then fillLine (t.cache d).lines block else (t.cache d).lines }).opDone d block false).settle))
    ∧ (∀ m, s.nextDie .writeAck h d block = some m → exec (.writeAck d block) s = .next (seen s ((s.takeDie m).opDone d block true).settle))
    ∧ (d < 4 →
      (∀ m, s.nextDie .invalidate h d block = some m → exec (.invalidate d block) s
          = .next (seen s (((s.takeDie m).invalidateLine block d).sendDie ⟨.invAck, d, h, block, none⟩)))
      ∧ (∀ m, s.nextDie .invAck d h block = some m → exec (.invAck d block) s = .next (seen s ((s.takeDie m).homeAck d block).settle))
      ∧ (∀ index sub, s.diesJoined d 4 = true → exec (.intMessage d index sub) s = .next (seen s (s.raiseEvent (index * 256 + sub))))))
  ∧ (∀ (s : State) (f : Frame), writes s f = true → isRlcEnable f.key = true →
      let d := keyIndex f.key - 0xB020
      let t := (inSession s f).wr f.key (valueOf f)
      (valueOf f = 0 → exec (.rlcEnableWrite f) s = .next (seen s (writeDone f (t.setCache d { t.cache d with lines := [], missed := none }))))
      ∧ (valueOf f ≠ 0 → exec (.rlcEnableWrite f) s = .next (seen s (writeDone f t))))

/-! ### Integrity (chapter 16) -/

/-- R411-R434: a scrub reads its stack's next mapped frame and corrects what it can; a sampled MM is recomputed and compared; implications expire; the
expiries of levels 3, 5 and 6; reports come from children and leave for the parent. -/
def Obligations.IntegrityCommands : Prop :=
  (∀ (s : State) (k : Nat) (errors : List LineErrors), k < 12 → s.rd O.scrubPeriod ≠ 0 → s.stackOn k = true →
    exec (.scrubRead k errors) s = .next (seen s (s.scrub k errors).settle)
    ∧ ((∀ e ∈ s.framesOf k, e.2.use = 1 → e.1 < s.dies.scrub.get 0 k) →
        s.scrub k errors = ({ s with dies := { s.dies with scrub := s.dies.scrub.set 0 k 0 } } : State).add (O.scrubPasses k) 1))
  ∧ (∀ (s : State) (c : Nat) (errors : List (Nat × W32)) (r : Recompute), c < 3072 → (s.core c).sample = some r →
      let k := s.core r.owner
      let found := tileErrors (mmRun r.x ⟨k.mem, (s.bent (r.owner / 64)).mem⟩ r.desc r.start).1 errors
      let t := (s.modCore c (fun k => { k with sample := none })).add O.recomputeSampled 1
      tileDiffers r.result found = 0 →
      ((s.core c).matrixIdle = true → exec (.recomputeRun c errors) s = .next (seen s (t.sampleDone r.owner c).settle))
      ∧ (r.since + 16384 ≤ s.coreCycles c → exec (.recomputeForce c errors) s = .next (seen s (t.sampleDone r.owner c).settle)))
  ∧ (∀ (s : State) (suspect : Nat),
      exec (.implicationExpiry suspect) s = .next (seen s { s with faults := { s.faults with
        implications := s.faults.implications.filter (fun e => decide (e.suspect ≠ suspect) || decide (s.time ≤ e.last + s.implicateWindow)) } }))
  ∧ (∀ s : State,
      (∀ b engine, b < 48 → engine ≤ 5 → s.bentOn b = true → exec (.bentTimeout b engine) s = .next (seen s (s.bentExpires b engine).settle))
      ∧ (∀ d u, d < 4 → u / 3 = d → u < 12 → s.stackOn u = true → ∀ sus, susKind sus = susStack → susUnit sus = u →
          exec (.dieTimeout d sus) s = .next (seen s (s.expiryOf 5 (s.suspect susStack u)).settle))
      ∧ (s.rd O.drainState = 0 → s.overdueSlots ≠ [] →
          let own := s.suspect susPackage 0
          let t := (s.add (O.timeoutExpiries 5) 1).record 5 own 0xFFFFFFFF (6 * 2 ^ 24) 4
          exec .packageTimeout s = .next (seen s ((State.each State.forceStop t s.overdueSlots).startDrain 4 own).settle)))
  ∧ (∀ (s : State) (f : Frame), s.served = true → s.walk = false → f.carrier = .torus → f.intact = true → f.version = 1 → f.kind = 4 → f.session = 0 →
      f.dest = s.node.id → f.key = O.faultReport → recordGood f.body = true →
      let t := ((s.trace f).add O.framesReceived 1).kpc 0x10 0 1
      exec (.faultReport f) s = .next (seen s ((t.setDom O.faultReport (Map.setBytes Map.empty 0#8 0 f.body)).addReport f.body)))
  ∧ (∀ (s : State) (suspect cls step : Nat) (p : Report),
      s.faults.reports.find? (fun p => decide (recSuspect p.record = suspect) && decide (recClass p.record = cls) && decide (recStep p.record = step))
        = some p → s.reportDue p = true →
      let r := if s.faults.overflow then withOverflow p.record else p.record
      let left := (suspect, s.now) :: s.faults.left.filter (fun e => decide (e.1 ≠ suspect))
      let t := ({ s with faults := { s.faults with reports := s.faults.reports.erase p, overflow := false, left := left } } : State).add O.reportsSent 1
      (s.rd O.faultParent = 0xFFFF → exec (.reportSend suspect cls step) s = .next (seen s
        (({ t with faults := { t.faults with delivered := takeLast 256 (t.faults.delivered ++ [r]) } } : State).raiseEvent O.lastReport)))
      ∧ (s.rd O.faultParent ≠ 0xFFFF → exec (.reportSend suspect cls step) s = .next (seen s
          (({ t with faults := { t.faults with seq := (t.faults.seq + 1) % 65536 } } : State).send .torus (s.rd O.faultParent % 16384)
            (t.reportFrame r)))))

/-- R423: DRAIN is accepted only in SERVING and UNDRAIN only in DRAINED with the flag clear, any other use returns STATE; DRAIN_FLAG changes only
through a signed service write of 0, any other value returns RANGE; that write empties IMPLICATIONS, clears FLAGGED and keeps the drain state. -/
def Obligations.DrainControlAndDrainFlag : Prop :=
  (∀ (s : State) (f : Frame), writes s f = true → f.key = O.drainControl →
    let t := inSession s f
    let st := t.rd O.drainState
    (valueOf f = 1 → exec (.drain f) s = .next (seen s
      (if st = 0 then writeDone f (t.startDrain 5 0xFFFFFFFF) else answered f t stState []).settle))
    ∧ (valueOf f = 2 → exec (.undrain f) s = .next (seen s
        (if st = 2 ∧ t.rd O.drainFlag = 0 then writeDone f (t.wr O.drainState 0) else answered f t stState []).settle)))
  ∧ (∀ (s : State) (f : Frame), asks s f cmdServiceWrite = true → f.carrier ≠ .torus → (∀ u, s.mgmt.lockedUntil = some u → u ≤ s.now) →
    serviceLength f.body = 1 → f.body.length = 81 → (inSession s f).serviceAccepts f = true → f.key = O.drainFlag → f.index = keyIndex O.drainFlag →
    let t := (inSession s f).wr O.serviceNonce (byteField f.body 0 8)
    let u : State := { t.wr O.drainFlag 0 with faults := { t.faults with implications := [] } }
    byteField f.body 16 1 = 0 →
      exec (.serviceWrite f) s = .next (seen s (s.afterWrite f (writeDone f u)).settle)
      ∧ u.rd O.drainState = t.rd O.drainState ∧ (s.objs.wf objDefault = true → u.rd O.drainFlag = 0 ∧ u.iflags / 4 % 2 = 0))
  ∧ (∀ (s : State) (level len v : Nat), checkWrite s level O.drainFlag len v = stOk → 2 ≤ level ∧ v = 0)
  ∧ (∀ (s : State) (v : Nat), v ≠ 0 → v < 256 → checkWrite s 2 O.drainFlag 1 v = stRange)

/-! ### Power, start and supply (chapters 17 and 19) -/

/-- R450-R454, Table 17.7: a request to a domain that is OFF and may power up begins it, and a DISABLE of one that is ON begins its power-down; the completions
and the bound of a power-up end the transition and what waits for it; a die that no slot uses is reset. -/
def Obligations.PowerDomains : Prop :=
  (∀ (s : State) (f : Frame), writes s f = true →
    let t := inSession s f
    let d := keySub f.key - 1
    (isDomainControl f.key = true → t.domainResets d = false → t.rd (O.domainPending d) = 0 →
      (valueOf f = 1 → t.judged d = domOff → t.mayEnable d = true →
        exec (.domainEnable f) s = .next (seen s (answer f true (t.enableNow d)).settle))
      ∧ (valueOf f = 1 → t.judged d = domOn → exec (.domainEnable f) s = .next (seen s (writeDone f t).settle))
      ∧ (valueOf f = 2 → d ≠ domAlwaysOn → t.judged d = domOn → t.disableRefused d = false →
          exec (.domainDisable f) s = .next (seen s (answer f true (if 10000 < downBound d then .deferred (t.beginDown d) (.domain d false)
            else .open_ (t.beginDown d) (.domain d false))).settle)))
    ∧ (isDieControl f.key = true → t.domainOn (0x30 + d) = true → t.start.dieResets.contains d = false → t.dieInUse d = false →
        exec (.dieReset f) s = .next (seen s (deferredFor f (t.resetDie d) (.dieReset d)).settle)))
  ∧ (∀ (s : State) (d : Nat), d < 80 →
      (s.domain d = domUp → s.upReady d = true →
        let t := (((s.wr (O.domainState d) domOn).add (O.domainTransitions d) 1).cameOn d).complete (.domain d true) stOk
        t.rd (O.domainPending d) ≠ 2 → exec (.powerUpComplete d) s = .next (seen s t.pumpPower.settle))
      ∧ (s.domain d = domDown →
          let t := ((s.wr (O.domainState d) domOff).add (O.domainTransitions d) 1).complete (.domain d false) stOk
          t.rd (O.domainPending d) ≠ 1 → exec (.powerDownComplete d) s = .next (seen s t.settle))
      ∧ (s.domain d = domUp → s.elapsed (s.start.domSince.get 0 d) (upBound d) = true → ¬(0x30 ≤ d ∧ d < 0x34) →
          let t := (s.wr (O.domainState d) (if s.starting then domExcluded else domFailed)).add (O.domainTransitions d) 1
          exec (.powerUpTimeout d) s = .next (seen s
            ((((t.complete (.domain d true) stState).complete (.domain d false) stOk).wr (O.domainPending d) 0).pumpPower).settle)))

/-- R437-R448, R455-R461: the start: a step that completes before its bound leads to the next, and step 9 to READY; a false start is counted and begins the next
start at step 2, and the third leaves the package in Walk mode with its Cut List; RESTART and CLEAR_FALSE_STARTS; erasing, writing and verifying
a boot slot. -/
def Obligations.StartAndBoot : Prop :=
  (∀ (s : State) (r : StepResult) (n : Nat), s.start.phase = .step n → s.elapsed s.start.stepSince (stepBound n) = false →
    exec (.startStepComplete r) s = .next (seen s (s.stepCompletes n r))
    ∧ (n = 4 → r.iodOk = true → s.stepCompletes n r = (s.wr (O.dieState 4) 0).enterStartStep 5)
    ∧ (n = 6 → (∀ l ∈ allLinks, s.rd (O.slState l) = 2) → s.stepCompletes n r = s.enterStartStep 7)
    ∧ (n = 9 → s.stepCompletes n r = s.becomeReady))
  ∧ (∀ (s : State) (n : Nat), s.start.phase = .step n → (3 ≤ n ∨ s.elapsed s.start.stepSince (stepBound n) = true) →
      let used := s.rd O.bootSlotUsed
      let t := ((s.resetTo 5 (.step 2) true).wr O.lastFalseStartStep n).add O.falseStarts 1
      (t.rd O.falseStarts < 3 → exec .falseStart s = .next (seen s (t.beginStart 2 (if used = 0xFF then none else some used))))
      ∧ (3 ≤ t.rd O.falseStarts →
          let u : State := { t with objs := s.objs.keep (fun k => decide (0x1100 ≤ keyIndex k) && decide (keyIndex k < 0x1200) || survives k) }
          exec .falseStart s = .next (seen s ((u.wrAll [(O.lastResetCause, 5), (O.domainState domAlwaysOn, domOn), (O.lastFalseStartStep, n),
            (O.falseStarts, t.rd O.falseStarts)]).enterWalk 0x01))))
  ∧ (∀ (s : State) (f : Frame), writes s f = true →
      let t := inSession s f
      (f.key = O.startControl → valueOf f = 1 → s.start.phase = .ready →
        exec (.restart f) s = .next (seen s (State.restartNow (writeDone f ({ t with start := { t.start with phase := .restarting } } : State)) f)))
      ∧ (f.key = O.startControl → valueOf f = 2 → t.walk = true →
          exec (.clearFalseStarts f) s = .next (seen s (writeDone f (t.wr O.falseStarts 0))))
      ∧ (f.key = O.bootSlotControl → ∀ p ∈ [(Instr.eraseA, 1, 0), (Instr.eraseB, 2, 1)], valueOf f = p.2.1 → t.rd O.bootSlotUsed ≠ p.2.2 →
          exec (p.1 f) s = .next (seen s (writeDone f ((t.setImageSlot p.2.2 ⟨Map.empty, []⟩).setSlotStatus p.2.2 slotErased 0))))
      ∧ (f.key = O.bootSlotControl → ∀ p ∈ [(Instr.verifyA, 3, 0), (Instr.verifyB, 4, 1)], valueOf f = p.2.1 →
          exec (p.1 f) s = .next (seen s (writeDone f
            (if t.verifies p.2.2 then t.setSlotStatus p.2.2 slotValid (t.imageSlot p.2.2).version else t.setSlotStatus p.2.2 slotInvalid 0)))))
  ∧ (∀ (s : State) (f : Frame), writesWhole s f = true → isBootImage f.key = true →
      let t := inSession s f
      let n := if f.key = O.bootImageA then 0 else 1
      let m := t.imageSlot n
      t.rd O.bootSlotUsed ≠ n → t.slotStatus n ≠ slotValid → t.slotStatus n ≠ slotInvalid →
      (∀ w ∈ m.written, ¬(f.offset < w.2 ∧ w.1 < f.offset + f.body.length)) →
      exec (.bootImageWrite f) s = .next (seen s (writeDone f
        ((t.setImageSlot n ⟨m.bytes.setBytes 0#8 f.offset f.body, m.written ++ [(f.offset, f.offset + f.body.length)]⟩).setSlotStatus n slotUnchecked 0))))

/-- R455-R459, R479, R482-R488: the service inputs, the 48 V input, the thermal trip and the power governor. -/
def Obligations.ServiceInputsAndSupply : Prop :=
  (∀ s : State, s.pwrFree = true →
    (s.start.pwrEn = false → s.start.tripHold = false → s.start.phase = .off →
      let t : State := { s with start := { s.start with pwrEn := true, pwrSince := some s.now } }
      exec .pwrEnHigh s = .next (seen s (((t.resetTo 1 (.step 1) false).beginStart 1 none).stepFrom
        (s.start.pwrSince.elim s.now (fun low => max s.now (low + 100000))))))
    ∧ (s.start.pwrEn = true → s.start.phase ≠ .off →
        exec .pwrEnLow s = .next (seen s (({ s with start := { s.start with pwrEn := false, pwrSince := some s.now, pgOut := false,
                                                                             pwrLowSince := s.start.pwrLowSince || s.start.tripHold } } : State).resetTo 2 .off false))))
  ∧ (∀ s : State, s.start.inputInRange = true →
      (s.start.rstN = true → s.start.phase ≠ .off →
        exec .rstNLow s = .next (seen s (((({ s with start := { s.start with
          rstN := false, pgOut := s.start.pgOut || decide (s.start.phase = Phase.step 1) } } : State).add O.rstNAssertions 1).resetTo 3 .held true))))
      ∧ (s.start.rstN = false → s.start.phase = .held → s.rd O.lastResetCause ≠ 1 →
          exec .rstNHigh s = .next (seen s (({ s with start := { s.start with rstN := true } } : State).beginStart 2 none)))
      ∧ (s.start.rstN = false → s.start.phase = .held → s.rd O.lastResetCause = 1 →
          exec .rstNHigh s = .next (seen s (({ s with start := { s.start with rstN := true } } : State).enterStartStep 2)))
      ∧ (∀ pin, pin < 4 → exec (.glitchFiltered pin) s = .next (seen s (s.add O.glitchesFiltered 1)))
      ∧ (∀ level, exec (.bootSelAccepted 2 level) s = .next (seen s { s with start := { s.start with bootA := level } })
          ∧ exec (.bootSelAccepted 3 level) s = .next (seen s { s with start := { s.start with bootB := level } }))
      ∧ (s.pwrFree = false → exec .pwrEnRejected s = .next (seen s (s.add O.pwrEnRejected 1)))
      ∧ (∀ sensor reading, sensor < 17 → s.start.tripHold = false → tripPoint sensor ≤ reading →
          exec (.thermalTrip sensor reading) s = .next (seen s (
            let t := (s.add O.thermalTrips 1).resetTo 6 .off false
            { t with start := { t.start with tripHold := true, pgOut := false, pwrLowSince := !s.start.pwrEn } })))
      ∧ exec .inputOutOfRange s = .next (seen s (
          let t := s.wipe
          { t with objs := t.objs.keep isFlash, start := { t.start with
            phase := .off, stepSince := t.now, begun := 0, failedSlot := none, inputInRange := false, pwrEn := false, rstN := true, bootA := true,
            bootB := true, pwrSince := none, pgOut := false, tripHold := false, pwrLowSince := false } })))
  ∧ (∀ s : State, exec .railsOutOfRegulation s = .next (seen s { s with start := { s.start with pgOut := false } }))
  ∧ (∀ s : State, s.start.inputInRange = false →
      exec .inputInRange s = .next (seen s { s with start := { s.start with
        inputInRange := true, pwrEn := false, rstN := true, bootA := true, bootB := true, pwrSince := none } }))
  ∧ (∀ s : State, s.start.tripHold = true → s.start.pwrLowSince = true →
      exec .tripRelease s = .next (seen s { s with start := { s.start with tripHold := false, pwrLowSince := false } }))
  ∧ (∀ (s : State) (r : Readings), s.served = true →
      let slow := (natsFrom 0 4).any (fun d => s.domainOn (0x30 + d) && decide (s.rd (O.dieClock d) < 1600))
      let t := if slow then (s.takeReadings r).add O.throttleUs 100 else s.takeReadings r
      exec (.governorStep r) s = .next (seen s (State.each (fun (t : State) (d : Nat) => if t.domainOn (0x30 + d) then t.governDie r d else t) t
        (natsFrom 0 4))))

/-- What the machine is after reset (R6, R437, R444, R455, R479, Tables 4.1 and 17.10): off, PWR_EN low, nothing started, no session, no core, nothing
mapped, empty queues, both boot slots ERASED, and each stored value at the default of its table; where the manual gives none, at the value of log 6 and
log 7, the model's choice. -/
def Obligations.ResetIsAsDelivered : Prop :=
  State.reset.pending = [] ∧ State.reset.start.phase = .off ∧ State.reset.start.pwrEn = false ∧ State.reset.mgmt.sessions = []
    ∧ (∀ c, (State.reset.core c).state = .off) ∧ (∀ p, State.reset.mapped p = false) ∧ (∀ q, (State.reset.queue q).state = 0)
    ∧ (∀ d, d < 80 → State.reset.domain d = domOff) ∧ State.reset.slotStatus 0 = slotErased ∧ State.reset.slotStatus 1 = slotErased
    ∧ (∀ i, i < 16 → State.reset.stage i = 0) ∧ State.reset.rd O.drainState = 0 ∧ (∀ k, State.reset.rd k = objDefault k)
end

