-- ==== Sys2Proof/Laws/Map.lean ====
section
/-! SUPPORT. What reading and writing a sparse table come to, and that every operation keeps its canonical form. -/

namespace Sys2Proof

variable {α : Type} [DecidableEq α]

/-- Writing one key leaves every other key. -/
theorem Map.find_put_other (d v : α) {k j : Nat} (h : j ≠ k) : ∀ l, Map.find d j (Map.put d k v l) = Map.find d j l
  | [] => by simp only [Map.put]; split <;> simp [Map.find, Ne.symm h]
  | (i, w) :: r => by
    have ih := Map.find_put_other d v h r
    simp only [Map.put]
    split
    · split <;> simp [Map.find, Ne.symm h]
    · split
      · subst i; split <;> simp [Map.find, Ne.symm h]
      · simp [Map.find, ih]

/-- A key written with a value that is not what it reads as unlisted reads as that value. -/
theorem Map.find_put_same (d v : α) (k : Nat) (h : v ≠ d) : ∀ l, Map.find d k (Map.put d k v l) = v
  | [] => by simp [Map.put, Map.find, h]
  | (i, w) :: r => by
    have ih := Map.find_put_same d v k h r
    simp only [Map.put, h, if_false]
    split
    · simp [Map.find]
    · split
      · simp [Map.find]
      · rename_i h1 h2; simp [Map.find, Ne.symm h2, ih]

/-- A key below every listed key reads as unlisted. -/
theorem Map.find_rising {β : Type} (d : β) (k : Nat) : ∀ (l : List (Nat × β)) (b : Nat), Map.rising b l = true → k < b → Map.find d k l = d
  | [], _, _, _ => rfl
  | (i, w) :: r, b, h, hk => by
    simp only [Map.rising, Bool.and_eq_true, decide_eq_true_eq] at h
    have hi : i ≠ k := by omega
    simp [Map.find, hi, Map.find_rising d k r (i + 1) h.2 (by omega)]

/-- Rising from a bound is rising from a lower one. -/
theorem Map.rising_le {β : Type} : ∀ (l : List (Nat × β)) {b c : Nat}, Map.rising c l = true → b ≤ c → Map.rising b l = true
  | [], _, _, _, _ => rfl
  | (i, w) :: r, b, c, h, hb => by
    simp only [Map.rising, Bool.and_eq_true, decide_eq_true_eq] at h ⊢
    exact ⟨by omega, h.2⟩

/-- A key written in a list of rising keys reads as what was written. -/
theorem Map.find_put_wf (d v : α) (k : Nat) : ∀ (l : List (Nat × α)) {b : Nat}, Map.rising b l = true → Map.find d k (Map.put d k v l) = v
  | [], _, _ => by by_cases h : v = d <;> simp [Map.put, Map.find, h]
  | (i, w) :: r, b, hr => by
    have h := hr
    simp only [Map.rising, Bool.and_eq_true, decide_eq_true_eq] at h
    have ih := Map.find_put_wf d v k r h.2
    simp only [Map.put]
    split
    · split
      · rename_i h1 h2
        have : i ≠ k := by omega
        simp [Map.find, this, Map.find_rising d k r (i + 1) h.2 (by omega), h2]
      · simp [Map.find]
    · split
      · rename_i h1 h2
        subst h2
        split
        · rename_i h2; rw [Map.find_rising d k r (k + 1) h.2 (by omega), h2]
        · simp [Map.find]
      · rename_i h1 h2; simp [Map.find, Ne.symm h2, ih]

/-- Writing a key keeps the keys rising. -/
theorem Map.rising_put (d v : α) (k : Nat) : ∀ (l : List (Nat × α)) {b : Nat}, b ≤ k → Map.rising b l = true → Map.rising b (Map.put d k v l) = true
  | [], b, hb, _ => by simp only [Map.put]; split <;> simp [Map.rising, hb]
  | (i, w) :: r, b, hb, h => by
    have h0 := h
    simp only [Map.rising, Bool.and_eq_true, decide_eq_true_eq] at h
    simp only [Map.put]
    split
    · split
      · exact h0
      · simp only [Map.rising, Bool.and_eq_true, decide_eq_true_eq]; exact ⟨hb, by omega, h.2⟩
    · split
      · subst i
        split
        · exact Map.rising_le r h.2 (by omega)
        · simp only [Map.rising, Bool.and_eq_true, decide_eq_true_eq]; exact ⟨hb, h.2⟩
      · simp only [Map.rising, Bool.and_eq_true, decide_eq_true_eq]
        exact ⟨h.1, Map.rising_put d v k r (by omega) h.2⟩

/-- Writing a key lists no value that the key reads as unlisted. -/
theorem Map.all_put (dd : Nat → α) (v : α) (k : Nat) : ∀ (l : List (Nat × α)), l.all (fun e => decide (e.2 ≠ dd e.1)) = true →
    (Map.put (dd k) k v l).all (fun e => decide (e.2 ≠ dd e.1)) = true
  | [], _ => by
    simp only [Map.put]
    split
    · rfl
    · simpa using ‹¬v = dd k›
  | (i, w) :: r, h => by
    have h0 := h
    simp only [List.all_cons, Bool.and_eq_true, decide_eq_true_eq] at h
    simp only [Map.put]
    split
    · split
      · exact h0
      · simp only [List.all_cons, Bool.and_eq_true, decide_eq_true_eq]; exact ⟨by assumption, h⟩
    · split
      · split
        · exact h.2
        · simp only [List.all_cons, Bool.and_eq_true, decide_eq_true_eq]; exact ⟨by assumption, h.2⟩
      · simp only [List.all_cons, Bool.and_eq_true, decide_eq_true_eq]; exact ⟨h.1, Map.all_put dd v k r h.2⟩

/-- Writing a key keeps the canonical form. -/
theorem Map.wf_set (m : Map α) (dd : Nat → α) (k : Nat) (v : α) (h : m.wf dd = true) : (m.set (dd k) k v).wf dd = true := by
  simp only [Map.wf, Bool.and_eq_true] at h ⊢
  exact ⟨Map.rising_put _ _ _ _ (Nat.zero_le _) h.1, Map.all_put dd v k _ h.2⟩

/-- In canonical form a key reads as what was written last. -/
theorem Map.get_set_same (m : Map α) (dd : Nat → α) (k : Nat) (v : α) (h : m.wf dd = true) : (m.set (dd k) k v).get (dd k) k = v := by
  simp only [Map.wf, Bool.and_eq_true] at h
  exact Map.find_put_wf _ _ _ _ h.1

/-- A value that is not what the key reads as unlisted is read back from any table. -/
theorem Map.get_set_listed (m : Map α) (d : α) (k : Nat) (v : α) (h : v ≠ d) : (m.set d k v).get d k = v :=
  Map.find_put_same d v k h m.entries

/-- Writing one key leaves what every other key reads as. -/
theorem Map.get_set_other (m : Map α) (d v : α) {k j : Nat} (h : j ≠ k) : (m.set d k v).get d j = m.get d j :=
  Map.find_put_other d v h m.entries

/-- A table that keeps some keys keeps the canonical form. -/
theorem Map.wf_keep (m : Map α) (dd : Nat → α) (p : Nat → Bool) (h : m.wf dd = true) : (m.keep p).wf dd = true := by
  simp only [Map.wf, Bool.and_eq_true, Map.keep] at h ⊢
  refine ⟨?_, List.all_eq_true.mpr (fun e he => List.all_eq_true.mp h.2 e (List.mem_filter.mp he).1)⟩
  have : ∀ (l : List (Nat × α)) (b : Nat), Map.rising b l = true → Map.rising b (l.filter (fun e => p e.1)) = true := by
    intro l
    induction l with
    | nil => intro b _; rfl
    | cons e r ih =>
      intro b hb
      obtain ⟨i, w⟩ := e
      simp only [Map.rising, Bool.and_eq_true, decide_eq_true_eq] at hb
      simp only [List.filter_cons]
      split
      · simp only [Map.rising, Bool.and_eq_true, decide_eq_true_eq]; exact ⟨hb.1, ih _ hb.2⟩
      · exact Map.rising_le _ (ih _ hb.2) (by omega)
  exact this _ _ h.1

/-! ### Bytes -/

/-- The entries of some bytes rise from their first address, and leave what follows the last free to rise from there. -/
theorem Map.rising_listBytes (d : Byte) (l : List (Nat × Byte)) :
    ∀ (bs : Bytes) (a : Nat), Map.rising (a + bs.length) l = true → Map.rising a (Map.listBytes d a bs ++ l) = true
  | [], a, h => by simpa [Map.listBytes] using h
  | b :: bs, a, h => by
    have ih := Map.rising_listBytes d l bs (a + 1) (by simpa [Nat.add_assoc, Nat.add_comm 1] using h)
    simp only [Map.listBytes]
    split
    · exact Map.rising_le _ ih (by omega)
    · simp only [List.cons_append, Map.rising, Bool.and_eq_true, decide_eq_true_eq]; exact ⟨Nat.le_refl _, ih⟩

/-- Rising keys below a bound, followed by keys that rise from it. -/
theorem Map.rising_append {β : Type} (l : List (Nat × β)) (a : Nat) (h : Map.rising a l = true) :
    ∀ (r : List (Nat × β)) (b : Nat), b ≤ a → Map.rising b r = true → Map.rising b (r.filter (fun e => decide (e.1 < a)) ++ l) = true
  | [], b, hb, _ => by simpa using Map.rising_le l h hb
  | (i, w) :: r, b, hb, hr => by
    simp only [Map.rising, Bool.and_eq_true, decide_eq_true_eq] at hr
    simp only [List.filter_cons]
    split
    · rename_i hi
      simp only [decide_eq_true_eq] at hi
      simp only [List.cons_append, Map.rising, Bool.and_eq_true, decide_eq_true_eq]
      exact ⟨hr.1, Map.rising_append l a h r (i + 1) (by omega) hr.2⟩
    · exact Map.rising_append l a h r b hb (Map.rising_le r hr.2 (by omega))

/-- The keys from a bound on rise from it. -/
theorem Map.rising_above {β : Type} (c : Nat) : ∀ (r : List (Nat × β)) (b : Nat), Map.rising b r = true →
    Map.rising c (r.filter (fun e => decide (c ≤ e.1))) = true
  | [], _, _ => rfl
  | (i, w) :: r, b, h => by
    simp only [Map.rising, Bool.and_eq_true, decide_eq_true_eq] at h
    simp only [List.filter_cons]
    split
    · rename_i hi
      simp only [decide_eq_true_eq] at hi
      simp only [Map.rising, Bool.and_eq_true, decide_eq_true_eq]
      refine ⟨hi, ?_⟩
      have h2 : ∀ (q : List (Nat × β)) (m : Nat), c ≤ m → Map.rising m q = true → q.filter (fun e => decide (c ≤ e.1)) = q := by
        intro q
        induction q with
        | nil => intros; rfl
        | cons e q ih =>
          intro m hm hq
          obtain ⟨j, x⟩ := e
          simp only [Map.rising, Bool.and_eq_true, decide_eq_true_eq] at hq
          simp only [List.filter_cons, show c ≤ j by omega, decide_true, if_true]
          rw [ih (j + 1) (by omega) hq.2]
      rw [h2 r (i + 1) (by omega) h.2]
      exact h.2
    · exact Map.rising_above c r (i + 1) h.2

/-- Listed bytes are not what an unlisted address reads as. -/
theorem Map.all_listBytes (d : Byte) : ∀ (bs : Bytes) (a : Nat), (Map.listBytes d a bs).all (fun e => decide (e.2 ≠ d)) = true
  | [], _ => rfl
  | b :: bs, a => by
    simp only [Map.listBytes]
    split
    · exact Map.all_listBytes d bs (a + 1)
    · simp only [List.all_cons, Bool.and_eq_true, decide_eq_true_eq]; exact ⟨by assumption, Map.all_listBytes d bs (a + 1)⟩

/-- Writing bytes keeps the canonical form of a memory. -/
theorem Map.wf_setBytes (m : Map Byte) (d : Byte) (a : Nat) (bs : Bytes) (h : m.wf (fun _ => d) = true) :
    (m.setBytes d a bs).wf (fun _ => d) = true := by
  simp only [Map.wf, Bool.and_eq_true, Map.setBytes] at h ⊢
  constructor
  · rw [List.append_assoc]
    exact Map.rising_append _ _ (Map.rising_listBytes d _ bs a (Map.rising_above _ _ _ h.1)) _ _ (Nat.zero_le _) h.1
  · simp only [List.all_append, Bool.and_eq_true]
    exact ⟨⟨List.all_eq_true.mpr (fun e he => List.all_eq_true.mp h.2 e (List.mem_filter.mp he).1), Map.all_listBytes d bs a⟩,
      List.all_eq_true.mpr (fun e he => List.all_eq_true.mp h.2 e (List.mem_filter.mp he).1)⟩

/-- Reading in two lists one after the other. -/
theorem Map.find_append {β : Type} (d : β) (k : Nat) : ∀ (l r : List (Nat × β)),
    Map.find d k (l ++ r) = if l.any (fun e => decide (e.1 = k)) then Map.find d k l else Map.find d k r
  | [], r => by simp
  | (i, w) :: l, r => by
    by_cases hi : i = k
    · simp [Map.find, hi]
    · simp only [List.cons_append, Map.find, hi, if_false, Map.find_append d k l r, List.any_cons, decide_false, Bool.false_or]

/-- Reading among the entries that a filter keeps. -/
theorem Map.find_filter {β : Type} (d : β) (k : Nat) (p : Nat → Bool) (h : p k = true) : ∀ (l : List (Nat × β)),
    Map.find d k (l.filter (fun e => p e.1)) = Map.find d k l
  | [] => rfl
  | (i, w) :: l => by
    simp only [List.filter_cons]
    by_cases hi : i = k
    · subst i; simp [h, Map.find]
    · split <;> simp [Map.find, hi, Map.find_filter d k p h l]

/-- A key that no entry has reads as unlisted. -/
theorem Map.find_none {β : Type} (d : β) (k : Nat) : ∀ (l : List (Nat × β)), l.any (fun e => decide (e.1 = k)) = false → Map.find d k l = d
  | [], _ => rfl
  | (i, w) :: l, h => by
    simp only [List.any_cons, Bool.or_eq_false_iff, decide_eq_false_iff_not] at h
    simp [Map.find, h.1, Map.find_none d k l h.2]

/-- No entry of some bytes lies outside them. -/
theorem Map.any_listBytes (d : Byte) (k : Nat) : ∀ (bs : Bytes) (a : Nat), (k < a ∨ a + bs.length ≤ k) →
    (Map.listBytes d a bs).any (fun e => decide (e.1 = k)) = false
  | [], _, _ => rfl
  | b :: bs, a, h => by
    have ih := Map.any_listBytes d k bs (a + 1) (by simp only [List.length_cons] at h; omega)
    simp only [List.length_cons] at h
    simp only [Map.listBytes]
    split
    · exact ih
    · simp only [List.any_cons, Bool.or_eq_false_iff, decide_eq_false_iff_not]; exact ⟨by omega, ih⟩

/-- A byte among those written reads as what was written. -/
theorem Map.find_listBytes (d : Byte) (k : Nat) : ∀ (bs : Bytes) (a : Nat), a ≤ k → k < a + bs.length →
    Map.find d k (Map.listBytes d a bs) = bs.getD (k - a) d
  | [], a, h1, h2 => by simp at h2; omega
  | b :: bs, a, h1, h2 => by
    simp only [List.length_cons] at h2
    simp only [Map.listBytes]
    by_cases hk : k = a
    · subst hk
      split
      · rename_i hb
        rw [Map.find_none d k _ (Map.any_listBytes d k bs (k + 1) (by omega)), Nat.sub_self, List.getD_cons_zero, hb]
      · simp [Map.find]
    · have ih := Map.find_listBytes d k bs (a + 1) (by omega) (by omega)
      have hs : k - a = k - (a + 1) + 1 := by omega
      split
      · rw [ih, hs, List.getD_cons_succ]
      · simp [Map.find, Ne.symm hk, ih, hs]

/-- A byte outside those written reads as before. -/
theorem Map.get_setBytes_other (m : Map Byte) (d : Byte) (a k : Nat) (bs : Bytes) (h : k < a ∨ a + bs.length ≤ k) :
    (m.setBytes d a bs).get d k = m.get d k := by
  simp only [Map.get, Map.setBytes]
  rw [List.append_assoc, Map.find_append, Map.find_append, Map.any_listBytes d k bs a h]
  by_cases hk : k < a
  · split
    · exact Map.find_filter d k (fun i => decide (i < a)) (by simpa using hk) _
    · rename_i hn
      have hf := Map.find_filter d k (fun i => decide (i < a)) (by simpa using hk) m.entries
      rw [Map.find_none d k _ (Bool.eq_false_iff.mpr hn)] at hf
      simp only [Bool.false_eq_true, if_false]
      rw [← hf]
      apply Map.find_none
      rw [List.any_eq_false]
      intro e he
      have := (List.mem_filter.mp he).2
      simp only [decide_eq_true_eq] at this ⊢
      omega
  · have hno : (m.entries.filter (fun e => decide (e.1 < a))).any (fun e => decide (e.1 = k)) = false := by
      rw [List.any_eq_false]
      intro e he
      have := (List.mem_filter.mp he).2
      simp only [decide_eq_true_eq] at this ⊢
      omega
    simp only [hno, Bool.false_eq_true, if_false]
    exact Map.find_filter d k (fun i => decide (a + bs.length ≤ i)) (by simpa using (by omega : a + bs.length ≤ k)) _

/-- A byte among those written in an empty memory reads as what was written. -/
theorem Map.get_setBytes_empty (d : Byte) (a k : Nat) (bs : Bytes) (h1 : a ≤ k) (h2 : k < a + bs.length) :
    ((Map.empty : Map Byte).setBytes d a bs).get d k = bs.getD (k - a) d := by
  simp only [Map.get, Map.setBytes, Map.empty, List.filter_nil, List.nil_append, List.append_nil]
  exact Map.find_listBytes d k bs a h1 h2

/-- Reading bytes that are those of a list. -/
theorem Map.bytes_of_get (m : Map Byte) (d : Byte) : ∀ (n a : Nat) (bs : Bytes), bs.length = n →
    (∀ k, a ≤ k → k < a + n → m.get d k = bs.getD (k - a) d) → m.bytes d a n = bs
  | 0, _, bs, hl, _ => by simp [Map.bytes, List.length_eq_zero_iff.mp hl]
  | n + 1, a, [], hl, _ => by simp at hl
  | n + 1, a, b :: bs, hl, h => by
    simp only [Map.bytes]
    rw [h a (Nat.le_refl _) (by omega), Nat.sub_self, List.getD_cons_zero]
    rw [Map.bytes_of_get m d n (a + 1) bs (by simpa using hl)]
    intro k hk1 hk2
    rw [h k (by omega) (by omega), show k - a = k - (a + 1) + 1 by omega, List.getD_cons_succ]

/-- Bytes written in an empty memory are read back. -/
theorem Map.bytes_setBytes_empty (d : Byte) (a : Nat) (bs : Bytes) :
    ((Map.empty : Map Byte).setBytes d a bs).bytes d a bs.length = bs :=
  Map.bytes_of_get _ d _ _ bs rfl (fun k h1 h2 => Map.get_setBytes_empty d a k bs h1 h2)

end Sys2Proof
end

