-- ==== Sys2Proof/Laws/State.lean ====
section
/-! SUPPORT. What each update of State leaves unchanged: one lemma per update and field, for the updates that every meaning is made of. -/

namespace Sys2Proof.Machine

variable (s : State)

/-! ### wr -/

@[simp] theorem State.wr_pending k v : (s.wr k v).pending = s.pending := rfl
@[simp] theorem State.wr_now k v : (s.wr k v).now = s.now := rfl
@[simp] theorem State.wr_fresh k v : (s.wr k v).fresh = s.fresh := rfl
@[simp] theorem State.wr_out k v : (s.wr k v).out = s.out := rfl
@[simp] theorem State.wr_fuses k v : (s.wr k v).fuses = s.fuses := rfl
@[simp] theorem State.wr_doms k v : (s.wr k v).doms = s.doms := rfl
@[simp] theorem State.wr_mgmt k v : (s.wr k v).mgmt = s.mgmt := rfl
@[simp] theorem State.wr_start k v : (s.wr k v).start = s.start := rfl
@[simp] theorem State.wr_node k v : (s.wr k v).node = s.node := rfl
@[simp] theorem State.wr_cores k v : (s.wr k v).cores = s.cores := rfl
@[simp] theorem State.wr_bents k v : (s.wr k v).bents = s.bents := rfl
@[simp] theorem State.wr_queues k v : (s.wr k v).queues = s.queues := rfl
@[simp] theorem State.wr_flights k v : (s.wr k v).flights = s.flights := rfl
@[simp] theorem State.wr_frames k v : (s.wr k v).frames = s.frames := rfl
@[simp] theorem State.wr_pages k v : (s.wr k v).pages = s.pages := rfl
@[simp] theorem State.wr_slots k v : (s.wr k v).slots = s.slots := rfl
@[simp] theorem State.wr_lanes k v : (s.wr k v).lanes = s.lanes := rfl
@[simp] theorem State.wr_asks k v : (s.wr k v).asks = s.asks := rfl
@[simp] theorem State.wr_commit k v : (s.wr k v).commit = s.commit := rfl
@[simp] theorem State.wr_buckets k v : (s.wr k v).buckets = s.buckets := rfl
@[simp] theorem State.wr_chans k v : (s.wr k v).chans = s.chans := rfl
@[simp] theorem State.wr_faults k v : (s.wr k v).faults = s.faults := rfl
@[simp] theorem State.wr_torus k v : (s.wr k v).torus = s.torus := rfl
@[simp] theorem State.wr_data k v : (s.wr k v).data = s.data := rfl
@[simp] theorem State.wr_dies k v : (s.wr k v).dies = s.dies := rfl

/-! ### add -/

@[simp] theorem State.add_pending k n : (s.add k n).pending = s.pending := rfl
@[simp] theorem State.add_now k n : (s.add k n).now = s.now := rfl
@[simp] theorem State.add_fresh k n : (s.add k n).fresh = s.fresh := rfl
@[simp] theorem State.add_out k n : (s.add k n).out = s.out := rfl
@[simp] theorem State.add_fuses k n : (s.add k n).fuses = s.fuses := rfl
@[simp] theorem State.add_doms k n : (s.add k n).doms = s.doms := rfl
@[simp] theorem State.add_mgmt k n : (s.add k n).mgmt = s.mgmt := rfl
@[simp] theorem State.add_start k n : (s.add k n).start = s.start := rfl
@[simp] theorem State.add_node k n : (s.add k n).node = s.node := rfl
@[simp] theorem State.add_cores k n : (s.add k n).cores = s.cores := rfl
@[simp] theorem State.add_bents k n : (s.add k n).bents = s.bents := rfl
@[simp] theorem State.add_queues k n : (s.add k n).queues = s.queues := rfl
@[simp] theorem State.add_flights k n : (s.add k n).flights = s.flights := rfl
@[simp] theorem State.add_frames k n : (s.add k n).frames = s.frames := rfl
@[simp] theorem State.add_pages k n : (s.add k n).pages = s.pages := rfl
@[simp] theorem State.add_slots k n : (s.add k n).slots = s.slots := rfl
@[simp] theorem State.add_lanes k n : (s.add k n).lanes = s.lanes := rfl
@[simp] theorem State.add_asks k n : (s.add k n).asks = s.asks := rfl
@[simp] theorem State.add_commit k n : (s.add k n).commit = s.commit := rfl
@[simp] theorem State.add_buckets k n : (s.add k n).buckets = s.buckets := rfl
@[simp] theorem State.add_chans k n : (s.add k n).chans = s.chans := rfl
@[simp] theorem State.add_faults k n : (s.add k n).faults = s.faults := rfl
@[simp] theorem State.add_torus k n : (s.add k n).torus = s.torus := rfl
@[simp] theorem State.add_data k n : (s.add k n).data = s.data := rfl
@[simp] theorem State.add_dies k n : (s.add k n).dies = s.dies := rfl

/-! ### setDom -/

@[simp] theorem State.setDom_pending k m : (s.setDom k m).pending = s.pending := rfl
@[simp] theorem State.setDom_now k m : (s.setDom k m).now = s.now := rfl
@[simp] theorem State.setDom_fresh k m : (s.setDom k m).fresh = s.fresh := rfl
@[simp] theorem State.setDom_out k m : (s.setDom k m).out = s.out := rfl
@[simp] theorem State.setDom_fuses k m : (s.setDom k m).fuses = s.fuses := rfl
@[simp] theorem State.setDom_objs k m : (s.setDom k m).objs = s.objs := rfl
@[simp] theorem State.setDom_mgmt k m : (s.setDom k m).mgmt = s.mgmt := rfl
@[simp] theorem State.setDom_start k m : (s.setDom k m).start = s.start := rfl
@[simp] theorem State.setDom_node k m : (s.setDom k m).node = s.node := rfl
@[simp] theorem State.setDom_cores k m : (s.setDom k m).cores = s.cores := rfl
@[simp] theorem State.setDom_bents k m : (s.setDom k m).bents = s.bents := rfl
@[simp] theorem State.setDom_queues k m : (s.setDom k m).queues = s.queues := rfl
@[simp] theorem State.setDom_flights k m : (s.setDom k m).flights = s.flights := rfl
@[simp] theorem State.setDom_frames k m : (s.setDom k m).frames = s.frames := rfl
@[simp] theorem State.setDom_pages k m : (s.setDom k m).pages = s.pages := rfl
@[simp] theorem State.setDom_slots k m : (s.setDom k m).slots = s.slots := rfl
@[simp] theorem State.setDom_lanes k m : (s.setDom k m).lanes = s.lanes := rfl
@[simp] theorem State.setDom_asks k m : (s.setDom k m).asks = s.asks := rfl
@[simp] theorem State.setDom_commit k m : (s.setDom k m).commit = s.commit := rfl
@[simp] theorem State.setDom_buckets k m : (s.setDom k m).buckets = s.buckets := rfl
@[simp] theorem State.setDom_chans k m : (s.setDom k m).chans = s.chans := rfl
@[simp] theorem State.setDom_faults k m : (s.setDom k m).faults = s.faults := rfl
@[simp] theorem State.setDom_torus k m : (s.setDom k m).torus = s.torus := rfl
@[simp] theorem State.setDom_data k m : (s.setDom k m).data = s.data := rfl
@[simp] theorem State.setDom_dies k m : (s.setDom k m).dies = s.dies := rfl

/-! ### put -/

@[simp] theorem State.put_pending o : (s.put o).pending = s.pending := rfl
@[simp] theorem State.put_now o : (s.put o).now = s.now := rfl
@[simp] theorem State.put_fresh o : (s.put o).fresh = s.fresh := rfl
@[simp] theorem State.put_fuses o : (s.put o).fuses = s.fuses := rfl
@[simp] theorem State.put_objs o : (s.put o).objs = s.objs := rfl
@[simp] theorem State.put_doms o : (s.put o).doms = s.doms := rfl
@[simp] theorem State.put_mgmt o : (s.put o).mgmt = s.mgmt := rfl
@[simp] theorem State.put_start o : (s.put o).start = s.start := rfl
@[simp] theorem State.put_node o : (s.put o).node = s.node := rfl
@[simp] theorem State.put_cores o : (s.put o).cores = s.cores := rfl
@[simp] theorem State.put_bents o : (s.put o).bents = s.bents := rfl
@[simp] theorem State.put_queues o : (s.put o).queues = s.queues := rfl
@[simp] theorem State.put_flights o : (s.put o).flights = s.flights := rfl
@[simp] theorem State.put_frames o : (s.put o).frames = s.frames := rfl
@[simp] theorem State.put_pages o : (s.put o).pages = s.pages := rfl
@[simp] theorem State.put_slots o : (s.put o).slots = s.slots := rfl
@[simp] theorem State.put_lanes o : (s.put o).lanes = s.lanes := rfl
@[simp] theorem State.put_asks o : (s.put o).asks = s.asks := rfl
@[simp] theorem State.put_commit o : (s.put o).commit = s.commit := rfl
@[simp] theorem State.put_buckets o : (s.put o).buckets = s.buckets := rfl
@[simp] theorem State.put_chans o : (s.put o).chans = s.chans := rfl
@[simp] theorem State.put_faults o : (s.put o).faults = s.faults := rfl
@[simp] theorem State.put_torus o : (s.put o).torus = s.torus := rfl
@[simp] theorem State.put_data o : (s.put o).data = s.data := rfl
@[simp] theorem State.put_dies o : (s.put o).dies = s.dies := rfl

/-! ### setCore -/

@[simp] theorem State.setCore_pending c k : (s.setCore c k).pending = s.pending := rfl
@[simp] theorem State.setCore_now c k : (s.setCore c k).now = s.now := rfl
@[simp] theorem State.setCore_fresh c k : (s.setCore c k).fresh = s.fresh := rfl
@[simp] theorem State.setCore_out c k : (s.setCore c k).out = s.out := rfl
@[simp] theorem State.setCore_fuses c k : (s.setCore c k).fuses = s.fuses := rfl
@[simp] theorem State.setCore_objs c k : (s.setCore c k).objs = s.objs := rfl
@[simp] theorem State.setCore_doms c k : (s.setCore c k).doms = s.doms := rfl
@[simp] theorem State.setCore_mgmt c k : (s.setCore c k).mgmt = s.mgmt := rfl
@[simp] theorem State.setCore_start c k : (s.setCore c k).start = s.start := rfl
@[simp] theorem State.setCore_node c k : (s.setCore c k).node = s.node := rfl
@[simp] theorem State.setCore_bents c k : (s.setCore c k).bents = s.bents := rfl
@[simp] theorem State.setCore_queues c k : (s.setCore c k).queues = s.queues := rfl
@[simp] theorem State.setCore_flights c k : (s.setCore c k).flights = s.flights := rfl
@[simp] theorem State.setCore_frames c k : (s.setCore c k).frames = s.frames := rfl
@[simp] theorem State.setCore_pages c k : (s.setCore c k).pages = s.pages := rfl
@[simp] theorem State.setCore_slots c k : (s.setCore c k).slots = s.slots := rfl
@[simp] theorem State.setCore_lanes c k : (s.setCore c k).lanes = s.lanes := rfl
@[simp] theorem State.setCore_asks c k : (s.setCore c k).asks = s.asks := rfl
@[simp] theorem State.setCore_commit c k : (s.setCore c k).commit = s.commit := rfl
@[simp] theorem State.setCore_buckets c k : (s.setCore c k).buckets = s.buckets := rfl
@[simp] theorem State.setCore_chans c k : (s.setCore c k).chans = s.chans := rfl
@[simp] theorem State.setCore_faults c k : (s.setCore c k).faults = s.faults := rfl
@[simp] theorem State.setCore_torus c k : (s.setCore c k).torus = s.torus := rfl
@[simp] theorem State.setCore_data c k : (s.setCore c k).data = s.data := rfl
@[simp] theorem State.setCore_dies c k : (s.setCore c k).dies = s.dies := rfl

/-! ### modCore -/

@[simp] theorem State.modCore_pending c f : (s.modCore c f).pending = s.pending := rfl
@[simp] theorem State.modCore_now c f : (s.modCore c f).now = s.now := rfl
@[simp] theorem State.modCore_fresh c f : (s.modCore c f).fresh = s.fresh := rfl
@[simp] theorem State.modCore_out c f : (s.modCore c f).out = s.out := rfl
@[simp] theorem State.modCore_fuses c f : (s.modCore c f).fuses = s.fuses := rfl
@[simp] theorem State.modCore_objs c f : (s.modCore c f).objs = s.objs := rfl
@[simp] theorem State.modCore_doms c f : (s.modCore c f).doms = s.doms := rfl
@[simp] theorem State.modCore_mgmt c f : (s.modCore c f).mgmt = s.mgmt := rfl
@[simp] theorem State.modCore_start c f : (s.modCore c f).start = s.start := rfl
@[simp] theorem State.modCore_node c f : (s.modCore c f).node = s.node := rfl
@[simp] theorem State.modCore_bents c f : (s.modCore c f).bents = s.bents := rfl
@[simp] theorem State.modCore_queues c f : (s.modCore c f).queues = s.queues := rfl
@[simp] theorem State.modCore_flights c f : (s.modCore c f).flights = s.flights := rfl
@[simp] theorem State.modCore_frames c f : (s.modCore c f).frames = s.frames := rfl
@[simp] theorem State.modCore_pages c f : (s.modCore c f).pages = s.pages := rfl
@[simp] theorem State.modCore_slots c f : (s.modCore c f).slots = s.slots := rfl
@[simp] theorem State.modCore_lanes c f : (s.modCore c f).lanes = s.lanes := rfl
@[simp] theorem State.modCore_asks c f : (s.modCore c f).asks = s.asks := rfl
@[simp] theorem State.modCore_commit c f : (s.modCore c f).commit = s.commit := rfl
@[simp] theorem State.modCore_buckets c f : (s.modCore c f).buckets = s.buckets := rfl
@[simp] theorem State.modCore_chans c f : (s.modCore c f).chans = s.chans := rfl
@[simp] theorem State.modCore_faults c f : (s.modCore c f).faults = s.faults := rfl
@[simp] theorem State.modCore_torus c f : (s.modCore c f).torus = s.torus := rfl
@[simp] theorem State.modCore_data c f : (s.modCore c f).data = s.data := rfl
@[simp] theorem State.modCore_dies c f : (s.modCore c f).dies = s.dies := rfl

/-! ### modIssued -/

@[simp] theorem State.modIssued_pending c p f : (s.modIssued c p f).pending = s.pending := rfl
@[simp] theorem State.modIssued_now c p f : (s.modIssued c p f).now = s.now := rfl
@[simp] theorem State.modIssued_fresh c p f : (s.modIssued c p f).fresh = s.fresh := rfl
@[simp] theorem State.modIssued_out c p f : (s.modIssued c p f).out = s.out := rfl
@[simp] theorem State.modIssued_fuses c p f : (s.modIssued c p f).fuses = s.fuses := rfl
@[simp] theorem State.modIssued_objs c p f : (s.modIssued c p f).objs = s.objs := rfl
@[simp] theorem State.modIssued_doms c p f : (s.modIssued c p f).doms = s.doms := rfl
@[simp] theorem State.modIssued_mgmt c p f : (s.modIssued c p f).mgmt = s.mgmt := rfl
@[simp] theorem State.modIssued_start c p f : (s.modIssued c p f).start = s.start := rfl
@[simp] theorem State.modIssued_node c p f : (s.modIssued c p f).node = s.node := rfl
@[simp] theorem State.modIssued_bents c p f : (s.modIssued c p f).bents = s.bents := rfl
@[simp] theorem State.modIssued_queues c p f : (s.modIssued c p f).queues = s.queues := rfl
@[simp] theorem State.modIssued_flights c p f : (s.modIssued c p f).flights = s.flights := rfl
@[simp] theorem State.modIssued_frames c p f : (s.modIssued c p f).frames = s.frames := rfl
@[simp] theorem State.modIssued_pages c p f : (s.modIssued c p f).pages = s.pages := rfl
@[simp] theorem State.modIssued_slots c p f : (s.modIssued c p f).slots = s.slots := rfl
@[simp] theorem State.modIssued_lanes c p f : (s.modIssued c p f).lanes = s.lanes := rfl
@[simp] theorem State.modIssued_asks c p f : (s.modIssued c p f).asks = s.asks := rfl
@[simp] theorem State.modIssued_commit c p f : (s.modIssued c p f).commit = s.commit := rfl
@[simp] theorem State.modIssued_buckets c p f : (s.modIssued c p f).buckets = s.buckets := rfl
@[simp] theorem State.modIssued_chans c p f : (s.modIssued c p f).chans = s.chans := rfl
@[simp] theorem State.modIssued_faults c p f : (s.modIssued c p f).faults = s.faults := rfl
@[simp] theorem State.modIssued_torus c p f : (s.modIssued c p f).torus = s.torus := rfl
@[simp] theorem State.modIssued_data c p f : (s.modIssued c p f).data = s.data := rfl
@[simp] theorem State.modIssued_dies c p f : (s.modIssued c p f).dies = s.dies := rfl

/-! ### finish -/

@[simp] theorem State.finish_pending c p : (s.finish c p).pending = s.pending := rfl
@[simp] theorem State.finish_now c p : (s.finish c p).now = s.now := rfl
@[simp] theorem State.finish_fresh c p : (s.finish c p).fresh = s.fresh := rfl
@[simp] theorem State.finish_out c p : (s.finish c p).out = s.out := rfl
@[simp] theorem State.finish_fuses c p : (s.finish c p).fuses = s.fuses := rfl
@[simp] theorem State.finish_objs c p : (s.finish c p).objs = s.objs := rfl
@[simp] theorem State.finish_doms c p : (s.finish c p).doms = s.doms := rfl
@[simp] theorem State.finish_mgmt c p : (s.finish c p).mgmt = s.mgmt := rfl
@[simp] theorem State.finish_start c p : (s.finish c p).start = s.start := rfl
@[simp] theorem State.finish_node c p : (s.finish c p).node = s.node := rfl
@[simp] theorem State.finish_bents c p : (s.finish c p).bents = s.bents := rfl
@[simp] theorem State.finish_queues c p : (s.finish c p).queues = s.queues := rfl
@[simp] theorem State.finish_flights c p : (s.finish c p).flights = s.flights := rfl
@[simp] theorem State.finish_frames c p : (s.finish c p).frames = s.frames := rfl
@[simp] theorem State.finish_pages c p : (s.finish c p).pages = s.pages := rfl
@[simp] theorem State.finish_slots c p : (s.finish c p).slots = s.slots := rfl
@[simp] theorem State.finish_lanes c p : (s.finish c p).lanes = s.lanes := rfl
@[simp] theorem State.finish_asks c p : (s.finish c p).asks = s.asks := rfl
@[simp] theorem State.finish_commit c p : (s.finish c p).commit = s.commit := rfl
@[simp] theorem State.finish_buckets c p : (s.finish c p).buckets = s.buckets := rfl
@[simp] theorem State.finish_chans c p : (s.finish c p).chans = s.chans := rfl
@[simp] theorem State.finish_faults c p : (s.finish c p).faults = s.faults := rfl
@[simp] theorem State.finish_torus c p : (s.finish c p).torus = s.torus := rfl
@[simp] theorem State.finish_data c p : (s.finish c p).data = s.data := rfl
@[simp] theorem State.finish_dies c p : (s.finish c p).dies = s.dies := rfl

/-! ### modEndp -/

@[simp] theorem State.modEndp_pending c e f : (s.modEndp c e f).pending = s.pending := rfl
@[simp] theorem State.modEndp_now c e f : (s.modEndp c e f).now = s.now := rfl
@[simp] theorem State.modEndp_fresh c e f : (s.modEndp c e f).fresh = s.fresh := rfl
@[simp] theorem State.modEndp_out c e f : (s.modEndp c e f).out = s.out := rfl
@[simp] theorem State.modEndp_fuses c e f : (s.modEndp c e f).fuses = s.fuses := rfl
@[simp] theorem State.modEndp_objs c e f : (s.modEndp c e f).objs = s.objs := rfl
@[simp] theorem State.modEndp_doms c e f : (s.modEndp c e f).doms = s.doms := rfl
@[simp] theorem State.modEndp_mgmt c e f : (s.modEndp c e f).mgmt = s.mgmt := rfl
@[simp] theorem State.modEndp_start c e f : (s.modEndp c e f).start = s.start := rfl
@[simp] theorem State.modEndp_node c e f : (s.modEndp c e f).node = s.node := rfl
@[simp] theorem State.modEndp_bents c e f : (s.modEndp c e f).bents = s.bents := rfl
@[simp] theorem State.modEndp_queues c e f : (s.modEndp c e f).queues = s.queues := rfl
@[simp] theorem State.modEndp_flights c e f : (s.modEndp c e f).flights = s.flights := rfl
@[simp] theorem State.modEndp_frames c e f : (s.modEndp c e f).frames = s.frames := rfl
@[simp] theorem State.modEndp_pages c e f : (s.modEndp c e f).pages = s.pages := rfl
@[simp] theorem State.modEndp_slots c e f : (s.modEndp c e f).slots = s.slots := rfl
@[simp] theorem State.modEndp_lanes c e f : (s.modEndp c e f).lanes = s.lanes := rfl
@[simp] theorem State.modEndp_asks c e f : (s.modEndp c e f).asks = s.asks := rfl
@[simp] theorem State.modEndp_commit c e f : (s.modEndp c e f).commit = s.commit := rfl
@[simp] theorem State.modEndp_buckets c e f : (s.modEndp c e f).buckets = s.buckets := rfl
@[simp] theorem State.modEndp_chans c e f : (s.modEndp c e f).chans = s.chans := rfl
@[simp] theorem State.modEndp_faults c e f : (s.modEndp c e f).faults = s.faults := rfl
@[simp] theorem State.modEndp_torus c e f : (s.modEndp c e f).torus = s.torus := rfl
@[simp] theorem State.modEndp_data c e f : (s.modEndp c e f).data = s.data := rfl
@[simp] theorem State.modEndp_dies c e f : (s.modEndp c e f).dies = s.dies := rfl

/-! ### setBent -/

@[simp] theorem State.setBent_pending b k : (s.setBent b k).pending = s.pending := rfl
@[simp] theorem State.setBent_now b k : (s.setBent b k).now = s.now := rfl
@[simp] theorem State.setBent_fresh b k : (s.setBent b k).fresh = s.fresh := rfl
@[simp] theorem State.setBent_out b k : (s.setBent b k).out = s.out := rfl
@[simp] theorem State.setBent_fuses b k : (s.setBent b k).fuses = s.fuses := rfl
@[simp] theorem State.setBent_objs b k : (s.setBent b k).objs = s.objs := rfl
@[simp] theorem State.setBent_doms b k : (s.setBent b k).doms = s.doms := rfl
@[simp] theorem State.setBent_mgmt b k : (s.setBent b k).mgmt = s.mgmt := rfl
@[simp] theorem State.setBent_start b k : (s.setBent b k).start = s.start := rfl
@[simp] theorem State.setBent_node b k : (s.setBent b k).node = s.node := rfl
@[simp] theorem State.setBent_cores b k : (s.setBent b k).cores = s.cores := rfl
@[simp] theorem State.setBent_queues b k : (s.setBent b k).queues = s.queues := rfl
@[simp] theorem State.setBent_flights b k : (s.setBent b k).flights = s.flights := rfl
@[simp] theorem State.setBent_frames b k : (s.setBent b k).frames = s.frames := rfl
@[simp] theorem State.setBent_pages b k : (s.setBent b k).pages = s.pages := rfl
@[simp] theorem State.setBent_slots b k : (s.setBent b k).slots = s.slots := rfl
@[simp] theorem State.setBent_lanes b k : (s.setBent b k).lanes = s.lanes := rfl
@[simp] theorem State.setBent_asks b k : (s.setBent b k).asks = s.asks := rfl
@[simp] theorem State.setBent_commit b k : (s.setBent b k).commit = s.commit := rfl
@[simp] theorem State.setBent_buckets b k : (s.setBent b k).buckets = s.buckets := rfl
@[simp] theorem State.setBent_chans b k : (s.setBent b k).chans = s.chans := rfl
@[simp] theorem State.setBent_faults b k : (s.setBent b k).faults = s.faults := rfl
@[simp] theorem State.setBent_torus b k : (s.setBent b k).torus = s.torus := rfl
@[simp] theorem State.setBent_data b k : (s.setBent b k).data = s.data := rfl
@[simp] theorem State.setBent_dies b k : (s.setBent b k).dies = s.dies := rfl

/-! ### setQueue -/

@[simp] theorem State.setQueue_pending q v : (s.setQueue q v).pending = s.pending := rfl
@[simp] theorem State.setQueue_now q v : (s.setQueue q v).now = s.now := rfl
@[simp] theorem State.setQueue_fresh q v : (s.setQueue q v).fresh = s.fresh := rfl
@[simp] theorem State.setQueue_out q v : (s.setQueue q v).out = s.out := rfl
@[simp] theorem State.setQueue_fuses q v : (s.setQueue q v).fuses = s.fuses := rfl
@[simp] theorem State.setQueue_objs q v : (s.setQueue q v).objs = s.objs := rfl
@[simp] theorem State.setQueue_doms q v : (s.setQueue q v).doms = s.doms := rfl
@[simp] theorem State.setQueue_mgmt q v : (s.setQueue q v).mgmt = s.mgmt := rfl
@[simp] theorem State.setQueue_start q v : (s.setQueue q v).start = s.start := rfl
@[simp] theorem State.setQueue_node q v : (s.setQueue q v).node = s.node := rfl
@[simp] theorem State.setQueue_cores q v : (s.setQueue q v).cores = s.cores := rfl
@[simp] theorem State.setQueue_bents q v : (s.setQueue q v).bents = s.bents := rfl
@[simp] theorem State.setQueue_flights q v : (s.setQueue q v).flights = s.flights := rfl
@[simp] theorem State.setQueue_frames q v : (s.setQueue q v).frames = s.frames := rfl
@[simp] theorem State.setQueue_pages q v : (s.setQueue q v).pages = s.pages := rfl
@[simp] theorem State.setQueue_slots q v : (s.setQueue q v).slots = s.slots := rfl
@[simp] theorem State.setQueue_lanes q v : (s.setQueue q v).lanes = s.lanes := rfl
@[simp] theorem State.setQueue_asks q v : (s.setQueue q v).asks = s.asks := rfl
@[simp] theorem State.setQueue_commit q v : (s.setQueue q v).commit = s.commit := rfl
@[simp] theorem State.setQueue_buckets q v : (s.setQueue q v).buckets = s.buckets := rfl
@[simp] theorem State.setQueue_chans q v : (s.setQueue q v).chans = s.chans := rfl
@[simp] theorem State.setQueue_faults q v : (s.setQueue q v).faults = s.faults := rfl
@[simp] theorem State.setQueue_torus q v : (s.setQueue q v).torus = s.torus := rfl
@[simp] theorem State.setQueue_data q v : (s.setQueue q v).data = s.data := rfl
@[simp] theorem State.setQueue_dies q v : (s.setQueue q v).dies = s.dies := rfl

/-! ### setFrame -/

@[simp] theorem State.setFrame_pending f v : (s.setFrame f v).pending = s.pending := rfl
@[simp] theorem State.setFrame_now f v : (s.setFrame f v).now = s.now := rfl
@[simp] theorem State.setFrame_fresh f v : (s.setFrame f v).fresh = s.fresh := rfl
@[simp] theorem State.setFrame_out f v : (s.setFrame f v).out = s.out := rfl
@[simp] theorem State.setFrame_fuses f v : (s.setFrame f v).fuses = s.fuses := rfl
@[simp] theorem State.setFrame_objs f v : (s.setFrame f v).objs = s.objs := rfl
@[simp] theorem State.setFrame_doms f v : (s.setFrame f v).doms = s.doms := rfl
@[simp] theorem State.setFrame_mgmt f v : (s.setFrame f v).mgmt = s.mgmt := rfl
@[simp] theorem State.setFrame_start f v : (s.setFrame f v).start = s.start := rfl
@[simp] theorem State.setFrame_node f v : (s.setFrame f v).node = s.node := rfl
@[simp] theorem State.setFrame_cores f v : (s.setFrame f v).cores = s.cores := rfl
@[simp] theorem State.setFrame_bents f v : (s.setFrame f v).bents = s.bents := rfl
@[simp] theorem State.setFrame_queues f v : (s.setFrame f v).queues = s.queues := rfl
@[simp] theorem State.setFrame_flights f v : (s.setFrame f v).flights = s.flights := rfl
@[simp] theorem State.setFrame_pages f v : (s.setFrame f v).pages = s.pages := rfl
@[simp] theorem State.setFrame_slots f v : (s.setFrame f v).slots = s.slots := rfl
@[simp] theorem State.setFrame_lanes f v : (s.setFrame f v).lanes = s.lanes := rfl
@[simp] theorem State.setFrame_asks f v : (s.setFrame f v).asks = s.asks := rfl
@[simp] theorem State.setFrame_commit f v : (s.setFrame f v).commit = s.commit := rfl
@[simp] theorem State.setFrame_buckets f v : (s.setFrame f v).buckets = s.buckets := rfl
@[simp] theorem State.setFrame_chans f v : (s.setFrame f v).chans = s.chans := rfl
@[simp] theorem State.setFrame_faults f v : (s.setFrame f v).faults = s.faults := rfl
@[simp] theorem State.setFrame_torus f v : (s.setFrame f v).torus = s.torus := rfl
@[simp] theorem State.setFrame_data f v : (s.setFrame f v).data = s.data := rfl
@[simp] theorem State.setFrame_dies f v : (s.setFrame f v).dies = s.dies := rfl

/-! ### setPage -/

@[simp] theorem State.setPage_pending p v : (s.setPage p v).pending = s.pending := rfl
@[simp] theorem State.setPage_now p v : (s.setPage p v).now = s.now := rfl
@[simp] theorem State.setPage_fresh p v : (s.setPage p v).fresh = s.fresh := rfl
@[simp] theorem State.setPage_out p v : (s.setPage p v).out = s.out := rfl
@[simp] theorem State.setPage_fuses p v : (s.setPage p v).fuses = s.fuses := rfl
@[simp] theorem State.setPage_objs p v : (s.setPage p v).objs = s.objs := rfl
@[simp] theorem State.setPage_doms p v : (s.setPage p v).doms = s.doms := rfl
@[simp] theorem State.setPage_mgmt p v : (s.setPage p v).mgmt = s.mgmt := rfl
@[simp] theorem State.setPage_start p v : (s.setPage p v).start = s.start := rfl
@[simp] theorem State.setPage_node p v : (s.setPage p v).node = s.node := rfl
@[simp] theorem State.setPage_cores p v : (s.setPage p v).cores = s.cores := rfl
@[simp] theorem State.setPage_bents p v : (s.setPage p v).bents = s.bents := rfl
@[simp] theorem State.setPage_queues p v : (s.setPage p v).queues = s.queues := rfl
@[simp] theorem State.setPage_flights p v : (s.setPage p v).flights = s.flights := rfl
@[simp] theorem State.setPage_frames p v : (s.setPage p v).frames = s.frames := rfl
@[simp] theorem State.setPage_slots p v : (s.setPage p v).slots = s.slots := rfl
@[simp] theorem State.setPage_lanes p v : (s.setPage p v).lanes = s.lanes := rfl
@[simp] theorem State.setPage_asks p v : (s.setPage p v).asks = s.asks := rfl
@[simp] theorem State.setPage_commit p v : (s.setPage p v).commit = s.commit := rfl
@[simp] theorem State.setPage_buckets p v : (s.setPage p v).buckets = s.buckets := rfl
@[simp] theorem State.setPage_chans p v : (s.setPage p v).chans = s.chans := rfl
@[simp] theorem State.setPage_faults p v : (s.setPage p v).faults = s.faults := rfl
@[simp] theorem State.setPage_torus p v : (s.setPage p v).torus = s.torus := rfl
@[simp] theorem State.setPage_data p v : (s.setPage p v).data = s.data := rfl
@[simp] theorem State.setPage_dies p v : (s.setPage p v).dies = s.dies := rfl

/-! ### setSlot -/

@[simp] theorem State.setSlot_pending i v : (s.setSlot i v).pending = s.pending := rfl
@[simp] theorem State.setSlot_now i v : (s.setSlot i v).now = s.now := rfl
@[simp] theorem State.setSlot_fresh i v : (s.setSlot i v).fresh = s.fresh := rfl
@[simp] theorem State.setSlot_out i v : (s.setSlot i v).out = s.out := rfl
@[simp] theorem State.setSlot_fuses i v : (s.setSlot i v).fuses = s.fuses := rfl
@[simp] theorem State.setSlot_objs i v : (s.setSlot i v).objs = s.objs := rfl
@[simp] theorem State.setSlot_doms i v : (s.setSlot i v).doms = s.doms := rfl
@[simp] theorem State.setSlot_mgmt i v : (s.setSlot i v).mgmt = s.mgmt := rfl
@[simp] theorem State.setSlot_start i v : (s.setSlot i v).start = s.start := rfl
@[simp] theorem State.setSlot_node i v : (s.setSlot i v).node = s.node := rfl
@[simp] theorem State.setSlot_cores i v : (s.setSlot i v).cores = s.cores := rfl
@[simp] theorem State.setSlot_bents i v : (s.setSlot i v).bents = s.bents := rfl
@[simp] theorem State.setSlot_queues i v : (s.setSlot i v).queues = s.queues := rfl
@[simp] theorem State.setSlot_flights i v : (s.setSlot i v).flights = s.flights := rfl
@[simp] theorem State.setSlot_frames i v : (s.setSlot i v).frames = s.frames := rfl
@[simp] theorem State.setSlot_pages i v : (s.setSlot i v).pages = s.pages := rfl
@[simp] theorem State.setSlot_lanes i v : (s.setSlot i v).lanes = s.lanes := rfl
@[simp] theorem State.setSlot_asks i v : (s.setSlot i v).asks = s.asks := rfl
@[simp] theorem State.setSlot_commit i v : (s.setSlot i v).commit = s.commit := rfl
@[simp] theorem State.setSlot_buckets i v : (s.setSlot i v).buckets = s.buckets := rfl
@[simp] theorem State.setSlot_chans i v : (s.setSlot i v).chans = s.chans := rfl
@[simp] theorem State.setSlot_faults i v : (s.setSlot i v).faults = s.faults := rfl
@[simp] theorem State.setSlot_torus i v : (s.setSlot i v).torus = s.torus := rfl
@[simp] theorem State.setSlot_data i v : (s.setSlot i v).data = s.data := rfl
@[simp] theorem State.setSlot_dies i v : (s.setSlot i v).dies = s.dies := rfl

/-! ### modSlot -/

@[simp] theorem State.modSlot_pending i f : (s.modSlot i f).pending = s.pending := rfl
@[simp] theorem State.modSlot_now i f : (s.modSlot i f).now = s.now := rfl
@[simp] theorem State.modSlot_fresh i f : (s.modSlot i f).fresh = s.fresh := rfl
@[simp] theorem State.modSlot_out i f : (s.modSlot i f).out = s.out := rfl
@[simp] theorem State.modSlot_fuses i f : (s.modSlot i f).fuses = s.fuses := rfl
@[simp] theorem State.modSlot_objs i f : (s.modSlot i f).objs = s.objs := rfl
@[simp] theorem State.modSlot_doms i f : (s.modSlot i f).doms = s.doms := rfl
@[simp] theorem State.modSlot_mgmt i f : (s.modSlot i f).mgmt = s.mgmt := rfl
@[simp] theorem State.modSlot_start i f : (s.modSlot i f).start = s.start := rfl
@[simp] theorem State.modSlot_node i f : (s.modSlot i f).node = s.node := rfl
@[simp] theorem State.modSlot_cores i f : (s.modSlot i f).cores = s.cores := rfl
@[simp] theorem State.modSlot_bents i f : (s.modSlot i f).bents = s.bents := rfl
@[simp] theorem State.modSlot_queues i f : (s.modSlot i f).queues = s.queues := rfl
@[simp] theorem State.modSlot_flights i f : (s.modSlot i f).flights = s.flights := rfl
@[simp] theorem State.modSlot_frames i f : (s.modSlot i f).frames = s.frames := rfl
@[simp] theorem State.modSlot_pages i f : (s.modSlot i f).pages = s.pages := rfl
@[simp] theorem State.modSlot_lanes i f : (s.modSlot i f).lanes = s.lanes := rfl
@[simp] theorem State.modSlot_asks i f : (s.modSlot i f).asks = s.asks := rfl
@[simp] theorem State.modSlot_commit i f : (s.modSlot i f).commit = s.commit := rfl
@[simp] theorem State.modSlot_buckets i f : (s.modSlot i f).buckets = s.buckets := rfl
@[simp] theorem State.modSlot_chans i f : (s.modSlot i f).chans = s.chans := rfl
@[simp] theorem State.modSlot_faults i f : (s.modSlot i f).faults = s.faults := rfl
@[simp] theorem State.modSlot_torus i f : (s.modSlot i f).torus = s.torus := rfl
@[simp] theorem State.modSlot_data i f : (s.modSlot i f).data = s.data := rfl
@[simp] theorem State.modSlot_dies i f : (s.modSlot i f).dies = s.dies := rfl

/-! ### setLane -/

@[simp] theorem State.setLane_pending n v : (s.setLane n v).pending = s.pending := rfl
@[simp] theorem State.setLane_now n v : (s.setLane n v).now = s.now := rfl
@[simp] theorem State.setLane_fresh n v : (s.setLane n v).fresh = s.fresh := rfl
@[simp] theorem State.setLane_out n v : (s.setLane n v).out = s.out := rfl
@[simp] theorem State.setLane_fuses n v : (s.setLane n v).fuses = s.fuses := rfl
@[simp] theorem State.setLane_objs n v : (s.setLane n v).objs = s.objs := rfl
@[simp] theorem State.setLane_doms n v : (s.setLane n v).doms = s.doms := rfl
@[simp] theorem State.setLane_mgmt n v : (s.setLane n v).mgmt = s.mgmt := rfl
@[simp] theorem State.setLane_start n v : (s.setLane n v).start = s.start := rfl
@[simp] theorem State.setLane_node n v : (s.setLane n v).node = s.node := rfl
@[simp] theorem State.setLane_cores n v : (s.setLane n v).cores = s.cores := rfl
@[simp] theorem State.setLane_bents n v : (s.setLane n v).bents = s.bents := rfl
@[simp] theorem State.setLane_queues n v : (s.setLane n v).queues = s.queues := rfl
@[simp] theorem State.setLane_flights n v : (s.setLane n v).flights = s.flights := rfl
@[simp] theorem State.setLane_frames n v : (s.setLane n v).frames = s.frames := rfl
@[simp] theorem State.setLane_pages n v : (s.setLane n v).pages = s.pages := rfl
@[simp] theorem State.setLane_slots n v : (s.setLane n v).slots = s.slots := rfl
@[simp] theorem State.setLane_asks n v : (s.setLane n v).asks = s.asks := rfl
@[simp] theorem State.setLane_commit n v : (s.setLane n v).commit = s.commit := rfl
@[simp] theorem State.setLane_buckets n v : (s.setLane n v).buckets = s.buckets := rfl
@[simp] theorem State.setLane_chans n v : (s.setLane n v).chans = s.chans := rfl
@[simp] theorem State.setLane_faults n v : (s.setLane n v).faults = s.faults := rfl
@[simp] theorem State.setLane_torus n v : (s.setLane n v).torus = s.torus := rfl
@[simp] theorem State.setLane_data n v : (s.setLane n v).data = s.data := rfl
@[simp] theorem State.setLane_dies n v : (s.setLane n v).dies = s.dies := rfl

/-! ### modLane -/

@[simp] theorem State.modLane_pending n f : (s.modLane n f).pending = s.pending := rfl
@[simp] theorem State.modLane_now n f : (s.modLane n f).now = s.now := rfl
@[simp] theorem State.modLane_fresh n f : (s.modLane n f).fresh = s.fresh := rfl
@[simp] theorem State.modLane_out n f : (s.modLane n f).out = s.out := rfl
@[simp] theorem State.modLane_fuses n f : (s.modLane n f).fuses = s.fuses := rfl
@[simp] theorem State.modLane_objs n f : (s.modLane n f).objs = s.objs := rfl
@[simp] theorem State.modLane_doms n f : (s.modLane n f).doms = s.doms := rfl
@[simp] theorem State.modLane_mgmt n f : (s.modLane n f).mgmt = s.mgmt := rfl
@[simp] theorem State.modLane_start n f : (s.modLane n f).start = s.start := rfl
@[simp] theorem State.modLane_node n f : (s.modLane n f).node = s.node := rfl
@[simp] theorem State.modLane_cores n f : (s.modLane n f).cores = s.cores := rfl
@[simp] theorem State.modLane_bents n f : (s.modLane n f).bents = s.bents := rfl
@[simp] theorem State.modLane_queues n f : (s.modLane n f).queues = s.queues := rfl
@[simp] theorem State.modLane_flights n f : (s.modLane n f).flights = s.flights := rfl
@[simp] theorem State.modLane_frames n f : (s.modLane n f).frames = s.frames := rfl
@[simp] theorem State.modLane_pages n f : (s.modLane n f).pages = s.pages := rfl
@[simp] theorem State.modLane_slots n f : (s.modLane n f).slots = s.slots := rfl
@[simp] theorem State.modLane_asks n f : (s.modLane n f).asks = s.asks := rfl
@[simp] theorem State.modLane_commit n f : (s.modLane n f).commit = s.commit := rfl
@[simp] theorem State.modLane_buckets n f : (s.modLane n f).buckets = s.buckets := rfl
@[simp] theorem State.modLane_chans n f : (s.modLane n f).chans = s.chans := rfl
@[simp] theorem State.modLane_faults n f : (s.modLane n f).faults = s.faults := rfl
@[simp] theorem State.modLane_torus n f : (s.modLane n f).torus = s.torus := rfl
@[simp] theorem State.modLane_data n f : (s.modLane n f).data = s.data := rfl
@[simp] theorem State.modLane_dies n f : (s.modLane n f).dies = s.dies := rfl

/-! ### setBucket -/

@[simp] theorem State.setBucket_pending i b v : (s.setBucket i b v).pending = s.pending := rfl
@[simp] theorem State.setBucket_now i b v : (s.setBucket i b v).now = s.now := rfl
@[simp] theorem State.setBucket_fresh i b v : (s.setBucket i b v).fresh = s.fresh := rfl
@[simp] theorem State.setBucket_out i b v : (s.setBucket i b v).out = s.out := rfl
@[simp] theorem State.setBucket_fuses i b v : (s.setBucket i b v).fuses = s.fuses := rfl
@[simp] theorem State.setBucket_objs i b v : (s.setBucket i b v).objs = s.objs := rfl
@[simp] theorem State.setBucket_doms i b v : (s.setBucket i b v).doms = s.doms := rfl
@[simp] theorem State.setBucket_mgmt i b v : (s.setBucket i b v).mgmt = s.mgmt := rfl
@[simp] theorem State.setBucket_start i b v : (s.setBucket i b v).start = s.start := rfl
@[simp] theorem State.setBucket_node i b v : (s.setBucket i b v).node = s.node := rfl
@[simp] theorem State.setBucket_cores i b v : (s.setBucket i b v).cores = s.cores := rfl
@[simp] theorem State.setBucket_bents i b v : (s.setBucket i b v).bents = s.bents := rfl
@[simp] theorem State.setBucket_queues i b v : (s.setBucket i b v).queues = s.queues := rfl
@[simp] theorem State.setBucket_flights i b v : (s.setBucket i b v).flights = s.flights := rfl
@[simp] theorem State.setBucket_frames i b v : (s.setBucket i b v).frames = s.frames := rfl
@[simp] theorem State.setBucket_pages i b v : (s.setBucket i b v).pages = s.pages := rfl
@[simp] theorem State.setBucket_slots i b v : (s.setBucket i b v).slots = s.slots := rfl
@[simp] theorem State.setBucket_lanes i b v : (s.setBucket i b v).lanes = s.lanes := rfl
@[simp] theorem State.setBucket_asks i b v : (s.setBucket i b v).asks = s.asks := rfl
@[simp] theorem State.setBucket_commit i b v : (s.setBucket i b v).commit = s.commit := rfl
@[simp] theorem State.setBucket_chans i b v : (s.setBucket i b v).chans = s.chans := rfl
@[simp] theorem State.setBucket_faults i b v : (s.setBucket i b v).faults = s.faults := rfl
@[simp] theorem State.setBucket_torus i b v : (s.setBucket i b v).torus = s.torus := rfl
@[simp] theorem State.setBucket_data i b v : (s.setBucket i b v).data = s.data := rfl
@[simp] theorem State.setBucket_dies i b v : (s.setBucket i b v).dies = s.dies := rfl

/-! ### setChan -/

@[simp] theorem State.setChan_pending c v : (s.setChan c v).pending = s.pending := rfl
@[simp] theorem State.setChan_now c v : (s.setChan c v).now = s.now := rfl
@[simp] theorem State.setChan_fresh c v : (s.setChan c v).fresh = s.fresh := rfl
@[simp] theorem State.setChan_out c v : (s.setChan c v).out = s.out := rfl
@[simp] theorem State.setChan_fuses c v : (s.setChan c v).fuses = s.fuses := rfl
@[simp] theorem State.setChan_objs c v : (s.setChan c v).objs = s.objs := rfl
@[simp] theorem State.setChan_doms c v : (s.setChan c v).doms = s.doms := rfl
@[simp] theorem State.setChan_mgmt c v : (s.setChan c v).mgmt = s.mgmt := rfl
@[simp] theorem State.setChan_start c v : (s.setChan c v).start = s.start := rfl
@[simp] theorem State.setChan_node c v : (s.setChan c v).node = s.node := rfl
@[simp] theorem State.setChan_cores c v : (s.setChan c v).cores = s.cores := rfl
@[simp] theorem State.setChan_bents c v : (s.setChan c v).bents = s.bents := rfl
@[simp] theorem State.setChan_queues c v : (s.setChan c v).queues = s.queues := rfl
@[simp] theorem State.setChan_flights c v : (s.setChan c v).flights = s.flights := rfl
@[simp] theorem State.setChan_frames c v : (s.setChan c v).frames = s.frames := rfl
@[simp] theorem State.setChan_pages c v : (s.setChan c v).pages = s.pages := rfl
@[simp] theorem State.setChan_slots c v : (s.setChan c v).slots = s.slots := rfl
@[simp] theorem State.setChan_lanes c v : (s.setChan c v).lanes = s.lanes := rfl
@[simp] theorem State.setChan_asks c v : (s.setChan c v).asks = s.asks := rfl
@[simp] theorem State.setChan_commit c v : (s.setChan c v).commit = s.commit := rfl
@[simp] theorem State.setChan_buckets c v : (s.setChan c v).buckets = s.buckets := rfl
@[simp] theorem State.setChan_faults c v : (s.setChan c v).faults = s.faults := rfl
@[simp] theorem State.setChan_torus c v : (s.setChan c v).torus = s.torus := rfl
@[simp] theorem State.setChan_data c v : (s.setChan c v).data = s.data := rfl
@[simp] theorem State.setChan_dies c v : (s.setChan c v).dies = s.dies := rfl

/-! ### modChan -/

@[simp] theorem State.modChan_pending c f : (s.modChan c f).pending = s.pending := rfl
@[simp] theorem State.modChan_now c f : (s.modChan c f).now = s.now := rfl
@[simp] theorem State.modChan_fresh c f : (s.modChan c f).fresh = s.fresh := rfl
@[simp] theorem State.modChan_out c f : (s.modChan c f).out = s.out := rfl
@[simp] theorem State.modChan_fuses c f : (s.modChan c f).fuses = s.fuses := rfl
@[simp] theorem State.modChan_objs c f : (s.modChan c f).objs = s.objs := rfl
@[simp] theorem State.modChan_doms c f : (s.modChan c f).doms = s.doms := rfl
@[simp] theorem State.modChan_mgmt c f : (s.modChan c f).mgmt = s.mgmt := rfl
@[simp] theorem State.modChan_start c f : (s.modChan c f).start = s.start := rfl
@[simp] theorem State.modChan_node c f : (s.modChan c f).node = s.node := rfl
@[simp] theorem State.modChan_cores c f : (s.modChan c f).cores = s.cores := rfl
@[simp] theorem State.modChan_bents c f : (s.modChan c f).bents = s.bents := rfl
@[simp] theorem State.modChan_queues c f : (s.modChan c f).queues = s.queues := rfl
@[simp] theorem State.modChan_flights c f : (s.modChan c f).flights = s.flights := rfl
@[simp] theorem State.modChan_frames c f : (s.modChan c f).frames = s.frames := rfl
@[simp] theorem State.modChan_pages c f : (s.modChan c f).pages = s.pages := rfl
@[simp] theorem State.modChan_slots c f : (s.modChan c f).slots = s.slots := rfl
@[simp] theorem State.modChan_lanes c f : (s.modChan c f).lanes = s.lanes := rfl
@[simp] theorem State.modChan_asks c f : (s.modChan c f).asks = s.asks := rfl
@[simp] theorem State.modChan_commit c f : (s.modChan c f).commit = s.commit := rfl
@[simp] theorem State.modChan_buckets c f : (s.modChan c f).buckets = s.buckets := rfl
@[simp] theorem State.modChan_faults c f : (s.modChan c f).faults = s.faults := rfl
@[simp] theorem State.modChan_torus c f : (s.modChan c f).torus = s.torus := rfl
@[simp] theorem State.modChan_data c f : (s.modChan c f).data = s.data := rfl
@[simp] theorem State.modChan_dies c f : (s.modChan c f).dies = s.dies := rfl

/-! ### modData -/

@[simp] theorem State.modData_pending f : (s.modData f).pending = s.pending := rfl
@[simp] theorem State.modData_now f : (s.modData f).now = s.now := rfl
@[simp] theorem State.modData_fresh f : (s.modData f).fresh = s.fresh := rfl
@[simp] theorem State.modData_out f : (s.modData f).out = s.out := rfl
@[simp] theorem State.modData_fuses f : (s.modData f).fuses = s.fuses := rfl
@[simp] theorem State.modData_objs f : (s.modData f).objs = s.objs := rfl
@[simp] theorem State.modData_doms f : (s.modData f).doms = s.doms := rfl
@[simp] theorem State.modData_mgmt f : (s.modData f).mgmt = s.mgmt := rfl
@[simp] theorem State.modData_start f : (s.modData f).start = s.start := rfl
@[simp] theorem State.modData_node f : (s.modData f).node = s.node := rfl
@[simp] theorem State.modData_cores f : (s.modData f).cores = s.cores := rfl
@[simp] theorem State.modData_bents f : (s.modData f).bents = s.bents := rfl
@[simp] theorem State.modData_queues f : (s.modData f).queues = s.queues := rfl
@[simp] theorem State.modData_flights f : (s.modData f).flights = s.flights := rfl
@[simp] theorem State.modData_frames f : (s.modData f).frames = s.frames := rfl
@[simp] theorem State.modData_pages f : (s.modData f).pages = s.pages := rfl
@[simp] theorem State.modData_slots f : (s.modData f).slots = s.slots := rfl
@[simp] theorem State.modData_lanes f : (s.modData f).lanes = s.lanes := rfl
@[simp] theorem State.modData_asks f : (s.modData f).asks = s.asks := rfl
@[simp] theorem State.modData_commit f : (s.modData f).commit = s.commit := rfl
@[simp] theorem State.modData_buckets f : (s.modData f).buckets = s.buckets := rfl
@[simp] theorem State.modData_chans f : (s.modData f).chans = s.chans := rfl
@[simp] theorem State.modData_faults f : (s.modData f).faults = s.faults := rfl
@[simp] theorem State.modData_torus f : (s.modData f).torus = s.torus := rfl
@[simp] theorem State.modData_dies f : (s.modData f).dies = s.dies := rfl

/-! ### setTport -/

@[simp] theorem State.setTport_pending n p : (s.setTport n p).pending = s.pending := rfl
@[simp] theorem State.setTport_now n p : (s.setTport n p).now = s.now := rfl
@[simp] theorem State.setTport_fresh n p : (s.setTport n p).fresh = s.fresh := rfl
@[simp] theorem State.setTport_out n p : (s.setTport n p).out = s.out := rfl
@[simp] theorem State.setTport_fuses n p : (s.setTport n p).fuses = s.fuses := rfl
@[simp] theorem State.setTport_objs n p : (s.setTport n p).objs = s.objs := rfl
@[simp] theorem State.setTport_doms n p : (s.setTport n p).doms = s.doms := rfl
@[simp] theorem State.setTport_mgmt n p : (s.setTport n p).mgmt = s.mgmt := rfl
@[simp] theorem State.setTport_start n p : (s.setTport n p).start = s.start := rfl
@[simp] theorem State.setTport_node n p : (s.setTport n p).node = s.node := rfl
@[simp] theorem State.setTport_cores n p : (s.setTport n p).cores = s.cores := rfl
@[simp] theorem State.setTport_bents n p : (s.setTport n p).bents = s.bents := rfl
@[simp] theorem State.setTport_queues n p : (s.setTport n p).queues = s.queues := rfl
@[simp] theorem State.setTport_flights n p : (s.setTport n p).flights = s.flights := rfl
@[simp] theorem State.setTport_frames n p : (s.setTport n p).frames = s.frames := rfl
@[simp] theorem State.setTport_pages n p : (s.setTport n p).pages = s.pages := rfl
@[simp] theorem State.setTport_slots n p : (s.setTport n p).slots = s.slots := rfl
@[simp] theorem State.setTport_lanes n p : (s.setTport n p).lanes = s.lanes := rfl
@[simp] theorem State.setTport_asks n p : (s.setTport n p).asks = s.asks := rfl
@[simp] theorem State.setTport_commit n p : (s.setTport n p).commit = s.commit := rfl
@[simp] theorem State.setTport_buckets n p : (s.setTport n p).buckets = s.buckets := rfl
@[simp] theorem State.setTport_chans n p : (s.setTport n p).chans = s.chans := rfl
@[simp] theorem State.setTport_faults n p : (s.setTport n p).faults = s.faults := rfl
@[simp] theorem State.setTport_data n p : (s.setTport n p).data = s.data := rfl
@[simp] theorem State.setTport_dies n p : (s.setTport n p).dies = s.dies := rfl

/-! ### modTport -/

@[simp] theorem State.modTport_pending n f : (s.modTport n f).pending = s.pending := rfl
@[simp] theorem State.modTport_now n f : (s.modTport n f).now = s.now := rfl
@[simp] theorem State.modTport_fresh n f : (s.modTport n f).fresh = s.fresh := rfl
@[simp] theorem State.modTport_out n f : (s.modTport n f).out = s.out := rfl
@[simp] theorem State.modTport_fuses n f : (s.modTport n f).fuses = s.fuses := rfl
@[simp] theorem State.modTport_objs n f : (s.modTport n f).objs = s.objs := rfl
@[simp] theorem State.modTport_doms n f : (s.modTport n f).doms = s.doms := rfl
@[simp] theorem State.modTport_mgmt n f : (s.modTport n f).mgmt = s.mgmt := rfl
@[simp] theorem State.modTport_start n f : (s.modTport n f).start = s.start := rfl
@[simp] theorem State.modTport_node n f : (s.modTport n f).node = s.node := rfl
@[simp] theorem State.modTport_cores n f : (s.modTport n f).cores = s.cores := rfl
@[simp] theorem State.modTport_bents n f : (s.modTport n f).bents = s.bents := rfl
@[simp] theorem State.modTport_queues n f : (s.modTport n f).queues = s.queues := rfl
@[simp] theorem State.modTport_flights n f : (s.modTport n f).flights = s.flights := rfl
@[simp] theorem State.modTport_frames n f : (s.modTport n f).frames = s.frames := rfl
@[simp] theorem State.modTport_pages n f : (s.modTport n f).pages = s.pages := rfl
@[simp] theorem State.modTport_slots n f : (s.modTport n f).slots = s.slots := rfl
@[simp] theorem State.modTport_lanes n f : (s.modTport n f).lanes = s.lanes := rfl
@[simp] theorem State.modTport_asks n f : (s.modTport n f).asks = s.asks := rfl
@[simp] theorem State.modTport_commit n f : (s.modTport n f).commit = s.commit := rfl
@[simp] theorem State.modTport_buckets n f : (s.modTport n f).buckets = s.buckets := rfl
@[simp] theorem State.modTport_chans n f : (s.modTport n f).chans = s.chans := rfl
@[simp] theorem State.modTport_faults n f : (s.modTport n f).faults = s.faults := rfl
@[simp] theorem State.modTport_data n f : (s.modTport n f).data = s.data := rfl
@[simp] theorem State.modTport_dies n f : (s.modTport n f).dies = s.dies := rfl

/-! ### setCache -/

@[simp] theorem State.setCache_pending d c : (s.setCache d c).pending = s.pending := rfl
@[simp] theorem State.setCache_now d c : (s.setCache d c).now = s.now := rfl
@[simp] theorem State.setCache_fresh d c : (s.setCache d c).fresh = s.fresh := rfl
@[simp] theorem State.setCache_out d c : (s.setCache d c).out = s.out := rfl
@[simp] theorem State.setCache_fuses d c : (s.setCache d c).fuses = s.fuses := rfl
@[simp] theorem State.setCache_objs d c : (s.setCache d c).objs = s.objs := rfl
@[simp] theorem State.setCache_doms d c : (s.setCache d c).doms = s.doms := rfl
@[simp] theorem State.setCache_mgmt d c : (s.setCache d c).mgmt = s.mgmt := rfl
@[simp] theorem State.setCache_start d c : (s.setCache d c).start = s.start := rfl
@[simp] theorem State.setCache_node d c : (s.setCache d c).node = s.node := rfl
@[simp] theorem State.setCache_cores d c : (s.setCache d c).cores = s.cores := rfl
@[simp] theorem State.setCache_bents d c : (s.setCache d c).bents = s.bents := rfl
@[simp] theorem State.setCache_queues d c : (s.setCache d c).queues = s.queues := rfl
@[simp] theorem State.setCache_flights d c : (s.setCache d c).flights = s.flights := rfl
@[simp] theorem State.setCache_frames d c : (s.setCache d c).frames = s.frames := rfl
@[simp] theorem State.setCache_pages d c : (s.setCache d c).pages = s.pages := rfl
@[simp] theorem State.setCache_slots d c : (s.setCache d c).slots = s.slots := rfl
@[simp] theorem State.setCache_lanes d c : (s.setCache d c).lanes = s.lanes := rfl
@[simp] theorem State.setCache_asks d c : (s.setCache d c).asks = s.asks := rfl
@[simp] theorem State.setCache_commit d c : (s.setCache d c).commit = s.commit := rfl
@[simp] theorem State.setCache_buckets d c : (s.setCache d c).buckets = s.buckets := rfl
@[simp] theorem State.setCache_chans d c : (s.setCache d c).chans = s.chans := rfl
@[simp] theorem State.setCache_faults d c : (s.setCache d c).faults = s.faults := rfl
@[simp] theorem State.setCache_torus d c : (s.setCache d c).torus = s.torus := rfl
@[simp] theorem State.setCache_data d c : (s.setCache d c).data = s.data := rfl

/-! ### setDieLink -/

@[simp] theorem State.setDieLink_pending n l : (s.setDieLink n l).pending = s.pending := rfl
@[simp] theorem State.setDieLink_now n l : (s.setDieLink n l).now = s.now := rfl
@[simp] theorem State.setDieLink_fresh n l : (s.setDieLink n l).fresh = s.fresh := rfl
@[simp] theorem State.setDieLink_out n l : (s.setDieLink n l).out = s.out := rfl
@[simp] theorem State.setDieLink_fuses n l : (s.setDieLink n l).fuses = s.fuses := rfl
@[simp] theorem State.setDieLink_objs n l : (s.setDieLink n l).objs = s.objs := rfl
@[simp] theorem State.setDieLink_doms n l : (s.setDieLink n l).doms = s.doms := rfl
@[simp] theorem State.setDieLink_mgmt n l : (s.setDieLink n l).mgmt = s.mgmt := rfl
@[simp] theorem State.setDieLink_start n l : (s.setDieLink n l).start = s.start := rfl
@[simp] theorem State.setDieLink_node n l : (s.setDieLink n l).node = s.node := rfl
@[simp] theorem State.setDieLink_cores n l : (s.setDieLink n l).cores = s.cores := rfl
@[simp] theorem State.setDieLink_bents n l : (s.setDieLink n l).bents = s.bents := rfl
@[simp] theorem State.setDieLink_queues n l : (s.setDieLink n l).queues = s.queues := rfl
@[simp] theorem State.setDieLink_flights n l : (s.setDieLink n l).flights = s.flights := rfl
@[simp] theorem State.setDieLink_frames n l : (s.setDieLink n l).frames = s.frames := rfl
@[simp] theorem State.setDieLink_pages n l : (s.setDieLink n l).pages = s.pages := rfl
@[simp] theorem State.setDieLink_slots n l : (s.setDieLink n l).slots = s.slots := rfl
@[simp] theorem State.setDieLink_lanes n l : (s.setDieLink n l).lanes = s.lanes := rfl
@[simp] theorem State.setDieLink_asks n l : (s.setDieLink n l).asks = s.asks := rfl
@[simp] theorem State.setDieLink_commit n l : (s.setDieLink n l).commit = s.commit := rfl
@[simp] theorem State.setDieLink_buckets n l : (s.setDieLink n l).buckets = s.buckets := rfl
@[simp] theorem State.setDieLink_chans n l : (s.setDieLink n l).chans = s.chans := rfl
@[simp] theorem State.setDieLink_faults n l : (s.setDieLink n l).faults = s.faults := rfl
@[simp] theorem State.setDieLink_torus n l : (s.setDieLink n l).torus = s.torus := rfl
@[simp] theorem State.setDieLink_data n l : (s.setDieLink n l).data = s.data := rfl

/-! ### trace -/

@[simp] theorem State.trace_pending f : (s.trace f).pending = s.pending := by simp only [State.trace]
@[simp] theorem State.trace_now f : (s.trace f).now = s.now := by simp only [State.trace]
@[simp] theorem State.trace_fresh f : (s.trace f).fresh = s.fresh := by simp only [State.trace]
@[simp] theorem State.trace_out f : (s.trace f).out = s.out := by simp only [State.trace]
@[simp] theorem State.trace_fuses f : (s.trace f).fuses = s.fuses := by simp only [State.trace]
@[simp] theorem State.trace_objs f : (s.trace f).objs = s.objs := by simp only [State.trace]
@[simp] theorem State.trace_doms f : (s.trace f).doms = s.doms := by simp only [State.trace]
@[simp] theorem State.trace_start f : (s.trace f).start = s.start := by simp only [State.trace]
@[simp] theorem State.trace_node f : (s.trace f).node = s.node := by simp only [State.trace]
@[simp] theorem State.trace_cores f : (s.trace f).cores = s.cores := by simp only [State.trace]
@[simp] theorem State.trace_bents f : (s.trace f).bents = s.bents := by simp only [State.trace]
@[simp] theorem State.trace_queues f : (s.trace f).queues = s.queues := by simp only [State.trace]
@[simp] theorem State.trace_flights f : (s.trace f).flights = s.flights := by simp only [State.trace]
@[simp] theorem State.trace_frames f : (s.trace f).frames = s.frames := by simp only [State.trace]
@[simp] theorem State.trace_pages f : (s.trace f).pages = s.pages := by simp only [State.trace]
@[simp] theorem State.trace_slots f : (s.trace f).slots = s.slots := by simp only [State.trace]
@[simp] theorem State.trace_lanes f : (s.trace f).lanes = s.lanes := by simp only [State.trace]
@[simp] theorem State.trace_asks f : (s.trace f).asks = s.asks := by simp only [State.trace]
@[simp] theorem State.trace_commit f : (s.trace f).commit = s.commit := by simp only [State.trace]
@[simp] theorem State.trace_buckets f : (s.trace f).buckets = s.buckets := by simp only [State.trace]
@[simp] theorem State.trace_chans f : (s.trace f).chans = s.chans := by simp only [State.trace]
@[simp] theorem State.trace_faults f : (s.trace f).faults = s.faults := by simp only [State.trace]
@[simp] theorem State.trace_torus f : (s.trace f).torus = s.torus := by simp only [State.trace]
@[simp] theorem State.trace_data f : (s.trace f).data = s.data := by simp only [State.trace]
@[simp] theorem State.trace_dies f : (s.trace f).dies = s.dies := by simp only [State.trace]

/-! ### modSession -/

@[simp] theorem State.modSession_pending i f : (s.modSession i f).pending = s.pending := by simp only [State.modSession]
@[simp] theorem State.modSession_now i f : (s.modSession i f).now = s.now := by simp only [State.modSession]
@[simp] theorem State.modSession_fresh i f : (s.modSession i f).fresh = s.fresh := by simp only [State.modSession]
@[simp] theorem State.modSession_out i f : (s.modSession i f).out = s.out := by simp only [State.modSession]
@[simp] theorem State.modSession_fuses i f : (s.modSession i f).fuses = s.fuses := by simp only [State.modSession]
@[simp] theorem State.modSession_objs i f : (s.modSession i f).objs = s.objs := by simp only [State.modSession]
@[simp] theorem State.modSession_doms i f : (s.modSession i f).doms = s.doms := by simp only [State.modSession]
@[simp] theorem State.modSession_start i f : (s.modSession i f).start = s.start := by simp only [State.modSession]
@[simp] theorem State.modSession_node i f : (s.modSession i f).node = s.node := by simp only [State.modSession]
@[simp] theorem State.modSession_cores i f : (s.modSession i f).cores = s.cores := by simp only [State.modSession]
@[simp] theorem State.modSession_bents i f : (s.modSession i f).bents = s.bents := by simp only [State.modSession]
@[simp] theorem State.modSession_queues i f : (s.modSession i f).queues = s.queues := by simp only [State.modSession]
@[simp] theorem State.modSession_flights i f : (s.modSession i f).flights = s.flights := by simp only [State.modSession]
@[simp] theorem State.modSession_frames i f : (s.modSession i f).frames = s.frames := by simp only [State.modSession]
@[simp] theorem State.modSession_pages i f : (s.modSession i f).pages = s.pages := by simp only [State.modSession]
@[simp] theorem State.modSession_slots i f : (s.modSession i f).slots = s.slots := by simp only [State.modSession]
@[simp] theorem State.modSession_lanes i f : (s.modSession i f).lanes = s.lanes := by simp only [State.modSession]
@[simp] theorem State.modSession_asks i f : (s.modSession i f).asks = s.asks := by simp only [State.modSession]
@[simp] theorem State.modSession_commit i f : (s.modSession i f).commit = s.commit := by simp only [State.modSession]
@[simp] theorem State.modSession_buckets i f : (s.modSession i f).buckets = s.buckets := by simp only [State.modSession]
@[simp] theorem State.modSession_chans i f : (s.modSession i f).chans = s.chans := by simp only [State.modSession]
@[simp] theorem State.modSession_faults i f : (s.modSession i f).faults = s.faults := by simp only [State.modSession]
@[simp] theorem State.modSession_torus i f : (s.modSession i f).torus = s.torus := by simp only [State.modSession]
@[simp] theorem State.modSession_data i f : (s.modSession i f).data = s.data := by simp only [State.modSession]
@[simp] theorem State.modSession_dies i f : (s.modSession i f).dies = s.dies := by simp only [State.modSession]

/-! ### remember -/

@[simp] theorem State.remember_pending i q t : (s.remember i q t).pending = s.pending := by simp only [State.remember, State.modSession]
@[simp] theorem State.remember_now i q t : (s.remember i q t).now = s.now := by simp only [State.remember, State.modSession]
@[simp] theorem State.remember_fresh i q t : (s.remember i q t).fresh = s.fresh := by simp only [State.remember, State.modSession]
@[simp] theorem State.remember_out i q t : (s.remember i q t).out = s.out := by simp only [State.remember, State.modSession]
@[simp] theorem State.remember_fuses i q t : (s.remember i q t).fuses = s.fuses := by simp only [State.remember, State.modSession]
@[simp] theorem State.remember_objs i q t : (s.remember i q t).objs = s.objs := by simp only [State.remember, State.modSession]
@[simp] theorem State.remember_doms i q t : (s.remember i q t).doms = s.doms := by simp only [State.remember, State.modSession]
@[simp] theorem State.remember_start i q t : (s.remember i q t).start = s.start := by simp only [State.remember, State.modSession]
@[simp] theorem State.remember_node i q t : (s.remember i q t).node = s.node := by simp only [State.remember, State.modSession]
@[simp] theorem State.remember_cores i q t : (s.remember i q t).cores = s.cores := by simp only [State.remember, State.modSession]
@[simp] theorem State.remember_bents i q t : (s.remember i q t).bents = s.bents := by simp only [State.remember, State.modSession]
@[simp] theorem State.remember_queues i q t : (s.remember i q t).queues = s.queues := by simp only [State.remember, State.modSession]
@[simp] theorem State.remember_flights i q t : (s.remember i q t).flights = s.flights := by simp only [State.remember, State.modSession]
@[simp] theorem State.remember_frames i q t : (s.remember i q t).frames = s.frames := by simp only [State.remember, State.modSession]
@[simp] theorem State.remember_pages i q t : (s.remember i q t).pages = s.pages := by simp only [State.remember, State.modSession]
@[simp] theorem State.remember_slots i q t : (s.remember i q t).slots = s.slots := by simp only [State.remember, State.modSession]
@[simp] theorem State.remember_lanes i q t : (s.remember i q t).lanes = s.lanes := by simp only [State.remember, State.modSession]
@[simp] theorem State.remember_asks i q t : (s.remember i q t).asks = s.asks := by simp only [State.remember, State.modSession]
@[simp] theorem State.remember_commit i q t : (s.remember i q t).commit = s.commit := by simp only [State.remember, State.modSession]
@[simp] theorem State.remember_buckets i q t : (s.remember i q t).buckets = s.buckets := by simp only [State.remember, State.modSession]
@[simp] theorem State.remember_chans i q t : (s.remember i q t).chans = s.chans := by simp only [State.remember, State.modSession]
@[simp] theorem State.remember_faults i q t : (s.remember i q t).faults = s.faults := by simp only [State.remember, State.modSession]
@[simp] theorem State.remember_torus i q t : (s.remember i q t).torus = s.torus := by simp only [State.remember, State.modSession]
@[simp] theorem State.remember_data i q t : (s.remember i q t).data = s.data := by simp only [State.remember, State.modSession]
@[simp] theorem State.remember_dies i q t : (s.remember i q t).dies = s.dies := by simp only [State.remember, State.modSession]

/-! ### Updates that count -/

/-- A step taken over a list changes only the objects when each does. -/
theorem State.each_objs {α : Type} (f : State → α → State) (h : ∀ t a, f t a = { t with objs := (f t a).objs }) :
    ∀ (l : List α) (s : State), State.each f s l = { s with objs := (State.each f s l).objs }
  | [], _ => rfl
  | a :: r, s => by
    have := State.each_objs f h r (f s a)
    rw [State.each, this, h s a]

/-- A counter's step changes only the objects. -/
theorem State.bump_objs (v o b n : Nat) : s.bump v o b n = { s with objs := (s.bump v o b n).objs } := by
  simp only [State.bump]; split <;> rfl

/-- Writing a list of objects changes only the objects. -/
theorem State.wrAll_objs (l : List (Nat × Nat)) : s.wrAll l = { s with objs := (s.wrAll l).objs } := by
  induction l generalizing s with
  | nil => rfl
  | cons p r ih => rw [State.wrAll, ih]; rfl

/-- An event of a core changes only the objects. -/
theorem State.pc_objs (c e n : Nat) : s.pc c e n = { s with objs := (s.pc c e n).objs } := by
  unfold State.pc
  split
  · rfl
  · exact State.each_objs _ (fun t k => by split; exact State.bump_objs t _ _ _ _; rfl) _ s

/-- An event of a Bent changes only the objects. -/
theorem State.bpc_objs (b e n : Nat) : s.bpc b e n = { s with objs := (s.bpc b e n).objs } := by
  unfold State.bpc
  split
  · rfl
  · exact State.each_objs _ (fun t k => by split; exact State.bump_objs t _ _ _ _; rfl) _ s

/-- A package event changes only the objects. -/
theorem State.kpc_objs (e u n : Nat) : s.kpc e u n = { s with objs := (s.kpc e u n).objs } := by
  unfold State.kpc
  split
  · rfl
  · exact State.each_objs _ (fun t k => by simp only []; split; exact State.bump_objs t _ _ _ _; rfl) _ s

/-! ### What a change of the objects alone leaves -/

theorem State.pending_of_objs {s t : State} {o : Map Nat} (h : t = { s with objs := o }) : t.pending = s.pending := by subst h; rfl
theorem State.now_of_objs {s t : State} {o : Map Nat} (h : t = { s with objs := o }) : t.now = s.now := by subst h; rfl
theorem State.fresh_of_objs {s t : State} {o : Map Nat} (h : t = { s with objs := o }) : t.fresh = s.fresh := by subst h; rfl
theorem State.out_of_objs {s t : State} {o : Map Nat} (h : t = { s with objs := o }) : t.out = s.out := by subst h; rfl
theorem State.fuses_of_objs {s t : State} {o : Map Nat} (h : t = { s with objs := o }) : t.fuses = s.fuses := by subst h; rfl
theorem State.doms_of_objs {s t : State} {o : Map Nat} (h : t = { s with objs := o }) : t.doms = s.doms := by subst h; rfl
theorem State.mgmt_of_objs {s t : State} {o : Map Nat} (h : t = { s with objs := o }) : t.mgmt = s.mgmt := by subst h; rfl
theorem State.start_of_objs {s t : State} {o : Map Nat} (h : t = { s with objs := o }) : t.start = s.start := by subst h; rfl
theorem State.node_of_objs {s t : State} {o : Map Nat} (h : t = { s with objs := o }) : t.node = s.node := by subst h; rfl
theorem State.cores_of_objs {s t : State} {o : Map Nat} (h : t = { s with objs := o }) : t.cores = s.cores := by subst h; rfl
theorem State.bents_of_objs {s t : State} {o : Map Nat} (h : t = { s with objs := o }) : t.bents = s.bents := by subst h; rfl
theorem State.queues_of_objs {s t : State} {o : Map Nat} (h : t = { s with objs := o }) : t.queues = s.queues := by subst h; rfl
theorem State.flights_of_objs {s t : State} {o : Map Nat} (h : t = { s with objs := o }) : t.flights = s.flights := by subst h; rfl
theorem State.frames_of_objs {s t : State} {o : Map Nat} (h : t = { s with objs := o }) : t.frames = s.frames := by subst h; rfl
theorem State.pages_of_objs {s t : State} {o : Map Nat} (h : t = { s with objs := o }) : t.pages = s.pages := by subst h; rfl
theorem State.slots_of_objs {s t : State} {o : Map Nat} (h : t = { s with objs := o }) : t.slots = s.slots := by subst h; rfl
theorem State.lanes_of_objs {s t : State} {o : Map Nat} (h : t = { s with objs := o }) : t.lanes = s.lanes := by subst h; rfl
theorem State.asks_of_objs {s t : State} {o : Map Nat} (h : t = { s with objs := o }) : t.asks = s.asks := by subst h; rfl
theorem State.commit_of_objs {s t : State} {o : Map Nat} (h : t = { s with objs := o }) : t.commit = s.commit := by subst h; rfl
theorem State.buckets_of_objs {s t : State} {o : Map Nat} (h : t = { s with objs := o }) : t.buckets = s.buckets := by subst h; rfl
theorem State.chans_of_objs {s t : State} {o : Map Nat} (h : t = { s with objs := o }) : t.chans = s.chans := by subst h; rfl
theorem State.faults_of_objs {s t : State} {o : Map Nat} (h : t = { s with objs := o }) : t.faults = s.faults := by subst h; rfl
theorem State.torus_of_objs {s t : State} {o : Map Nat} (h : t = { s with objs := o }) : t.torus = s.torus := by subst h; rfl
theorem State.data_of_objs {s t : State} {o : Map Nat} (h : t = { s with objs := o }) : t.data = s.data := by subst h; rfl
theorem State.dies_of_objs {s t : State} {o : Map Nat} (h : t = { s with objs := o }) : t.dies = s.dies := by subst h; rfl

/-! ### wrAll -/

@[simp] theorem State.wrAll_pending (l : List (Nat × Nat)) : (s.wrAll l).pending = s.pending := State.pending_of_objs (State.wrAll_objs s l)
@[simp] theorem State.wrAll_now (l : List (Nat × Nat)) : (s.wrAll l).now = s.now := State.now_of_objs (State.wrAll_objs s l)
@[simp] theorem State.wrAll_fresh (l : List (Nat × Nat)) : (s.wrAll l).fresh = s.fresh := State.fresh_of_objs (State.wrAll_objs s l)
@[simp] theorem State.wrAll_out (l : List (Nat × Nat)) : (s.wrAll l).out = s.out := State.out_of_objs (State.wrAll_objs s l)
@[simp] theorem State.wrAll_fuses (l : List (Nat × Nat)) : (s.wrAll l).fuses = s.fuses := State.fuses_of_objs (State.wrAll_objs s l)
@[simp] theorem State.wrAll_doms (l : List (Nat × Nat)) : (s.wrAll l).doms = s.doms := State.doms_of_objs (State.wrAll_objs s l)
@[simp] theorem State.wrAll_mgmt (l : List (Nat × Nat)) : (s.wrAll l).mgmt = s.mgmt := State.mgmt_of_objs (State.wrAll_objs s l)
@[simp] theorem State.wrAll_start (l : List (Nat × Nat)) : (s.wrAll l).start = s.start := State.start_of_objs (State.wrAll_objs s l)
@[simp] theorem State.wrAll_node (l : List (Nat × Nat)) : (s.wrAll l).node = s.node := State.node_of_objs (State.wrAll_objs s l)
@[simp] theorem State.wrAll_cores (l : List (Nat × Nat)) : (s.wrAll l).cores = s.cores := State.cores_of_objs (State.wrAll_objs s l)
@[simp] theorem State.wrAll_bents (l : List (Nat × Nat)) : (s.wrAll l).bents = s.bents := State.bents_of_objs (State.wrAll_objs s l)
@[simp] theorem State.wrAll_queues (l : List (Nat × Nat)) : (s.wrAll l).queues = s.queues := State.queues_of_objs (State.wrAll_objs s l)
@[simp] theorem State.wrAll_flights (l : List (Nat × Nat)) : (s.wrAll l).flights = s.flights := State.flights_of_objs (State.wrAll_objs s l)
@[simp] theorem State.wrAll_frames (l : List (Nat × Nat)) : (s.wrAll l).frames = s.frames := State.frames_of_objs (State.wrAll_objs s l)
@[simp] theorem State.wrAll_pages (l : List (Nat × Nat)) : (s.wrAll l).pages = s.pages := State.pages_of_objs (State.wrAll_objs s l)
@[simp] theorem State.wrAll_slots (l : List (Nat × Nat)) : (s.wrAll l).slots = s.slots := State.slots_of_objs (State.wrAll_objs s l)
@[simp] theorem State.wrAll_lanes (l : List (Nat × Nat)) : (s.wrAll l).lanes = s.lanes := State.lanes_of_objs (State.wrAll_objs s l)
@[simp] theorem State.wrAll_asks (l : List (Nat × Nat)) : (s.wrAll l).asks = s.asks := State.asks_of_objs (State.wrAll_objs s l)
@[simp] theorem State.wrAll_commit (l : List (Nat × Nat)) : (s.wrAll l).commit = s.commit := State.commit_of_objs (State.wrAll_objs s l)
@[simp] theorem State.wrAll_buckets (l : List (Nat × Nat)) : (s.wrAll l).buckets = s.buckets := State.buckets_of_objs (State.wrAll_objs s l)
@[simp] theorem State.wrAll_chans (l : List (Nat × Nat)) : (s.wrAll l).chans = s.chans := State.chans_of_objs (State.wrAll_objs s l)
@[simp] theorem State.wrAll_faults (l : List (Nat × Nat)) : (s.wrAll l).faults = s.faults := State.faults_of_objs (State.wrAll_objs s l)
@[simp] theorem State.wrAll_torus (l : List (Nat × Nat)) : (s.wrAll l).torus = s.torus := State.torus_of_objs (State.wrAll_objs s l)
@[simp] theorem State.wrAll_data (l : List (Nat × Nat)) : (s.wrAll l).data = s.data := State.data_of_objs (State.wrAll_objs s l)
@[simp] theorem State.wrAll_dies (l : List (Nat × Nat)) : (s.wrAll l).dies = s.dies := State.dies_of_objs (State.wrAll_objs s l)

/-! ### pc -/

@[simp] theorem State.pc_pending (c e n : Nat) : (s.pc c e n).pending = s.pending := State.pending_of_objs (State.pc_objs s c e n)
@[simp] theorem State.pc_now (c e n : Nat) : (s.pc c e n).now = s.now := State.now_of_objs (State.pc_objs s c e n)
@[simp] theorem State.pc_fresh (c e n : Nat) : (s.pc c e n).fresh = s.fresh := State.fresh_of_objs (State.pc_objs s c e n)
@[simp] theorem State.pc_out (c e n : Nat) : (s.pc c e n).out = s.out := State.out_of_objs (State.pc_objs s c e n)
@[simp] theorem State.pc_fuses (c e n : Nat) : (s.pc c e n).fuses = s.fuses := State.fuses_of_objs (State.pc_objs s c e n)
@[simp] theorem State.pc_doms (c e n : Nat) : (s.pc c e n).doms = s.doms := State.doms_of_objs (State.pc_objs s c e n)
@[simp] theorem State.pc_mgmt (c e n : Nat) : (s.pc c e n).mgmt = s.mgmt := State.mgmt_of_objs (State.pc_objs s c e n)
@[simp] theorem State.pc_start (c e n : Nat) : (s.pc c e n).start = s.start := State.start_of_objs (State.pc_objs s c e n)
@[simp] theorem State.pc_node (c e n : Nat) : (s.pc c e n).node = s.node := State.node_of_objs (State.pc_objs s c e n)
@[simp] theorem State.pc_cores (c e n : Nat) : (s.pc c e n).cores = s.cores := State.cores_of_objs (State.pc_objs s c e n)
@[simp] theorem State.pc_bents (c e n : Nat) : (s.pc c e n).bents = s.bents := State.bents_of_objs (State.pc_objs s c e n)
@[simp] theorem State.pc_queues (c e n : Nat) : (s.pc c e n).queues = s.queues := State.queues_of_objs (State.pc_objs s c e n)
@[simp] theorem State.pc_flights (c e n : Nat) : (s.pc c e n).flights = s.flights := State.flights_of_objs (State.pc_objs s c e n)
@[simp] theorem State.pc_frames (c e n : Nat) : (s.pc c e n).frames = s.frames := State.frames_of_objs (State.pc_objs s c e n)
@[simp] theorem State.pc_pages (c e n : Nat) : (s.pc c e n).pages = s.pages := State.pages_of_objs (State.pc_objs s c e n)
@[simp] theorem State.pc_slots (c e n : Nat) : (s.pc c e n).slots = s.slots := State.slots_of_objs (State.pc_objs s c e n)
@[simp] theorem State.pc_lanes (c e n : Nat) : (s.pc c e n).lanes = s.lanes := State.lanes_of_objs (State.pc_objs s c e n)
@[simp] theorem State.pc_asks (c e n : Nat) : (s.pc c e n).asks = s.asks := State.asks_of_objs (State.pc_objs s c e n)
@[simp] theorem State.pc_commit (c e n : Nat) : (s.pc c e n).commit = s.commit := State.commit_of_objs (State.pc_objs s c e n)
@[simp] theorem State.pc_buckets (c e n : Nat) : (s.pc c e n).buckets = s.buckets := State.buckets_of_objs (State.pc_objs s c e n)
@[simp] theorem State.pc_chans (c e n : Nat) : (s.pc c e n).chans = s.chans := State.chans_of_objs (State.pc_objs s c e n)
@[simp] theorem State.pc_faults (c e n : Nat) : (s.pc c e n).faults = s.faults := State.faults_of_objs (State.pc_objs s c e n)
@[simp] theorem State.pc_torus (c e n : Nat) : (s.pc c e n).torus = s.torus := State.torus_of_objs (State.pc_objs s c e n)
@[simp] theorem State.pc_data (c e n : Nat) : (s.pc c e n).data = s.data := State.data_of_objs (State.pc_objs s c e n)
@[simp] theorem State.pc_dies (c e n : Nat) : (s.pc c e n).dies = s.dies := State.dies_of_objs (State.pc_objs s c e n)

/-! ### bpc -/

@[simp] theorem State.bpc_pending (b e n : Nat) : (s.bpc b e n).pending = s.pending := State.pending_of_objs (State.bpc_objs s b e n)
@[simp] theorem State.bpc_now (b e n : Nat) : (s.bpc b e n).now = s.now := State.now_of_objs (State.bpc_objs s b e n)
@[simp] theorem State.bpc_fresh (b e n : Nat) : (s.bpc b e n).fresh = s.fresh := State.fresh_of_objs (State.bpc_objs s b e n)
@[simp] theorem State.bpc_out (b e n : Nat) : (s.bpc b e n).out = s.out := State.out_of_objs (State.bpc_objs s b e n)
@[simp] theorem State.bpc_fuses (b e n : Nat) : (s.bpc b e n).fuses = s.fuses := State.fuses_of_objs (State.bpc_objs s b e n)
@[simp] theorem State.bpc_doms (b e n : Nat) : (s.bpc b e n).doms = s.doms := State.doms_of_objs (State.bpc_objs s b e n)
@[simp] theorem State.bpc_mgmt (b e n : Nat) : (s.bpc b e n).mgmt = s.mgmt := State.mgmt_of_objs (State.bpc_objs s b e n)
@[simp] theorem State.bpc_start (b e n : Nat) : (s.bpc b e n).start = s.start := State.start_of_objs (State.bpc_objs s b e n)
@[simp] theorem State.bpc_node (b e n : Nat) : (s.bpc b e n).node = s.node := State.node_of_objs (State.bpc_objs s b e n)
@[simp] theorem State.bpc_cores (b e n : Nat) : (s.bpc b e n).cores = s.cores := State.cores_of_objs (State.bpc_objs s b e n)
@[simp] theorem State.bpc_bents (b e n : Nat) : (s.bpc b e n).bents = s.bents := State.bents_of_objs (State.bpc_objs s b e n)
@[simp] theorem State.bpc_queues (b e n : Nat) : (s.bpc b e n).queues = s.queues := State.queues_of_objs (State.bpc_objs s b e n)
@[simp] theorem State.bpc_flights (b e n : Nat) : (s.bpc b e n).flights = s.flights := State.flights_of_objs (State.bpc_objs s b e n)
@[simp] theorem State.bpc_frames (b e n : Nat) : (s.bpc b e n).frames = s.frames := State.frames_of_objs (State.bpc_objs s b e n)
@[simp] theorem State.bpc_pages (b e n : Nat) : (s.bpc b e n).pages = s.pages := State.pages_of_objs (State.bpc_objs s b e n)
@[simp] theorem State.bpc_slots (b e n : Nat) : (s.bpc b e n).slots = s.slots := State.slots_of_objs (State.bpc_objs s b e n)
@[simp] theorem State.bpc_lanes (b e n : Nat) : (s.bpc b e n).lanes = s.lanes := State.lanes_of_objs (State.bpc_objs s b e n)
@[simp] theorem State.bpc_asks (b e n : Nat) : (s.bpc b e n).asks = s.asks := State.asks_of_objs (State.bpc_objs s b e n)
@[simp] theorem State.bpc_commit (b e n : Nat) : (s.bpc b e n).commit = s.commit := State.commit_of_objs (State.bpc_objs s b e n)
@[simp] theorem State.bpc_buckets (b e n : Nat) : (s.bpc b e n).buckets = s.buckets := State.buckets_of_objs (State.bpc_objs s b e n)
@[simp] theorem State.bpc_chans (b e n : Nat) : (s.bpc b e n).chans = s.chans := State.chans_of_objs (State.bpc_objs s b e n)
@[simp] theorem State.bpc_faults (b e n : Nat) : (s.bpc b e n).faults = s.faults := State.faults_of_objs (State.bpc_objs s b e n)
@[simp] theorem State.bpc_torus (b e n : Nat) : (s.bpc b e n).torus = s.torus := State.torus_of_objs (State.bpc_objs s b e n)
@[simp] theorem State.bpc_data (b e n : Nat) : (s.bpc b e n).data = s.data := State.data_of_objs (State.bpc_objs s b e n)
@[simp] theorem State.bpc_dies (b e n : Nat) : (s.bpc b e n).dies = s.dies := State.dies_of_objs (State.bpc_objs s b e n)

/-! ### kpc -/

@[simp] theorem State.kpc_pending (e u n : Nat) : (s.kpc e u n).pending = s.pending := State.pending_of_objs (State.kpc_objs s e u n)
@[simp] theorem State.kpc_now (e u n : Nat) : (s.kpc e u n).now = s.now := State.now_of_objs (State.kpc_objs s e u n)
@[simp] theorem State.kpc_fresh (e u n : Nat) : (s.kpc e u n).fresh = s.fresh := State.fresh_of_objs (State.kpc_objs s e u n)
@[simp] theorem State.kpc_out (e u n : Nat) : (s.kpc e u n).out = s.out := State.out_of_objs (State.kpc_objs s e u n)
@[simp] theorem State.kpc_fuses (e u n : Nat) : (s.kpc e u n).fuses = s.fuses := State.fuses_of_objs (State.kpc_objs s e u n)
@[simp] theorem State.kpc_doms (e u n : Nat) : (s.kpc e u n).doms = s.doms := State.doms_of_objs (State.kpc_objs s e u n)
@[simp] theorem State.kpc_mgmt (e u n : Nat) : (s.kpc e u n).mgmt = s.mgmt := State.mgmt_of_objs (State.kpc_objs s e u n)
@[simp] theorem State.kpc_start (e u n : Nat) : (s.kpc e u n).start = s.start := State.start_of_objs (State.kpc_objs s e u n)
@[simp] theorem State.kpc_node (e u n : Nat) : (s.kpc e u n).node = s.node := State.node_of_objs (State.kpc_objs s e u n)
@[simp] theorem State.kpc_cores (e u n : Nat) : (s.kpc e u n).cores = s.cores := State.cores_of_objs (State.kpc_objs s e u n)
@[simp] theorem State.kpc_bents (e u n : Nat) : (s.kpc e u n).bents = s.bents := State.bents_of_objs (State.kpc_objs s e u n)
@[simp] theorem State.kpc_queues (e u n : Nat) : (s.kpc e u n).queues = s.queues := State.queues_of_objs (State.kpc_objs s e u n)
@[simp] theorem State.kpc_flights (e u n : Nat) : (s.kpc e u n).flights = s.flights := State.flights_of_objs (State.kpc_objs s e u n)
@[simp] theorem State.kpc_frames (e u n : Nat) : (s.kpc e u n).frames = s.frames := State.frames_of_objs (State.kpc_objs s e u n)
@[simp] theorem State.kpc_pages (e u n : Nat) : (s.kpc e u n).pages = s.pages := State.pages_of_objs (State.kpc_objs s e u n)
@[simp] theorem State.kpc_slots (e u n : Nat) : (s.kpc e u n).slots = s.slots := State.slots_of_objs (State.kpc_objs s e u n)
@[simp] theorem State.kpc_lanes (e u n : Nat) : (s.kpc e u n).lanes = s.lanes := State.lanes_of_objs (State.kpc_objs s e u n)
@[simp] theorem State.kpc_asks (e u n : Nat) : (s.kpc e u n).asks = s.asks := State.asks_of_objs (State.kpc_objs s e u n)
@[simp] theorem State.kpc_commit (e u n : Nat) : (s.kpc e u n).commit = s.commit := State.commit_of_objs (State.kpc_objs s e u n)
@[simp] theorem State.kpc_buckets (e u n : Nat) : (s.kpc e u n).buckets = s.buckets := State.buckets_of_objs (State.kpc_objs s e u n)
@[simp] theorem State.kpc_chans (e u n : Nat) : (s.kpc e u n).chans = s.chans := State.chans_of_objs (State.kpc_objs s e u n)
@[simp] theorem State.kpc_faults (e u n : Nat) : (s.kpc e u n).faults = s.faults := State.faults_of_objs (State.kpc_objs s e u n)
@[simp] theorem State.kpc_torus (e u n : Nat) : (s.kpc e u n).torus = s.torus := State.torus_of_objs (State.kpc_objs s e u n)
@[simp] theorem State.kpc_data (e u n : Nat) : (s.kpc e u n).data = s.data := State.data_of_objs (State.kpc_objs s e u n)
@[simp] theorem State.kpc_dies (e u n : Nat) : (s.kpc e u n).dies = s.dies := State.dies_of_objs (State.kpc_objs s e u n)

end Sys2Proof.Machine
end

