-- ==== Sys2Proof/Laws/Requests.lean ====
section
/-! SUPPORT. What the shared course of a request comes to under the conditions in which the statements are written: a request that the
package takes is answered with what its row does with it (R51, R54, R55, R57, R59). -/

namespace Sys2Proof.Machine

/-- Every row ends in the state that its partners and subscribers have seen. -/
theorem done_eq_seen (s u : State) : done s u = .next (seen s u) := rfl

/-- A row that lets waiting units go on. -/
theorem settled_eq_seen (s u : State) : settled s u = .next (seen s u.settle) := rfl

/-- A descriptor row on a core that exists. -/
theorem settledRow_eq_seen {c : Nat} (s u : State) (h : c < 3072) : settledRow c s u = .next (seen s u.settle) := by
  simp only [settledRow, show ¬3072 ≤ c by omega, if_false, settled_eq_seen]

/-- A session is found under its own id. -/
theorem State.session?_id {s : State} {i : Nat} {e : Session} (h : s.session? i = some e) : e.id = i := by
  simpa using List.find?_some h

/-- Taking a frame changes the posted requests of the window only. -/
theorem takeFrame_eq {s t : State} {f : Frame} (h : takeFrame s f = some t) :
    t = { s with mgmt := { s.mgmt with requests := t.mgmt.requests } } := by
  unfold takeFrame at h
  split at h
  · split at h
    · cases h; rfl
    · cases h
  · split at h
    · cases h; rfl
    · cases h
  · split at h
    · cases h
    · cases h; rfl

/-- The state that has received a frame, said without the case of a frame that is not there. -/
theorem received_of_take {s t : State} {f : Frame} (h : takeFrame s f = some t) :
    received s f = ((t.trace f).add O.framesReceived 1).kpc 0x10 0 1 := by
  simp only [received, h, Option.getD_some]

/-- Receiving a frame keeps the sessions. -/
theorem received_sessions (s : State) (f : Frame) (h : (takeFrame s f).isSome) : (received s f).mgmt.sessions = s.mgmt.sessions := by
  obtain ⟨t, ht⟩ := Option.isSome_iff_exists.mp h
  rw [received_of_take ht, State.kpc_mgmt, State.add_mgmt, takeFrame_eq ht]
  rfl

/-- Receiving a frame keeps what is outstanding. -/
theorem received_outstanding (s : State) (f : Frame) (h : (takeFrame s f).isSome) :
    (received s f).mgmt.outstanding = s.mgmt.outstanding := by
  obtain ⟨t, ht⟩ := Option.isSome_iff_exists.mp h
  rw [received_of_take ht, State.kpc_mgmt, State.add_mgmt, takeFrame_eq ht]
  rfl

/-- Receiving a frame keeps the transfers. -/
theorem received_transfers (s : State) (f : Frame) (h : (takeFrame s f).isSome) :
    (received s f).mgmt.transfers = s.mgmt.transfers := by
  obtain ⟨t, ht⟩ := Option.isSome_iff_exists.mp h
  rw [received_of_take ht, State.kpc_mgmt, State.add_mgmt, takeFrame_eq ht]
  rfl

/-- Receiving a frame keeps the answers that wait for a slot. -/
theorem received_held (s : State) (f : Frame) (h : (takeFrame s f).isSome) : (received s f).mgmt.held = s.mgmt.held := by
  obtain ⟨t, ht⟩ := Option.isSome_iff_exists.mp h
  rw [received_of_take ht, State.kpc_mgmt, State.add_mgmt, takeFrame_eq ht]
  rfl

/-- Receiving a frame keeps the package's id and place. -/
theorem received_node (s : State) (f : Frame) (h : (takeFrame s f).isSome) : (received s f).node = s.node := by
  obtain ⟨t, ht⟩ := Option.isSome_iff_exists.mp h
  rw [received_of_take ht, State.kpc_node, State.add_node, State.trace_node, takeFrame_eq ht]

/-- No command but SERVICE_WRITE is kept from the torus. -/
theorem not_service {f : Frame} {cmd : Nat} (h : cmd ≠ cmdServiceWrite) : ¬(cmd = cmdServiceWrite ∧ f.carrier = .torus) := fun a => h a.1

/-- A frame that arrives as a request of a command is dispatched. -/
theorem request_of_arrives {s : State} {f : Frame} {cmd : Nat} (serve : State → Nat → Served) (h : arrives s f cmd = true) :
    request s f serve = dispatchRequest (received s f) f serve := by
  simp only [arrives, Bool.and_eq_true, decide_eq_true_eq] at h
  obtain ⟨⟨⟨⟨⟨⟨h1, h2⟩, h3⟩, h4⟩, h5⟩, h6⟩, h7⟩ := h
  obtain ⟨t, ht⟩ := Option.isSome_iff_exists.mp h2
  simp [request, h1, ht, h3, h4, received_of_take ht]

/-- A request for the package itself. -/
theorem dispatch_of_arrives {s : State} {f : Frame} {cmd : Nat} (serve : State → Nat → Served) (h : arrives s f cmd = true)
    (hc : ¬(cmd = cmdServiceWrite ∧ f.carrier = .torus)) :
    dispatchRequest (received s f) f serve = if f.session = 0 then openRequest (received s f) f serve
      else match (received s f).session? f.session with
        | none => (received s f).deny f stClosed
        | some e => sessionRequest (received s f) f e serve := by
  simp only [arrives, Bool.and_eq_true, decide_eq_true_eq] at h
  obtain ⟨⟨⟨⟨⟨⟨h1, h2⟩, h3⟩, h4⟩, h5⟩, h6⟩, h7⟩ := h
  have hn := received_node s f h2
  simp only [dispatchRequest, hn, h5, h6, h7, ne_eq, not_true_eq_false, false_and, false_or, hc, if_false] <;> rfl

/-- A new request of an opened session is executed and answered. -/
theorem request_of_asks {s : State} {f : Frame} {cmd : Nat} (serve : State → Nat → Served) (h : asks s f cmd = true)
    (hc : ¬(cmd = cmdServiceWrite ∧ f.carrier = .torus)) (ho : cmd ≠ cmdOpenSession) :
    request s f serve = answer f true (serve (inSession s f) (levelOf s f)) := by
  simp only [asks, Bool.and_eq_true, decide_eq_true_eq] at h
  obtain ⟨⟨ha, h0⟩, hs⟩ := h
  rw [request_of_arrives serve ha, dispatch_of_arrives serve ha hc]
  simp only [arrives, Bool.and_eq_true, decide_eq_true_eq] at ha
  obtain ⟨⟨⟨⟨⟨⟨h1, h2⟩, h3⟩, h4⟩, h5⟩, h6⟩, h7⟩ := ha
  cases he : s.session? f.session with
  | none => simp [he] at hs
  | some e =>
    have hid := State.session?_id he
    have hf : (received s f).session? f.session = some e := by
      simpa only [State.session?, received_sessions s f h2] using he
    simp only [he, Option.elim_some, Bool.and_eq_true, decide_eq_true_eq] at hs
    obtain ⟨⟨⟨hr, hq⟩, ha⟩, hc8⟩ := hs
    have hr' : e.remembered.reverse.find? (fun p => decide (p.1 = f.seq)) = none := by
      rw [List.find?_eq_none]
      intro p hp
      have := List.all_eq_true.mp hr p (List.mem_reverse.mp hp)
      simpa using this
    have hq' : (inSession s f).mgmt.outstanding.find? (fun o => decide (o.session = e.id) && decide (o.seq = f.seq)) = none := by
      rw [List.find?_eq_none]
      intro o ho
      have hmem : o ∈ s.mgmt.outstanding := by
        have := received_outstanding s f h2
        simp only [inSession, State.modSession] at ho
        rwa [this] at ho
      have := List.all_eq_true.mp hq o hmem
      simpa [Decidable.imp_iff_not_or] using this
    have hheld : ∀ p, (inSession s f).heldAnswers p = s.heldAnswers p := by
      intro p
      simp only [inSession, State.modSession, State.heldAnswers, received_held s f h2, received_node s f h2]
    have hcount : (inSession s f).outstandingCount e.id = s.outstandingCount e.id := by
      simp only [State.outstandingCount, hheld]
      simp only [inSession, State.modSession, received_outstanding s f h2, received_transfers s f h2]
    have hans : (inSession s f).answerHeld e.id f.seq = false := by
      simp only [State.answerHeld, hheld]
      simpa [State.answerHeld] using ha
    have hns : ¬8 ≤ s.outstandingCount e.id := by omega
    have hin : (received s f).modSession e.id (fun e => { e with lastFrame := (received s f).now }) = inSession s f := by
      have hnow : (received s f).now = s.now := by
        obtain ⟨t, ht⟩ := Option.isSome_iff_exists.mp h2
        rw [received_of_take ht, State.kpc_now, State.add_now, State.trace_now, takeFrame_eq ht]
      rw [hid, hnow]; rfl
    have hl : levelOf s f = e.level := by simp only [levelOf, he, Option.elim_some]
    simp only [h0, if_false, hf, sessionRequest, h7, ho, hr', hin, hans, hq', hcount, hns, decide_false, Bool.and_false, Bool.false_eq_true, hl]

/-- Receiving a frame leaves the room of session 0x0000 as it is. -/
theorem received_openFull (s : State) (f g : Frame) (h : (takeFrame s f).isSome) : openFull (received s f) g = openFull s g := by
  simp only [openFull, State.heldAnswers, received_held s f h, received_node s f h]
  rfl

/-- A request of session 0x0000 that only reads, while it has room (R57). -/
theorem request_of_open {s : State} {f : Frame} (serve : State → Nat → Served) (h : arrives s f cmdRead = true) (h0 : f.session = 0)
    (hf : openFull s f = false) : request s f serve = answer f false (serve (received s f) 0) := by
  rw [request_of_arrives serve h, dispatch_of_arrives serve h (not_service (by decide))]
  simp only [arrives, Bool.and_eq_true, decide_eq_true_eq] at h
  simp [h0, openRequest, received_openFull s f f h.1.1.1.1.1.2, hf, h.2, cmdRead, cmdOpenSession]

/-- A new WRITE asks. -/
theorem asks_of_writes {s : State} {f : Frame} (h : writes s f = true) : asks s f cmdWrite = true := by
  simp only [writes, Bool.and_eq_true] at h; exact h.1

/-- The command of a request that arrives. -/
theorem command_of_asks {s : State} {f : Frame} {cmd : Nat} (h : asks s f cmd = true) : f.command = cmd := by
  simp only [asks, arrives, Bool.and_eq_true, decide_eq_true_eq] at h; exact h.1.1.2

/-- A WRITE that passes its checks has the effect of its object. -/
theorem serveWrite_of_writes {s : State} {f : Frame} (effect : WriteEffect) (h : writes s f = true) :
    serveWrite effect (inSession s f) f (levelOf s f) = effect (inSession s f) f f.key (valueOf f) := by
  simp only [writes, Bool.and_eq_true, decide_eq_true_eq] at h
  simp only [serveWrite, h.2, if_true, valueOf]

/-- A WRITE row of an object, on a WRITE of it that passes the checks of R63. -/
theorem writeRow_of_writes {s : State} {f : Frame} (names : Nat → Nat → Bool) (effect : WriteEffect) (h : writes s f = true)
    (hn : names f.key (valueOf f) = true) :
    writeRow names effect f s = answer f true (effect (inSession s f) f f.key (valueOf f)) := by
  have hc := command_of_asks (asks_of_writes h)
  simp only [valueOf] at hn
  simp only [writeRow, hc, decide_true, hn, Bool.and_self, if_true]
  rw [request_of_asks _ (asks_of_writes h) (not_service (by decide)) (by decide), serveWrite_of_writes effect h]

/-- A management command of its own, on a new request of it. -/
theorem commandRow_of_asks {s : State} {f : Frame} {cmd : Nat} (serve : Frame → State → Nat → Served) (h : asks s f cmd = true)
    (hc : ¬(cmd = cmdServiceWrite ∧ f.carrier = .torus)) (ho : cmd ≠ cmdOpenSession) :
    commandRow cmd serve f s = answer f true (serve f (inSession s f) (levelOf s f)) := by
  simp only [commandRow, command_of_asks h, if_true, request_of_asks _ h hc ho]

/-- A request that is done. -/
theorem answer_done (f : Frame) (t : State) (st : Nat) (p : Bytes) : answer f true (.done t st p) = answered f t st p := rfl

/-- One part covers its own bytes. -/
theorem coveredFrom_one (off : Nat) (body : Bytes) (h : body ≠ []) : coveredFrom [(off, body)] off 2 = off + body.length := by
  have hl : 0 < body.length := List.length_pos_iff.mpr h
  simp [coveredFrom, hl]

/-- The bytes of one part. -/
theorem partsBytes_one (off : Nat) (body : Bytes) : partsBytes [(off, body)] off body.length = body :=
  Map.bytes_setBytes_empty 0#8 off body

/-- A transfer that is not there is dropped from nowhere. -/
theorem dropTransfer_none {s : State} {i q : Nat}
    (h : s.mgmt.transfers.all (fun x => !(decide (x.session = i) && decide (x.seq = q))) = true) : s.dropTransfer i q = s := by
  have : s.mgmt.transfers.filter (fun x => !(decide (x.session = i) && decide (x.seq = q))) = s.mgmt.transfers :=
    List.filter_eq_self.mpr (fun x hx => List.all_eq_true.mp h x hx)
  simp only [State.dropTransfer, this]

/-- The body of an intact frame is at most 1,024 bytes long (R54). -/
theorem body_length_of_asks {s : State} {f : Frame} {cmd : Nat} (h : asks s f cmd = true) : f.body.length ≤ 1024 := by
  simp only [asks, arrives, Frame.intact, Bool.and_eq_true, decide_eq_true_eq] at h
  have := h.1.1.1.1.1.1.2.1.1
  simp only [Frame.body, List.length_take]
  omega

/-- A WRITE_DOMAIN row of an object, on one frame that is the whole transfer and passes the checks of R63. -/
theorem serveWriteDomain_of_writesWhole {s : State} {f : Frame} (effect : DomainEffect) (h : writesWhole s f = true) :
    serveWriteDomain effect f (inSession s f) (levelOf s f) = effect (inSession s f) f.key f.offset f.body := by
  simp only [writesWhole, Bool.and_eq_true, decide_eq_true_eq] at h
  obtain ⟨⟨⟨⟨ha, hl⟩, hb⟩, ht⟩, hc⟩ := h
  have hlen := body_length_of_asks ha
  have h2 : (takeFrame s f).isSome := by
    simp only [asks, arrives, Bool.and_eq_true] at ha
    exact ha.1.1.1.1.1.1.1.2
  have htr : (inSession s f).mgmt.transfers = s.mgmt.transfers := by
    simp only [inSession, State.modSession, received_transfers s f h2]
  have hd : (inSession s f).dropTransfer f.session f.seq = inSession s f := dropTransfer_none (by rw [htr]; exact ht)
  have hf : (inSession s f).mgmt.transfers.find? (fun x => decide (x.session = f.session) && decide (x.seq = f.seq)) = none := by
    rw [htr, List.find?_eq_none]
    intro x hx
    have := List.all_eq_true.mp ht x hx
    simpa [Decidable.imp_iff_not_or] using this
  have hlow : lowestPart [(f.offset, f.body)] = f.offset := rfl
  simp only [serveWriteDomain, hf, hd, Option.getD_none, ne_eq, not_true_eq_false, if_false, hl, if_true, List.nil_append, hlow,
    List.length_singleton, coveredFrom_one _ _ hb, Nat.lt_irrefl, show ¬f.offset + 65536 < f.offset + f.body.length by omega, hc,
    Nat.add_sub_cancel_left, partsBytes_one]

/-- A WRITE_DOMAIN row of its own. -/
theorem domainRow_of_writesWhole {s : State} {f : Frame} (names : Nat → Bool) (effect : DomainEffect) (h : writesWhole s f = true)
    (hn : names f.key = true) : domainRow names effect f s = answer f true (effect (inSession s f) f.key f.offset f.body) := by
  have ha : asks s f cmdWriteDomain = true := by
    simp only [writesWhole, Bool.and_eq_true] at h; exact h.1.1.1.1
  simp only [domainRow, command_of_asks ha, decide_true, hn, Bool.and_self, if_true]
  rw [request_of_asks _ ha (not_service (by decide)) (by decide), serveWriteDomain_of_writesWhole effect h]

end Sys2Proof.Machine
end

