-- ==== Sys2Proof/Laws/Descriptors.lean ====
section
/-! SUPPORT. What the shared course of a descriptor row comes to where the descriptor at DPTR issues (R96-R103). -/

namespace Sys2Proof.Machine

/-- The core of a descriptor that issues exists. -/
theorem core_of_issues {s : State} {c op : Nat} {p : Plan} (h : issues s c op p = true) : c < 3072 := by
  simp only [issues, Bool.and_eq_true, decide_eq_true_eq] at h
  exact h.1.1.1.1.1.1.1.1.1.1.1.1.1.1

/-- The core of a descriptor that issues is not off. -/
theorem on_of_issues {s : State} {c op : Nat} {p : Plan} (h : issues s c op p = true) : (s.core c).state ≠ .off := by
  simp only [issues, Bool.and_eq_true, decide_eq_true_eq] at h
  have := h.1.1.1.1.1.1.1.1.1.1.1.1.1.2
  intro ho; simp [Core.runs, ho] at this

/-- The opcode of a descriptor that issues is the row's. -/
theorem op_of_issues {s : State} {c op : Nat} {p : Plan} (h : issues s c op p = true) : dOp (nextDesc s c) = op := by
  simp only [issues, Bool.and_eq_true, decide_eq_true_eq] at h
  exact h.1.1.1.1.1.1.1.1.1.1.1.2

/-- Where the descriptor at DPTR issues, the row has its effect on the state in which it is issued. -/
theorem issue_of_issues {s : State} {c op : Nat} {plan : State → Nat → Bytes → Plan}
    (effect : State → Core → Bytes → State) (h : issues s c op (plan s c (nextDesc s c)) = true) :
    s.issue c op plan effect = effect (issued s c op (plan s c (nextDesc s c)).next.toNat) (s.core c) (nextDesc s c) := by
  generalize hp : plan s c (nextDesc s c) = p at h
  simp only [issues, Bool.and_eq_true, decide_eq_true_eq] at h
  obtain ⟨⟨⟨⟨⟨⟨⟨⟨⟨⟨⟨⟨⟨⟨hc, hr⟩, hpn⟩, hop⟩, hres⟩, hw⟩, hwa⟩, hl⟩, hfl⟩, hinv⟩, hroom⟩, hhaz⟩, hf⟩, hn0⟩, hn1⟩ := h
  have hd : (s.core c).mem.bytes 0#8 (s.core c).dptr 64 = nextDesc s c := rfl
  have hps : (s.core c).pending.isSome = false := by
    cases hq : (s.core c).pending <;> simp_all
  have hwb : (waitsAll (nextDesc s c) && !(s.core c).inflight.isEmpty) = false := by
    cases h1 : waitsAll (nextDesc s c) <;> simp_all
  have hres' : opReserved op = false := by simpa using hres
  have hinv' : p.invalid = false := by simpa using hinv
  have hhaz' : (s.core c).hazard p.xs p.tiles = false := by simpa using hhaz
  have h8 : ¬8 ≤ (s.core c).inflight.length := by omega
  have hnx : ¬(p.next < 0 ∨ 0x7FFC0 < p.next) := by omega
  simp only [State.issue, hd, hr, hps, hop, hres', hw, hwb, h8, hfl, hp, hinv', hroom, hhaz', hf, hnx, decide_true, decide_false,
    Bool.not_true, Bool.or_false, Bool.false_eq_true, ne_eq, not_true_eq_false, if_false]
  rfl

/-- A control row, where its descriptor issues. -/
theorem control_of_issues {s : State} {c op : Nat} {invalid : Core → Bytes → Bool} {xs : Bytes → List Nat} {jumps : Core → Bytes → Bool}
    (effect : State → Core → Bytes → State)
    (h : issues s c op ⟨invalid (s.core c) (nextDesc s c), xs (nextDesc s c), [], 0, if jumps (s.core c) (nextDesc s c) then
        jumpTo (s.core c).dptr (nextDesc s c) else ((s.core c).dptr : Int) + 64⟩ = true) :
    s.control c op invalid xs jumps effect
      = effect (if jumps (s.core c) (nextDesc s c) then
            (issued s c op (if jumps (s.core c) (nextDesc s c) then
              jumpTo (s.core c).dptr (nextDesc s c) else ((s.core c).dptr : Int) + 64).toNat).pc c 0x09 1
          else issued s c op (if jumps (s.core c) (nextDesc s c) then
              jumpTo (s.core c).dptr (nextDesc s c) else ((s.core c).dptr : Int) + 64).toNat)
          (s.core c) (nextDesc s c) := by
  simp only [State.control]
  rw [issue_of_issues _ h]

/-- The next descriptor's address as a number. -/
theorem next_toNat (n : Nat) : ((n : Int) + 64).toNat = n + 64 := by omega

/-- A control row that does not jump, where its descriptor issues. -/
theorem control_plain {s : State} {c op : Nat} {invalid : Core → Bytes → Bool} {xs : Bytes → List Nat}
    (effect : State → Core → Bytes → State)
    (h : issues s c op ⟨invalid (s.core c) (nextDesc s c), xs (nextDesc s c), [], 0, ((s.core c).dptr : Int) + 64⟩ = true) :
    s.control c op invalid xs noJump effect
      = effect (issued s c op ((s.core c).dptr + 64)) (s.core c) (nextDesc s c) := by
  rw [control_of_issues effect (by simpa only [noJump, Bool.false_eq_true, if_false] using h)]
  simp only [noJump, Bool.false_eq_true, if_false, next_toNat]

/-! ### Cores -/

/-- A core that is not off is the one that was set. -/
theorem core_setCore (s : State) (c : Nat) (k : Core) (h : k ≠ Core.off) : (s.setCore c k).core c = k := by
  simp only [State.core, State.setCore]; exact Map.get_set_listed _ _ _ _ h

/-- Setting one core leaves every other. -/
theorem core_setCore_other (s : State) {c j : Nat} (k : Core) (h : j ≠ c) : (s.setCore c k).core j = s.core j := by
  simp only [State.core, State.setCore]; exact Map.get_set_other _ _ _ h

/-- Changing one core leaves every other. -/
theorem core_modCore_other (s : State) {c j : Nat} (g : Core → Core) (h : j ≠ c) : (s.modCore c g).core j = s.core j :=
  core_setCore_other s _ h

/-- Counters are no part of a core. -/
theorem core_pc (s : State) (c e n j : Nat) : (s.pc c e n).core j = s.core j := by simp only [State.core, State.pc_cores]

/-- A running core is not off. -/
theorem ne_off_of_state {k : Core} (h : k.state ≠ .off) : k ≠ Core.off := by rintro rfl; exact h rfl

/-- Tag sampling changes the tag state of the core alone. -/
theorem tagAt_core_other (s : State) {c j : Nat} (d : Bytes) (a : Nat) (h : j ≠ c) : (s.tagAt c d a).1.core j = s.core j := by
  simp only [State.tagAt]
  split
  · rfl
  · split
    · exact core_setCore_other s _ h
    · split
      · simp only [State.core, State.add_cores]; exact core_setCore_other s _ h
      · rw [core_pc]; exact core_setCore_other s _ h

/-- Issue leaves every other core. -/
theorem issued_core_other (s : State) {c j op next : Nat} (h : j ≠ c) : (issued s c op next).core j = s.core j := by
  simp only [issued]
  rw [core_pc, core_modCore_other _ _ h, tagAt_core_other _ _ _ h]

/-- Tag sampling changes cores and counters only. -/
theorem tagAt_frame (s : State) (c : Nat) (d : Bytes) (a : Nat) :
    (s.tagAt c d a).1 = { s with cores := (s.tagAt c d a).1.cores, objs := (s.tagAt c d a).1.objs } := by
  simp only [State.tagAt]
  split
  · rfl
  · split
    · rfl
    · split
      · rfl
      · show (State.pc _ c 0x13 1) = _
        rw [State.pc_objs]; rfl

/-- Tag sampling keeps a core but for its tag state. -/
theorem tagAt_core (s : State) (c : Nat) (d : Bytes) (a : Nat) (h : (s.core c).state ≠ .off) :
    ∃ v, (s.tagAt c d a).1.core c = { s.core c with tagState := v } := by
  have hn : ∀ v, ({ s.core c with tagState := v } : Core) ≠ Core.off := fun v => ne_off_of_state h
  simp only [State.tagAt]
  split
  · exact ⟨_, rfl⟩
  · split
    · exact ⟨_, core_setCore s c _ (hn _)⟩
    · split
      · exact ⟨_, by simp only [State.core, State.add_cores]; exact core_setCore s c _ (hn _)⟩
      · exact ⟨_, by rw [core_pc]; exact core_setCore s c _ (hn _)⟩

/-- Issue changes cores and counters only. -/
theorem issued_frame (s : State) (c op next : Nat) :
    issued s c op next = { s with cores := (issued s c op next).cores, objs := (issued s c op next).objs } := by
  simp only [issued]
  rw [State.pc_objs]
  simp only [State.modCore, State.setCore]
  rw [tagAt_frame]

/-- What issue leaves of the core: all but its place, its flags, its tag state and what is in flight. -/
theorem issued_core (s : State) (c op next : Nat) (h : (s.core c).state ≠ .off) :
    ∃ i flags v, (issued s c op next).core c =
      { s.core c with state := .running, waitDue := none, dptr := next, inflight := (s.core c).inflight ++ [i], flags := flags, tagState := v } := by
  obtain ⟨v, hv⟩ := tagAt_core s c (nextDesc s c) (s.core c).dptr h
  simp only [issued]
  rw [core_pc, State.modCore, core_setCore _ _ _ (by intro hh; have := congrArg Core.state hh; simp [Core.off] at this), hv]
  exact ⟨_, _, v, rfl⟩

end Sys2Proof.Machine
end

