-- ==== Sys2Proof/Laws/Settle.lean ====
section
/-! SUPPORT. What carrying on comes to: nothing where every issued descriptor is complete, and the run of one descriptor where it alone
is not (R101, R102). -/

namespace Sys2Proof

/-- A step that leaves the state for every element leaves it for all. -/
theorem Machine.each_id {α : Type} {l : List α} (f : Machine.State → α → Machine.State) (s : Machine.State) (h : ∀ a ∈ l, f s a = s) :
    Machine.State.each f s l = s := by
  induction l with
  | nil => rfl
  | cons a l ih =>
    simp only [Machine.State.each]
    rw [h a (List.mem_cons_self ..)]
    exact ih (fun b hb => h b (List.mem_cons_of_mem _ hb))

/-- Writing a key twice is writing it once. -/
theorem Map.put_put {α : Type} [DecidableEq α] (d : α) (k : Nat) (v w : α) (h : v ≠ d) :
    ∀ l, Map.put d k w (Map.put d k v l) = Map.put d k w l
  | [] => by simp [Map.put, h]
  | (i, x) :: r => by
    simp only [Map.put, h, if_false]
    by_cases h1 : k < i
    · simp [h1, Map.put]
    · by_cases h2 : k = i
      · simp [h2, Map.put]
      · simp [h1, h2, Map.put, Map.put_put d k v w h r]

/-- What a key reads as is the default or among the entries. -/
theorem Map.find_mem {β : Type} (d : β) (k : Nat) : ∀ (l : List (Nat × β)), Map.find d k l = d ∨ (k, Map.find d k l) ∈ l
  | [] => .inl rfl
  | (i, w) :: r => by
    by_cases h : i = k
    · subst h; simp [Map.find]
    · simp only [Map.find, h, if_false]
      rcases Map.find_mem d k r with h1 | h1
      · exact .inl h1
      · exact .inr (List.mem_cons_of_mem _ h1)

namespace Machine

/-- Changing a core twice is changing it once. -/
theorem setCore_setCore (s : State) (c : Nat) (k n : Core) (h : k ≠ Core.off) : (s.setCore c k).setCore c n = s.setCore c n := by
  simp only [State.setCore, Map.set, Map.put_put _ _ _ _ h]

/-! ### Idle cores -/

/-- A core whose issued descriptors are all complete. -/
def Core.idle (k : Core) : Bool := k.inflight.all (fun i => decide (i.stage = .complete))

/-- Among these cores all are idle but one, which stands where a write of it finds it. -/
def nearIdle (c : Nat) : List (Nat × Core) → Bool
  | [] => false
  | (i, k) :: r => if i = c then r.all (fun e => e.2.idle) else decide (i < c) && k.idle && nearIdle c r

/-- Every core is idle, one perhaps aside. -/
def State.near (s : State) (c : Nat) : Bool := nearIdle c s.cores.entries

theorem put_idle (c : Nat) (k : Core) (hk : k ≠ Core.off) : ∀ (l : List (Nat × Core)), l.all (fun e => e.2.idle) = true →
    nearIdle c (Map.put Core.off c k l) = true
  | [], _ => by simp [Map.put, hk, nearIdle]
  | (i, w) :: r, h => by
    have h0 := h
    simp only [List.all_cons, Bool.and_eq_true] at h
    simp only [Map.put, hk, if_false]
    split
    · simp only [nearIdle, if_true]; exact h0
    · split
      · simp only [nearIdle, if_true]; exact h.2
      · rename_i h1 h2
        simp only [nearIdle, Ne.symm h2, if_false, Bool.and_eq_true, decide_eq_true_eq]
        exact ⟨⟨by omega, h.1⟩, put_idle c k hk r h.2⟩

theorem put_near (c : Nat) (k : Core) (hk : k ≠ Core.off) : ∀ (l : List (Nat × Core)), nearIdle c l = true →
    nearIdle c (Map.put Core.off c k l) = true
  | [], h => by simp [nearIdle] at h
  | (i, w) :: r, h => by
    simp only [nearIdle] at h
    simp only [Map.put, hk, if_false]
    split at h
    · rename_i h1; subst h1
      simp only [Nat.lt_irrefl, if_false, if_true, nearIdle]; exact h
    · rename_i h1
      simp only [Bool.and_eq_true, decide_eq_true_eq] at h
      rw [if_neg (by omega), if_neg (Ne.symm h1)]
      simp only [nearIdle, h1, if_false, Bool.and_eq_true, decide_eq_true_eq]
      exact ⟨h.1, put_near c k hk r h.2⟩

theorem put_other_near (c p : Nat) (k : Core) (hp : p ≠ c) (hi : k.idle = true) : ∀ (l : List (Nat × Core)), nearIdle c l = true →
    nearIdle c (Map.put Core.off p k l) = true
  | [], h => by simp [nearIdle] at h
  | (i, w) :: r, h => by
    have h0 := h
    simp only [nearIdle] at h
    simp only [Map.put]
    split at h
    · rename_i h1; subst h1
      split
      · split
        · exact h0
        · simp only [nearIdle, hp, if_false, if_true, Bool.and_eq_true, decide_eq_true_eq]; exact ⟨⟨by assumption, hi⟩, h⟩
      · simp only [nearIdle, if_true]
        have : ∀ l : List (Nat × Core), l.all (fun e => e.2.idle) = true → (Map.put Core.off p k l).all (fun e => e.2.idle) = true := by
          intro l
          induction l with
          | nil => intro _; simp only [Map.put]; split <;> simp [hi]
          | cons e l ih =>
            intro he
            have he0 := he
            simp only [List.all_cons, Bool.and_eq_true] at he
            obtain ⟨j, x⟩ := e
            simp only [Map.put]
            split
            · split
              · exact he0
              · simp only [List.all_cons, hi, Bool.true_and]; simpa using he
            · split
              · split
                · exact he.2
                · simp only [List.all_cons, hi, Bool.true_and]; exact he.2
              · simp only [List.all_cons, he.1, Bool.true_and]; exact ih he.2
        exact this r h
    · rename_i h1
      simp only [Bool.and_eq_true, decide_eq_true_eq] at h
      split
      · split
        · exact h0
        · simp only [nearIdle, hp, if_false, h1, Bool.and_eq_true, decide_eq_true_eq]; exact ⟨⟨by omega, hi⟩, h⟩
      · split
        · split
          · exact h.2
          · simp only [nearIdle, hp, if_false, Bool.and_eq_true, decide_eq_true_eq]; exact ⟨⟨by omega, hi⟩, h.2⟩
        · simp only [nearIdle, h1, if_false, Bool.and_eq_true, decide_eq_true_eq]
          exact ⟨h.1, put_other_near c p k hp hi r h.2⟩

theorem near_find (c : Nat) : ∀ (l : List (Nat × Core)), nearIdle c l = true → (Map.find Core.off c l).idle = true →
    l.all (fun e => e.2.idle) = true
  | [], h, _ => by simp [nearIdle] at h
  | (i, w) :: r, h, hf => by
    simp only [nearIdle] at h
    simp only [List.all_cons, Bool.and_eq_true]
    split at h
    · rename_i h1; subst h1
      simp only [Map.find, if_true] at hf
      exact ⟨hf, h⟩
    · rename_i h1
      simp only [Map.find, h1, if_false] at hf
      simp only [Bool.and_eq_true, decide_eq_true_eq] at h
      exact ⟨h.1.2, near_find c r h.2 hf⟩

theorem near_other (c p : Nat) (hp : p ≠ c) : ∀ (l : List (Nat × Core)), nearIdle c l = true → (Map.find Core.off p l).idle = true
  | [], h => by simp [nearIdle] at h
  | (i, w) :: r, h => by
    simp only [nearIdle] at h
    split at h
    · rename_i h1; subst h1
      simp only [Map.find, Ne.symm hp, if_false]
      rcases Map.find_mem Core.off p r with h2 | h2
      · rw [h2]; rfl
      · exact List.all_eq_true.mp h _ h2
    · rename_i h1
      simp only [Bool.and_eq_true, decide_eq_true_eq] at h
      by_cases h2 : i = p
      · simp only [Map.find, h2, if_true]; exact h.1.2
      · simp only [Map.find, h2, if_false]; exact near_other c p hp r h.2

theorem near_mem (c : Nat) : ∀ (l : List (Nat × Core)), nearIdle c l = true → (c, Map.find Core.off c l) ∈ l
  | [], h => by simp [nearIdle] at h
  | (i, w) :: r, h => by
    simp only [nearIdle] at h
    split at h
    · rename_i h1; subst h1; simp [Map.find]
    · rename_i h1
      simp only [Bool.and_eq_true] at h
      simp only [Map.find, h1, if_false]
      exact List.mem_cons_of_mem _ (near_mem c r h.2)

/-- Changing one core of an idle package. -/
theorem near_of_idle {s : State} (c : Nat) {k : Core} (h : s.unitsIdle = true) (hk : k ≠ Core.off) : (s.setCore c k).near c = true :=
  put_idle c k hk _ h

/-- Changing the core that is not idle. -/
theorem near_setCore {s : State} {c : Nat} {k : Core} (h : s.near c = true) (hk : k ≠ Core.off) : (s.setCore c k).near c = true :=
  put_near c k hk _ h

/-- Changing another core to an idle one. -/
theorem near_setCore_other {s : State} {c p : Nat} {k : Core} (h : s.near c = true) (hp : p ≠ c) (hi : k.idle = true) :
    (s.setCore p k).near c = true := put_other_near c p k hp hi _ h

/-- Every core is idle once the one is. -/
theorem idle_of_near {s : State} {c : Nat} (h : s.near c = true) (hi : (s.core c).idle = true) : s.unitsIdle = true := near_find c _ h hi

/-- The other cores are idle. -/
theorem idle_other {s : State} {c p : Nat} (h : s.near c = true) (hp : p ≠ c) : (s.core p).idle = true := near_other c p hp _ h

/-- The cores of an idle package are idle. -/
theorem idle_core {s : State} (h : s.unitsIdle = true) (c : Nat) : (s.core c).idle = true := by
  simp only [State.core, Map.get]
  rcases Map.find_mem Core.off c s.cores.entries with h1 | h1
  · rw [h1]; rfl
  · exact List.all_eq_true.mp h _ h1

/-- Nearness reads the cores alone. -/
theorem near_of_cores {s t : State} {c : Nat} (h : t.cores = s.cores) : t.near c = s.near c := by simp only [State.near, h]

/-! ### Units -/

/-- No complete descriptor holds a unit. -/
theorem holder_none (unit : Nat) : ∀ (l : List Issued) (n : Nat), l.all (fun i => decide (i.stage = .complete)) = true →
    holderAt unit l n = none
  | [], _, _ => rfl
  | i :: r, n, h => by
    simp only [List.all_cons, Bool.and_eq_true, decide_eq_true_eq] at h
    simp [holderAt, Issued.passes, h.1, holder_none unit r (n + 1) h.2]

/-- A descriptor issued after complete ones holds its unit, and no other. -/
theorem holder_last (unit : Nat) (i : Issued) : ∀ (l : List Issued) (n : Nat), l.all (fun i => decide (i.stage = .complete)) = true →
    holderAt unit (l ++ [i]) n = if opUnit (dOp i.desc) = unit ∧ i.passes = false then some (n + l.length) else none
  | [], n, _ => by simp [holderAt]
  | j :: r, n, h => by
    simp only [List.all_cons, Bool.and_eq_true, decide_eq_true_eq] at h
    have hj : j.passes = true := by simp [Issued.passes, h.1]
    simp only [List.cons_append, holderAt, hj, Bool.true_eq_false, and_false, if_false, List.length_cons]
    rw [holder_last unit i r (n + 1) h.2, show n + 1 + r.length = n + (r.length + 1) by omega]

/-- Where nothing holds a unit, carrying it on changes nothing. -/
theorem runUnit_none {s : State} {c unit : Nat} (n : Nat) (h : holderAt unit (s.core c).inflight 0 = none) : s.runUnit c unit n = s := by
  cases n with
  | zero => rfl
  | succ n => simp only [State.runUnit, h]

/-- One descriptor of a unit runs, and the unit goes on. -/
theorem runUnit_succ {s t : State} {c unit pos n : Nat} {i : Issued} (h : holderAt unit (s.core c).inflight 0 = some pos)
    (hi : (s.core c).inflight[pos]? = some i) (hr : s.runAt c pos unit i = some t) : s.runUnit c unit (n + 1) = t.runUnit c unit n := by
  rw [State.runUnit]; simp only [h, hi, hr]

/-- A descriptor that cannot go on holds its unit. -/
theorem runUnit_stuck {s : State} {c unit pos : Nat} {i : Issued} (n : Nat) (h : holderAt unit (s.core c).inflight 0 = some pos)
    (hi : (s.core c).inflight[pos]? = some i) (hr : s.runAt c pos unit i = none) : s.runUnit c unit n = s := by
  cases n with
  | zero => rfl
  | succ n => rw [State.runUnit]; simp only [h, hi, hr]

/-- An idle core's units have nothing to carry on. -/
theorem runUnit_idle {s : State} {c : Nat} (unit n : Nat) (h : (s.core c).idle = true) : s.runUnit c unit n = s :=
  runUnit_none n (holder_none unit _ 0 h)

/-- A sweep over idle cores changes nothing. -/
theorem sweep_idle {s : State} (h : s.unitsIdle = true) : s.sweep = s := by
  apply each_id
  intro c _
  simp only [runUnit_idle _ _ (idle_core h c)]
  split <;> rfl

/-- A sum of zeros. -/
theorem sum_zero : ∀ (l : List Nat), (∀ n ∈ l, n = 0) → l.sum = 0
  | [], _ => rfl
  | a :: r, h => by
    rw [List.sum_cons, h a (List.mem_cons_self ..), sum_zero r (fun n hn => h n (List.mem_cons_of_mem _ hn))]

/-- An element of a sum is no greater than the sum. -/
theorem le_sum : ∀ (l : List Nat) (n : Nat), n ∈ l → n ≤ l.sum
  | [], _, h => by simp at h
  | a :: r, n, h => by
    rw [List.sum_cons]
    rcases List.mem_cons.mp h with h | h
    · omega
    · have := le_sum r n h; omega

/-- Where every core is idle nothing is undone. -/
theorem undone_idle {s : State} (h : s.unitsIdle = true) : s.undone = 0 := by
  simp only [State.undone]
  apply sum_zero
  intro n hn
  obtain ⟨e, he, rfl⟩ := List.mem_map.mp hn
  apply sum_zero
  intro m hm
  obtain ⟨i, hi, rfl⟩ := List.mem_map.mp hm
  have := List.all_eq_true.mp (List.all_eq_true.mp h e he) i hi
  simp only [decide_eq_true_eq] at this
  simp [this]

/-- Sweeping an idle package changes nothing. -/
theorem sweeps_idle {s : State} (h : s.unitsIdle = true) (n : Nat) : s.sweeps n = s := by
  cases n with
  | zero => rfl
  | succ n => simp only [State.sweeps, sweep_idle h, Nat.lt_irrefl, if_false]

/-- A core with a queued descriptor is undone. -/
theorem undone_queued {s : State} {c : Nat} {i : Issued} (h : s.near c = true) (hi : i ∈ (s.core c).inflight) (hq : i.stage = .queued) :
    0 < s.undone := by
  have h1 := near_mem c _ h
  have h2 : 2 ≤ ((s.core c).inflight.map (fun i => match i.stage with | .queued => 2 | .begun => 1 | .complete => 0)).sum :=
    le_sum _ 2 (List.mem_map.mpr ⟨i, hi, by rw [hq]⟩)
  have h3 := le_sum _ _ (List.mem_map.mpr ⟨_, h1, rfl⟩ :
    ((s.core c).inflight.map (fun i => match i.stage with | .queued => 2 | .begun => 1 | .complete => 0)).sum ∈
      s.cores.entries.map (fun c => (c.2.inflight.map (fun i => match i.stage with | .queued => 2 | .begun => 1 | .complete => 0)).sum))
  have h4 : s.undone = (s.cores.entries.map (fun c => (c.2.inflight.map (fun i =>
    match i.stage with | .queued => 2 | .begun => 1 | .complete => 0)).sum)).sum := rfl
  omega

/-- A sweep in which one core's units lead to `u`, whose cores are all idle. -/
theorem sweep_one {t u : State} {c : Nat} (hn : t.near c = true) (hu : u.unitsIdle = true) (hne : (t.core c).inflight.isEmpty = false)
    (hc : ((t.runUnit c 1 9).runUnit c 3 9).runUnit c 4 9 = u) : t.sweep = u := by
  have hm : c ∈ t.cores.entries.map Prod.fst := List.mem_map.mpr ⟨_, near_mem c _ hn, rfl⟩
  have key : ∀ l : List Nat, c ∈ l → State.each (fun t c =>
      if (t.core c).inflight.isEmpty then t else ((t.runUnit c 1 9).runUnit c 3 9).runUnit c 4 9) t l = u := by
    intro l
    induction l with
    | nil => intro h; simp at h
    | cons a l ih =>
      intro h
      by_cases ha : a = c
      · subst ha
        simp only [State.each, hne, Bool.false_eq_true, if_false, hc]
        apply each_id
        intro b _
        simp only [runUnit_idle _ _ (idle_core hu b)]
        split <;> rfl
      · simp only [State.each, runUnit_idle _ _ (idle_other hn ha), ite_self]
        exact ih (by simpa [Ne.symm ha] using h)
  exact key _ hm

/-- Where one queued descriptor is all there is to carry on, carrying on is its run. -/
theorem settle_run {t u : State} {c unit : Nat} {l : List Issued} {i : Issued} (hunit : unit = 1 ∨ unit = 3 ∨ unit = 4)
    (hn : t.near c = true) (hl : (t.core c).inflight = l ++ [i]) (hi : l.all (fun i => decide (i.stage = .complete)) = true)
    (hq : i.stage = .queued) (hop : opUnit (dOp i.desc) = unit) (hr : t.runAt c l.length unit i = some u) (hu : u.unitsIdle = true) :
    t.settle = u.settle := by
  have hp : i.passes = false := by simp [Issued.passes, hq]
  have hnone : ∀ w, w ≠ unit → holderAt w (t.core c).inflight 0 = none := by
    intro w hw; rw [hl, holder_last w i l 0 hi, hop]; simp [Ne.symm hw]
  have hsome : holderAt unit (t.core c).inflight 0 = some l.length := by
    rw [hl, holder_last unit i l 0 hi, hop]; simp [hp]
  have hget : (t.core c).inflight[l.length]? = some i := by rw [hl]; simp
  have hrun : t.runUnit c unit 9 = u := by
    rw [show (9 : Nat) = 8 + 1 from rfl, runUnit_succ hsome hget hr]
    exact runUnit_idle _ _ (idle_core hu c)
  have hc : ((t.runUnit c 1 9).runUnit c 3 9).runUnit c 4 9 = u := by
    rcases hunit with h | h | h <;> subst h
    · rw [hrun, runUnit_idle _ _ (idle_core hu c), runUnit_idle _ _ (idle_core hu c)]
    · rw [runUnit_none _ (hnone 1 (by decide)), hrun, runUnit_idle _ _ (idle_core hu c)]
    · rw [runUnit_none _ (hnone 1 (by decide)), runUnit_none _ (hnone 3 (by decide)), hrun]
  have hs : t.sweep = u := sweep_one hn hu (by rw [hl]; simp) hc
  have hd : u.undone < t.undone := by
    rw [undone_idle hu]; exact undone_queued hn (by rw [hl]; simp) hq
  have hw : t.sweeps (t.undone + 1) = u := by
    simp only [State.sweeps, hs, hd, if_true, sweeps_idle hu]
  have hu1 : u.sweeps (u.undone + 1) = u := sweeps_idle hu _
  simp only [State.settle, hw, hu1]

/-! ### A descriptor that waits -/

/-- What one core has still to do. -/
def Core.undone (k : Core) : Nat := (k.inflight.map (fun i => match i.stage with | .queued => 2 | .begun => 1 | .complete => 0)).sum

/-- An idle core has nothing to do. -/
theorem core_undone_idle {k : Core} (h : k.idle = true) : k.undone = 0 := by
  apply sum_zero
  intro m hm
  obtain ⟨i, hi, rfl⟩ := List.mem_map.mp hm
  have := List.all_eq_true.mp h i hi
  simp only [decide_eq_true_eq] at this
  simp [this]

/-- What is undone where one core alone is not idle. -/
theorem undone_near {s : State} {c : Nat} (h : s.near c = true) : s.undone = (s.core c).undone := by
  have key : ∀ l : List (Nat × Core), nearIdle c l = true →
      (l.map (fun c => c.2.undone)).sum = (Map.find Core.off c l).undone := by
    intro l
    induction l with
    | nil => intro h; simp [nearIdle] at h
    | cons e r ih =>
      obtain ⟨j, w⟩ := e
      intro h
      simp only [nearIdle] at h
      simp only [List.map_cons, List.sum_cons, Map.find]
      split at h
      · rename_i h1
        rw [if_pos h1, sum_zero (r.map (fun c => c.2.undone)) (by
          intro n hn
          obtain ⟨e, he, rfl⟩ := List.mem_map.mp hn
          exact core_undone_idle (List.all_eq_true.mp h e he))]
        rfl
      · rename_i h1
        simp only [Bool.and_eq_true] at h
        rw [if_neg h1, core_undone_idle h.1.2, ih h.2, Nat.zero_add]
  exact key _ h

/-- What complete descriptors and one more have still to do. -/
theorem core_undone_last {k : Core} {l : List Issued} {i : Issued} (hl : k.inflight = l ++ [i])
    (hi : l.all (fun i => decide (i.stage = .complete)) = true) :
    k.undone = match i.stage with | .queued => 2 | .begun => 1 | .complete => 0 := by
  simp only [Core.undone, hl, List.map_append, List.map_cons, List.map_nil, List.sum_append, List.sum_cons, List.sum_nil]
  rw [sum_zero (l.map _)]
  · simp
  · intro n hn
    obtain ⟨j, hj, rfl⟩ := List.mem_map.mp hn
    have := List.all_eq_true.mp hi j hj
    simp only [decide_eq_true_eq] at this
    simp [this]

/-- A sweep over cores that cannot go on changes nothing. -/
theorem sweep_stuck {s : State} {c : Nat} (hn : s.near c = true) (h : ∀ unit, (unit = 1 ∨ unit = 3 ∨ unit = 4) → ∀ n, s.runUnit c unit n = s) :
    s.sweep = s := by
  apply each_id
  intro b _
  by_cases hb : b = c
  · subst hb
    simp only [h 1 (.inl rfl), h 3 (.inr (.inl rfl)), h 4 (.inr (.inr rfl)), ite_self]
  · simp only [runUnit_idle _ _ (idle_other hn hb), ite_self]

/-- Where one queued descriptor begins and then waits, carrying on is its beginning. -/
theorem settle_begun {t u : State} {c unit : Nat} {l : List Issued} {i j : Issued} (hunit : unit = 1 ∨ unit = 3 ∨ unit = 4)
    (hn : t.near c = true) (hl : (t.core c).inflight = l ++ [i]) (hi : l.all (fun i => decide (i.stage = .complete)) = true)
    (hq : i.stage = .queued) (hop : opUnit (dOp i.desc) = unit) (hr : t.runAt c l.length unit i = some u)
    (hun : u.near c = true) (hul : (u.core c).inflight = l ++ [j]) (hj : j.stage = .begun) (hjo : opUnit (dOp j.desc) = unit)
    (hstuck : j.passes = false → u.runAt c l.length unit j = none) : t.settle = u.settle := by
  have hp : i.passes = false := by simp [Issued.passes, hq]
  have hnone : ∀ w, w ≠ unit → holderAt w (t.core c).inflight 0 = none := by
    intro w hw; rw [hl, holder_last w i l 0 hi, hop]; simp [Ne.symm hw]
  have hsome : holderAt unit (t.core c).inflight 0 = some l.length := by
    rw [hl, holder_last unit i l 0 hi, hop]; simp [hp]
  have hget : (t.core c).inflight[l.length]? = some i := by rw [hl]; simp
  have hu : ∀ w, ∀ n, u.runUnit c w n = u := by
    intro w n
    have hh := holder_last w j l 0 hi
    rw [← hul] at hh
    split at hh
    · rename_i h1
      have hw : w = unit := by rw [← h1.1, hjo]
      subst hw
      exact runUnit_stuck n (by simpa using hh) (by rw [hul]; simp) (hstuck h1.2)
    · exact runUnit_none n hh
  have hrun : t.runUnit c unit 9 = u := by
    rw [show (9 : Nat) = 8 + 1 from rfl, runUnit_succ hsome hget hr]
    exact hu _ _
  have hc : ((t.runUnit c 1 9).runUnit c 3 9).runUnit c 4 9 = u := by
    rcases hunit with h | h | h <;> subst h
    · rw [hrun, hu, hu]
    · rw [runUnit_none _ (hnone 1 (by decide)), hrun, hu]
    · rw [runUnit_none _ (hnone 1 (by decide)), runUnit_none _ (hnone 3 (by decide)), hrun]
  have hsu : u.sweep = u := sweep_stuck hun (fun w _ n => hu w n)
  have hm : c ∈ t.cores.entries.map Prod.fst := List.mem_map.mpr ⟨_, near_mem c _ hn, rfl⟩
  have hs : t.sweep = u := by
    have key : ∀ l : List Nat, c ∈ l → State.each (fun t c =>
        if (t.core c).inflight.isEmpty then t else ((t.runUnit c 1 9).runUnit c 3 9).runUnit c 4 9) t l = u := by
      intro m
      induction m with
      | nil => intro h; simp at h
      | cons a m ih =>
        intro h
        by_cases ha : a = c
        · subst ha
          have hne : (l ++ [i]).isEmpty = false := by simp
          simp only [State.each, hl, hne, Bool.false_eq_true, if_false, hc]
          apply each_id
          intro b _
          by_cases hb : b = a
          · subst hb; simp only [hu, ite_self]
          · simp only [runUnit_idle _ _ (idle_other hun hb), ite_self]
        · simp only [State.each, runUnit_idle _ _ (idle_other hn ha), ite_self]
          exact ih (by simpa [Ne.symm ha] using h)
    exact key _ hm
  have ht : t.undone = 2 := by rw [undone_near hn, core_undone_last hl hi, hq]
  have hud : u.undone = 1 := by rw [undone_near hun, core_undone_last hul hi, hj]
  have hw : t.sweeps (t.undone + 1) = u := by
    rw [ht]
    rw [show (2 : Nat) + 1 = 2 + 1 from rfl, State.sweeps]
    simp only [hs, hud, ht, show (1 : Nat) < 2 by decide, if_true]
    rw [State.sweeps]
    simp only [hsu, Nat.lt_irrefl, if_false]
  have hw1 : u.sweeps (u.undone + 1) = u := by
    rw [State.sweeps]
    simp only [hsu, Nat.lt_irrefl, if_false]
  simp only [State.settle, hw, hw1]

/-- The core of an idle package that has issued a descriptor. -/
theorem near_issued {s : State} {c op next : Nat} (h : s.unitsIdle = true) (ho : (s.core c).state ≠ .off) :
    (issued s c op next).near c = true := by
  have hk : ∀ k : Core, k.state ≠ .off → k ≠ Core.off := fun k h => ne_off_of_state h
  have ht : (s.tagAt c (nextDesc s c) (s.core c).dptr).1.unitsIdle = true ∨ (s.tagAt c (nextDesc s c) (s.core c).dptr).1.near c = true := by
    simp only [State.tagAt]
    split
    · exact .inl h
    · split
      · exact .inr (near_of_idle c h (hk _ ho))
      · split
        · exact .inr (near_of_idle c h (hk _ ho))
        · exact .inr (by rw [near_of_cores (State.pc_cores _ _ _ _)]; exact near_of_idle c h (hk _ ho))
  simp only [issued]
  rw [near_of_cores (State.pc_cores _ _ _ _), State.modCore]
  rcases ht with ht | ht
  · exact near_of_idle c ht (by intro hh; have := congrArg Core.state hh; simp [Core.off] at this)
  · exact near_setCore ht (by intro hh; have := congrArg Core.state hh; simp [Core.off] at this)

/-- What is in flight once a descriptor of a unit other than the control and vector units is issued. -/
theorem issued_inflight (s : State) (c op next : Nat) (ho : (s.core c).state ≠ .off) (hu : opUnit op ≠ 0) (hv : opUnit op ≠ 2) :
    ∃ i, ((issued s c op next).core c).inflight = (s.core c).inflight ++ [i] ∧ i.stage = .queued ∧ i.desc = nextDesc s c
      ∧ i.x = (s.core c).x ∧ i.rng = (s.core c).rng ∧ i.reads = [] ∧ i.paid = false ∧ i.credit = [] ∧ i.addr = (s.core c).dptr := by
  obtain ⟨v, hv'⟩ := tagAt_core s c (nextDesc s c) (s.core c).dptr ho
  simp only [issued]
  rw [core_pc, State.modCore, core_setCore _ _ _ (by intro hh; have := congrArg Core.state hh; simp [Core.off] at this), hv']
  refine ⟨_, rfl, ?_, rfl, rfl, rfl, rfl, rfl, rfl, rfl⟩
  simp [hu, hv]

/-- Where the descriptor issued is all there is to carry on, carrying on is its run. -/
theorem settle_issued {s : State} {c op next unit : Nat} (hi : s.unitsIdle = true) (ho : (s.core c).state ≠ .off)
    (hd : dOp (nextDesc s c) = op) (hu : opUnit op = unit) (hunit : unit = 1 ∨ unit = 3 ∨ unit = 4) (u : State)
    (hr : ∀ i, ((issued s c op next).core c).inflight = (s.core c).inflight ++ [i] → i.stage = .queued → i.desc = nextDesc s c →
      i.x = (s.core c).x → i.rng = (s.core c).rng → i.reads = [] → i.paid = false →
      (issued s c op next).runAt c (s.core c).inflight.length unit i = some u) (hui : u.unitsIdle = true) :
    (issued s c op next).settle = u.settle := by
  have h0 : opUnit op ≠ 0 := by rw [hu]; rcases hunit with h | h | h <;> rw [h] <;> decide
  have h2 : opUnit op ≠ 2 := by rw [hu]; rcases hunit with h | h | h <;> rw [h] <;> decide
  obtain ⟨i, h1, hq, h3, h4, h5, h6, h7, h8, h9⟩ := issued_inflight s c op next ho h0 h2
  exact settle_run hunit (near_issued hi ho) h1 (idle_core hi c) hq (by rw [h3, hd, hu]) (hr i h1 hq h3 h4 h5 h6 h7) hui

end Machine

end Sys2Proof
end

