-- ==== Sys2Proof/Laws/Steps.lean ====
section
/-! SUPPORT. What any command and any step comes to: a stop, or a state that the partners and the subscribers have seen. -/

namespace Sys2Proof.Machine

/-- An outcome is a stop or a state that followed every change from `s`. -/
def Ends (s : State) (o : Host.Outcome State Fault Refusal) : Prop := ∀ t, o = .next t → ∃ u, t = seen s u

theorem ends_done (s u : State) : Ends s (done s u) := fun t h => ⟨u, by rw [done_eq_seen] at h; exact (Host.Outcome.next.inj h).symm⟩

theorem ends_settled (s u : State) : Ends s (settled s u) := ends_done s u.settle

theorem ends_fault (s : State) (f : Fault) : Ends s (.fault f) := fun t h => by cases h

theorem ends_refused (s : State) (r : Refusal) : Ends s (.refused r) := fun t h => by cases h

theorem ends_ite (s : State) (p : Prop) [Decidable p] {a b : Host.Outcome State Fault Refusal} (ha : Ends s a) (hb : Ends s b) :
    Ends s (if p then a else b) := by
  split
  · exact ha
  · exact hb

theorem ends_settledRow (s u : State) (c : Nat) : Ends s (settledRow c s u) := by
  unfold settledRow; exact ends_ite s _ (ends_fault s _) (ends_settled s u)

theorem ends_coreRow (s u : State) (c : Nat) : Ends s (coreRow c s u) := by
  unfold coreRow; exact ends_ite s _ (ends_fault s _) (ends_done s u)

theorem ends_portRow (s u : State) (c : Nat) : Ends s (portRow c s u) := by
  unfold portRow; exact ends_ite s _ (ends_fault s _) (ends_settled s u)

theorem ends_dieRow (s u : State) (c : Nat) : Ends s (dieRow c s u) := by
  unfold dieRow; exact ends_ite s _ (ends_fault s _) (ends_done s u)

theorem ends_anyDieRow (s u : State) (c : Nat) : Ends s (anyDieRow c s u) := by
  unfold anyDieRow; exact ends_ite s _ (ends_fault s _) (ends_settled s u)

theorem ends_linkRow (s u : State) (c : Nat) : Ends s (linkRow c s u) := by
  unfold linkRow; exact ends_ite s _ (ends_fault s _) (ends_settled s u)

theorem ends_powerRow (s u : State) (c : Nat) : Ends s (powerRow c s u) := by
  unfold powerRow; exact ends_ite s _ (ends_fault s _) (ends_settled s u)

/-- A command stops, or leaves a state that followed every change (R62, R364, R446). -/
theorem exec_ends (i : Instr) (s : State) : Ends s (exec i s) := by
  cases i <;> simp only [exec]
  case read => exact ends_done _ _
  case write => exact ends_settled _ _
  case readDomain => exact ends_done _ _
  case writeDomain => exact ends_settled _ _
  case writeDomainTimeout => exact ends_done _ _
  case subscribe => exact ends_done _ _
  case unsubscribe => exact ends_done _ _
  case openSession => exact ends_done _ _
  case closeSession => exact ends_done _ _
  case sessionIdleTimeout => exact ends_done _ _
  case serviceLockoutEnd => exact ends_done _ _
  case proxyResponse => exact ends_done _ _
  case eventSend => exact ends_done _ _
  case reqPost => exact ends_done _ _
  case rspTake => exact ends_done _ _
  case evtTake => exact ends_done _ _
  case restoreStored => exact ends_done _ _
  case counterClear => exact ends_done _ _
  case nop => exact ends_settledRow _ _ _
  case halt => exact ends_settledRow _ _ _
  case wait => exact ends_settledRow _ _ _
  case signal => exact ends_settledRow _ _ _
  case fence => exact ends_settledRow _ _ _
  case loop => exact ends_settledRow _ _ _
  case branchFlag => exact ends_settledRow _ _ _
  case branchX => exact ends_settledRow _ _ _
  case xop => exact ends_settledRow _ _ _
  case descriptorRetire => exact ends_settledRow _ _ _
  case coreWaiting => exact ends_coreRow _ _ _
  case watchdog => exact ends_settledRow _ _ _
  case moveLocal => exact ends_settledRow _ _ _
  case moveBent => exact ends_settledRow _ _ _
  case movePeer => exact ends_settledRow _ _ _
  case moveTensor => exact ends_settledRow _ _ _
  case coreStart => exact ends_done _ _
  case coreStop => exact ends_done _ _
  case coreReset => exact ends_done _ _
  case coreMemoryWrite => exact ends_done _ _
  case coreFpStatusWrite => exact ends_done _ _
  case mm => exact ends_settledRow _ _ _
  case chainLoad => exact ends_settledRow _ _ _
  case chainTransfer => exact ends_settledRow _ _ _
  case tileClear => exact ends_settledRow _ _ _
  case tileStore => exact ends_settledRow _ _ _
  case tileStat => exact ends_settledRow _ _ _
  case vadd => exact ends_settledRow _ _ _
  case vsub => exact ends_settledRow _ _ _
  case vmul => exact ends_settledRow _ _ _
  case vfma => exact ends_settledRow _ _ _
  case vmin => exact ends_settledRow _ _ _
  case vmax => exact ends_settledRow _ _ _
  case vminnum => exact ends_settledRow _ _ _
  case vmaxnum => exact ends_settledRow _ _ _
  case vneg => exact ends_settledRow _ _ _
  case vabs => exact ends_settledRow _ _ _
  case vcopysign => exact ends_settledRow _ _ _
  case vcmp => exact ends_settledRow _ _ _
  case vsel => exact ends_settledRow _ _ _
  case vlogic => exact ends_settledRow _ _ _
  case vlaneid => exact ends_settledRow _ _ _
  case vcvti => exact ends_settledRow _ _ _
  case vpack => exact ends_settledRow _ _ _
  case vunpack => exact ends_settledRow _ _ _
  case vquant => exact ends_settledRow _ _ _
  case vload => exact ends_settledRow _ _ _
  case vstore => exact ends_settledRow _ _ _
  case vexp2 => exact ends_settledRow _ _ _
  case vlog2 => exact ends_settledRow _ _ _
  case vrcp => exact ends_settledRow _ _ _
  case vrsqrt => exact ends_settledRow _ _ _
  case vtanh => exact ends_settledRow _ _ _
  case vreduce => exact ends_settledRow _ _ _
  case vnormStats => exact ends_settledRow _ _ _
  case vsoftmax => exact ends_settledRow _ _ _
  case vlseUpdate => exact ends_settledRow _ _ _
  case vsoftmaxApply => exact ends_settledRow _ _ _
  case vlseFinal => exact ends_settledRow _ _ _
  case rngCtx => exact ends_settledRow _ _ _
  case vrand => exact ends_settledRow _ _ _
  case vdropout => exact ends_settledRow _ _ _
  case rngSeedWrite => exact ends_done _ _
  case queueCreate => exact ends_done _ _
  case queueClose => exact ends_done _ _
  case queueReopen => exact ends_done _ _
  case queueDelete => exact ends_done _ _
  case endpointTableWrite => exact ends_done _ _
  case send => exact ends_settledRow _ _ _
  case recv => exact ends_settledRow _ _ _
  case contribute => exact ends_settledRow _ _ _
  case probe => exact ends_settledRow _ _ _
  case messageAccept => exact ends_settled _ _
  case generationNotice => exact ends_settled _ _
  case chWaitTimeout => exact ends_settledRow _ _ _
  case arm => exact ends_done _ _
  case run => exact ends_done _ _
  case stageStop => exact ends_done _ _
  case disarm => exact ends_done _ _
  case relayOpen => exact ends_done _ _
  case relayClose => exact ends_done _ _
  case laneOpen => exact ends_done _ _
  case laneClose => exact ends_done _ _
  case laneReopen => exact ends_done _ _
  case laneDelete => exact ends_done _ _
  case allocMap => exact ends_done _ _
  case allocUnmap => exact ends_done _ _
  case vsFetch => exact ends_done _ _
  case readyToken => exact ends_settled _ _
  case fail => exact ends_settled _ _
  case commit => exact ends_settled _ _
  case abort => exact ends_settled _ _
  case query => exact ends_settled _ _
  case resumeMessage => exact ends_settled _ _
  case resume => exact ends_done _ _
  case resolveCommit => exact ends_done _ _
  case resolveAbort => exact ends_done _ _
  case commitParentWrite => exact ends_done _ _
  case commitWaitTimeout => exact ends_settled _ _
  case reshard => exact ends_done _ _
  case reshardCancel => exact ends_done _ _
  case activate => exact ends_done _ _
  case deactivate => exact ends_done _ _
  case declare => exact ends_done _ _
  case retract => exact ends_done _ _
  case ringWaitTimeout => exact ends_settledRow _ _ _
  case dataStart => exact ends_done _ _
  case dataStop => exact ends_done _ _
  case clearClips => exact ends_done _ _
  case decodeSlot => exact ends_settled _ _
  case slotDecoded => exact ends_settled _ _
  case lightDetect => exact ends_portRow _ _ _
  case hello => exact ends_portRow _ _ _
  case identity => exact ends_portRow _ _ _
  case identityUpdate => exact ends_portRow _ _ _
  case lightLoss => exact ends_portRow _ _ _
  case helloTimeout => exact ends_portRow _ _ _
  case holdExpiry => exact ends_portRow _ _ _
  case portEnable => exact ends_settled _ _
  case portDisable => exact ends_settled _ _
  case portRetrain => exact ends_settled _ _
  case clearHold => exact ends_settled _ _
  case flit => exact ends_portRow _ _ _
  case nak => exact ends_portRow _ _ _
  case keepalive => exact ends_settled _ _
  case remotePartnerTimeout => exact ends_settled _ _
  case packet => exact ends_portRow _ _ _
  case lineNotice => exact ends_portRow _ _ _
  case unreachableNotice => exact ends_settled _ _
  case flowReset => exact ends_done _ _
  case routeRejoin => exact ends_done _ _
  case timeSet => exact ends_done _ _
  case hostLinkReset => exact ends_done _ _
  case slRetrain => exact ends_done _ _
  case claim => exact ends_linkRow _ _ _
  case dieTrainTimeout => exact ends_linkRow _ _ _
  case dieTrainRetry => exact ends_linkRow _ _ _
  case scarfFlit => exact ends_linkRow _ _ _
  case dieRead => exact ends_anyDieRow _ _ _
  case dieWrite => exact ends_anyDieRow _ _ _
  case readData => exact ends_anyDieRow _ _ _
  case invalidate => exact ends_dieRow _ _ _
  case invAck => exact ends_dieRow _ _ _
  case writeAck => exact ends_anyDieRow _ _ _
  case intMessage => exact ends_dieRow _ _ _
  case rlcEnableWrite => exact ends_done _ _
  case recomputeRun => exact ends_settledRow _ _ _
  case recomputeForce => exact ends_settledRow _ _ _
  case drain => exact ends_settled _ _
  case undrain => exact ends_settled _ _
  case packageTimeout => exact ends_settled _ _
  case faultReport => exact ends_done _ _
  case reportSend => exact ends_done _ _
  case pwrEnHigh => exact ends_done _ _
  case pwrEnLow => exact ends_done _ _
  case rstNLow => exact ends_done _ _
  case rstNHigh => exact ends_done _ _
  case startStepComplete => exact ends_done _ _
  case falseStart => exact ends_done _ _
  case restart => exact ends_done _ _
  case clearFalseStarts => exact ends_done _ _
  case domainEnable => exact ends_settled _ _
  case domainDisable => exact ends_settled _ _
  case powerUpComplete => exact ends_powerRow _ _ _
  case powerDownComplete => exact ends_powerRow _ _ _
  case powerUpTimeout => exact ends_powerRow _ _ _
  case dieReset => exact ends_settled _ _
  case eraseA => exact ends_done _ _
  case eraseB => exact ends_done _ _
  case verifyA => exact ends_done _ _
  case verifyB => exact ends_done _ _
  case bootImageWrite => exact ends_done _ _
  case inputInRange => exact ends_done _ _
  case inputOutOfRange => exact ends_done _ _
  case tripRelease => exact ends_done _ _
  case governorStep => exact ends_done _ _
  case counterFreeze => exact ends_done _ _
  case counterPreset => exact ends_done _ _
  case overflowClear => exact ends_done _ _
  case counterSelect => exact ends_done _ _
  case tagSeed => exact ends_done _ _
  case requestDeferred => exact ends_done _ _
  case dieLinkTestDone => exact ends_linkRow _ _ _
  case hostLinkUp => exact ends_done _ _
  case holdBaseRestore => exact ends_portRow _ _ _
  case pwrEnRejected => exact ends_done _ _
  case railsOutOfRegulation => exact ends_done _ _
  case serviceWrite => unfold execServiceWrite; repeat' (first | exact ends_done _ _ | exact ends_settled _ _ | exact ends_settledRow _ _ _ | exact ends_fault _ _ | exact ends_refused _ _ | exact ends_portRow _ _ _ | refine ends_ite _ _ ?_ ?_ | split)
  case pacerDecide => unfold execPacerDecide; repeat' (first | exact ends_done _ _ | exact ends_settled _ _ | exact ends_settledRow _ _ _ | exact ends_fault _ _ | exact ends_refused _ _ | exact ends_portRow _ _ _ | refine ends_ite _ _ ?_ ?_ | split)
  case workItemComplete => unfold execWorkItemComplete; repeat' (first | exact ends_done _ _ | exact ends_settled _ _ | exact ends_settledRow _ _ _ | exact ends_fault _ _ | exact ends_refused _ _ | exact ends_portRow _ _ _ | refine ends_ite _ _ ?_ ?_ | split)
  case stageDeadline => unfold execStageDeadline; repeat' (first | exact ends_done _ _ | exact ends_settled _ _ | exact ends_settledRow _ _ _ | exact ends_fault _ _ | exact ends_refused _ _ | exact ends_portRow _ _ _ | refine ends_ite _ _ ?_ ?_ | split)
  case relayOpenRequest => unfold execRelayOpenRequest; repeat' (first | exact ends_done _ _ | exact ends_settled _ _ | exact ends_settledRow _ _ _ | exact ends_fault _ _ | exact ends_refused _ _ | exact ends_portRow _ _ _ | refine ends_ite _ _ ?_ ?_ | split)
  case lanePeerOpen => unfold execLanePeerOpen; repeat' (first | exact ends_done _ _ | exact ends_settled _ _ | exact ends_settledRow _ _ _ | exact ends_fault _ _ | exact ends_refused _ _ | exact ends_portRow _ _ _ | refine ends_ite _ _ ?_ ?_ | split)
  case laneSend => unfold execLaneSend; repeat' (first | exact ends_done _ _ | exact ends_settled _ _ | exact ends_settledRow _ _ _ | exact ends_fault _ _ | exact ends_refused _ _ | exact ends_portRow _ _ _ | refine ends_ite _ _ ?_ ?_ | split)
  case batonReceive => unfold execBatonReceive; repeat' (first | exact ends_done _ _ | exact ends_settled _ _ | exact ends_settledRow _ _ _ | exact ends_fault _ _ | exact ends_refused _ _ | exact ends_portRow _ _ _ | refine ends_ite _ _ ?_ ?_ | split)
  case optimizerLayerUpdate => unfold execOptimizerLayerUpdate; repeat' (first | exact ends_done _ _ | exact ends_settled _ _ | exact ends_settledRow _ _ _ | exact ends_fault _ _ | exact ends_refused _ _ | exact ends_portRow _ _ _ | refine ends_ite _ _ ?_ ?_ | split)
  case vsFetchDone => unfold execVsFetchDone; repeat' (first | exact ends_done _ _ | exact ends_settled _ _ | exact ends_settledRow _ _ _ | exact ends_fault _ _ | exact ends_refused _ _ | exact ends_portRow _ _ _ | refine ends_ite _ _ ?_ ?_ | split)
  case reductionPacket => unfold execReductionPacket; repeat' (first | exact ends_done _ _ | exact ends_settled _ _ | exact ends_settledRow _ _ _ | exact ends_fault _ _ | exact ends_refused _ _ | exact ends_portRow _ _ _ | refine ends_ite _ _ ?_ ?_ | split)
  case epochRefusal => unfold execEpochRefusal; repeat' (first | exact ends_done _ _ | exact ends_settled _ _ | exact ends_settledRow _ _ _ | exact ends_fault _ _ | exact ends_refused _ _ | exact ends_portRow _ _ _ | refine ends_ite _ _ ?_ ?_ | split)
  case rcHopTimeout => unfold execRcHopTimeout; repeat' (first | exact ends_done _ _ | exact ends_settled _ _ | exact ends_settledRow _ _ _ | exact ends_fault _ _ | exact ends_refused _ _ | exact ends_portRow _ _ _ | refine ends_ite _ _ ?_ ?_ | split)
  case ringBlock => unfold execRingBlock; repeat' (first | exact ends_done _ _ | exact ends_settled _ _ | exact ends_settledRow _ _ _ | exact ends_fault _ _ | exact ends_refused _ _ | exact ends_portRow _ _ _ | refine ends_ite _ _ ?_ ?_ | split)
  case ingestFrame => unfold execIngestFrame; repeat' (first | exact ends_done _ _ | exact ends_settled _ _ | exact ends_settledRow _ _ _ | exact ends_fault _ _ | exact ends_refused _ _ | exact ends_portRow _ _ _ | refine ends_ite _ _ ?_ ?_ | split)
  case rdmaTimeout => unfold execRdmaTimeout; repeat' (first | exact ends_done _ _ | exact ends_settled _ _ | exact ends_settledRow _ _ _ | exact ends_fault _ _ | exact ends_refused _ _ | exact ends_portRow _ _ _ | refine ends_ite _ _ ?_ ?_ | split)
  case slotTransfer => unfold execSlotTransfer; repeat' (first | exact ends_done _ _ | exact ends_settled _ _ | exact ends_settledRow _ _ _ | exact ends_fault _ _ | exact ends_refused _ _ | exact ends_portRow _ _ _ | refine ends_ite _ _ ?_ ?_ | split)
  case clipNotice => unfold execClipNotice; repeat' (first | exact ends_done _ _ | exact ends_settled _ _ | exact ends_settledRow _ _ _ | exact ends_fault _ _ | exact ends_refused _ _ | exact ends_portRow _ _ _ | refine ends_ite _ _ ?_ ?_ | split)
  case cursorMessage => unfold execCursorMessage; repeat' (first | exact ends_done _ _ | exact ends_settled _ _ | exact ends_settledRow _ _ _ | exact ends_fault _ _ | exact ends_refused _ _ | exact ends_portRow _ _ _ | refine ends_ite _ _ ?_ ?_ | split)
  case beaconSend => unfold execBeaconSend; repeat' (first | exact ends_done _ _ | exact ends_settled _ _ | exact ends_settledRow _ _ _ | exact ends_fault _ _ | exact ends_refused _ _ | exact ends_portRow _ _ _ | refine ends_ite _ _ ?_ ?_ | split)
  case trainStepTimeout => unfold execTrainStepTimeout; repeat' (first | exact ends_done _ _ | exact ends_settled _ _ | exact ends_settledRow _ _ _ | exact ends_fault _ _ | exact ends_refused _ _ | exact ends_portRow _ _ _ | refine ends_ite _ _ ?_ ?_ | split)
  case ptpMessage => unfold execPtpMessage; repeat' (first | exact ends_done _ _ | exact ends_settled _ _ | exact ends_settledRow _ _ _ | exact ends_fault _ _ | exact ends_refused _ _ | exact ends_portRow _ _ _ | refine ends_ite _ _ ?_ ?_ | split)
  case ptpSend => unfold execPtpSend; split; exact ends_fault _ _; split; exact ends_done _ _; exact ends_done _ _
  case scrubRead => unfold execScrubRead; repeat' (first | exact ends_done _ _ | exact ends_settled _ _ | exact ends_settledRow _ _ _ | exact ends_fault _ _ | exact ends_refused _ _ | exact ends_portRow _ _ _ | refine ends_ite _ _ ?_ ?_ | split)
  case implicationExpiry => unfold execImplicationExpiry; repeat' (first | exact ends_done _ _ | exact ends_settled _ _ | exact ends_settledRow _ _ _ | exact ends_fault _ _ | exact ends_refused _ _ | exact ends_portRow _ _ _ | refine ends_ite _ _ ?_ ?_ | split)
  case bentTimeout => unfold execBentTimeout; repeat' (first | exact ends_done _ _ | exact ends_settled _ _ | exact ends_settledRow _ _ _ | exact ends_fault _ _ | exact ends_refused _ _ | exact ends_portRow _ _ _ | refine ends_ite _ _ ?_ ?_ | split)
  case dieTimeout => unfold execDieTimeout; repeat' (first | exact ends_done _ _ | exact ends_settled _ _ | exact ends_settledRow _ _ _ | exact ends_fault _ _ | exact ends_refused _ _ | exact ends_portRow _ _ _ | refine ends_ite _ _ ?_ ?_ | split)
  case thermalTrip => unfold execThermalTrip; repeat' (first | exact ends_done _ _ | exact ends_settled _ _ | exact ends_settledRow _ _ _ | exact ends_fault _ _ | exact ends_refused _ _ | exact ends_portRow _ _ _ | refine ends_ite _ _ ?_ ?_ | split)
  case counterWrap => unfold execCounterWrap; repeat' (first | exact ends_done _ _ | exact ends_settled _ _ | exact ends_settledRow _ _ _ | exact ends_fault _ _ | exact ends_refused _ _ | exact ends_portRow _ _ _ | refine ends_ite _ _ ?_ ?_ | split)
  case relayRemoteClose => unfold execRelayRemoteClose; repeat' (first | exact ends_done _ _ | exact ends_settled _ _ | exact ends_settledRow _ _ _ | exact ends_fault _ _ | exact ends_refused _ _ | exact ends_portRow _ _ _ | refine ends_ite _ _ ?_ ?_ | split)
  case rateRecovery => unfold execRateRecovery; repeat' (first | exact ends_done _ _ | exact ends_settled _ _ | exact ends_settledRow _ _ _ | exact ends_fault _ _ | exact ends_refused _ _ | exact ends_portRow _ _ _ | refine ends_ite _ _ ?_ ?_ | split)
  case torusTrainingStepDone => unfold execTorusTrainingStepDone; repeat' (first | exact ends_done _ _ | exact ends_settled _ _ | exact ends_settledRow _ _ _ | exact ends_fault _ _ | exact ends_refused _ _ | exact ends_portRow _ _ _ | refine ends_ite _ _ ?_ ?_ | split)
  case glitchFiltered => unfold execGlitchFiltered; repeat' (first | exact ends_done _ _ | exact ends_settled _ _ | exact ends_settledRow _ _ _ | exact ends_fault _ _ | exact ends_refused _ _ | exact ends_portRow _ _ _ | refine ends_ite _ _ ?_ ?_ | split)
  case bootSelAccepted => unfold execBootSelAccepted; repeat' (first | exact ends_done _ _ | exact ends_settled _ _ | exact ends_settledRow _ _ _ | exact ends_fault _ _ | exact ends_refused _ _ | exact ends_portRow _ _ _ | refine ends_ite _ _ ?_ ?_ | split)
  case ingestLinkChange => unfold execIngestLinkChange; repeat' (first | exact ends_done _ _ | exact ends_settled _ _ | exact ends_settledRow _ _ _ | exact ends_fault _ _ | exact ends_refused _ _ | exact ends_portRow _ _ _ | refine ends_ite _ _ ?_ ?_ | split)
  case tallyLinkChange => unfold execTallyLinkChange; repeat' (first | exact ends_done _ _ | exact ends_settled _ _ | exact ends_settledRow _ _ _ | exact ends_fault _ _ | exact ends_refused _ _ | exact ends_portRow _ _ _ | refine ends_ite _ _ ?_ ?_ | split)

end Sys2Proof.Machine
end

