-- ==== Sys2Proof/Laws/Torus.lean ====
section
/-! SUPPORT. What sending over the torus changes: what is put out, stored values and the ports, and nothing else. -/

namespace Sys2Proof.Machine

/-- A state that differs in what is put out, in stored values and in the torus. -/
def SentFrom (s t : State) : Prop := ∃ o b p, t = { s with out := o, objs := b, torus := p }

theorem SentFrom.refl (s : State) : SentFrom s s := ⟨_, _, _, rfl⟩

theorem SentFrom.trans {s t u : State} (h : SentFrom s t) (k : SentFrom t u) : SentFrom s u := by
  obtain ⟨_, _, _, rfl⟩ := h
  obtain ⟨o, b, p, rfl⟩ := k
  exact ⟨o, b, p, rfl⟩

theorem sentFrom_setTport (s : State) (n : Nat) (v : TPort) : SentFrom s (s.setTport n v) := ⟨_, _, _, rfl⟩

theorem sentFrom_put (s : State) (o : Output) : SentFrom s (s.put o) := ⟨_, _, _, rfl⟩

theorem sentFrom_add (s : State) (k n : Nat) : SentFrom s (s.add k n) := ⟨_, _, _, rfl⟩

theorem sentFrom_kpc (s : State) (e u n : Nat) : SentFrom s (s.kpc e u n) := ⟨_, _, _, by rw [State.kpc_objs]⟩

theorem sentFrom_putFlit (s : State) (n kind vc seq : Nat) (b : Bytes) : SentFrom s (s.putFlit n kind vc seq b) :=
  (sentFrom_setTport s n _).trans (sentFrom_put _ _)

theorem sentFrom_sendFlit (s : State) (n kind vc : Nat) (b : Bytes) : SentFrom s (s.sendFlit n kind vc b) :=
  (((sentFrom_setTport s n _).trans (sentFrom_putFlit _ _ _ _ _ _)).trans (sentFrom_add _ _ _)).trans (sentFrom_kpc _ _ _ _)

theorem sentFrom_freeFlits (s : State) (n v k : Nat) : SentFrom s (s.freeFlits n v k) := by
  unfold State.freeFlits
  dsimp only
  split
  · exact .refl s
  · exact sentFrom_setTport s n _

theorem sentFrom_sendNext {s t : State} {n : Nat} (h : s.sendNext n = some t) : SentFrom s t := by
  unfold State.sendNext at h
  dsimp only at h
  split at h
  · cases h
  · split at h
    · cases h; exact (sentFrom_setTport s n _).trans (sentFrom_sendFlit _ _ _ _ _)
    · cases h
    · split at h
      · cases h
      · cases h
        split
        · exact ((sentFrom_setTport s n _).trans (sentFrom_sendFlit _ _ _ _ _)).trans (sentFrom_freeFlits _ _ _ _)
        · exact (sentFrom_setTport s n _).trans (sentFrom_sendFlit _ _ _ _ _)

theorem sentFrom_pumpTimes (n k : Nat) : ∀ s : State, SentFrom s (s.pumpTimes n k) := by
  induction k with
  | zero => exact fun s => .refl s
  | succ k ih =>
    intro s
    simp only [State.pumpTimes]
    cases h : s.sendNext n with
    | none => exact .refl s
    | some t => exact (sentFrom_sendNext h).trans (ih t)

theorem sentFrom_pump (s : State) (n : Nat) : SentFrom s (s.pump n) := sentFrom_pumpTimes n _ s

theorem sentFrom_sendIdentity (s : State) (n kind : Nat) : SentFrom s (s.sendIdentity n kind) := by
  unfold State.sendIdentity
  dsimp only
  split
  · exact ((sentFrom_put s _).trans (sentFrom_setTport _ _ _)).trans (sentFrom_pump _ _)
  · exact sentFrom_put s _

theorem sentFrom_each {α : Type} (f : State → α → State) (h : ∀ s a, SentFrom s (f s a)) : ∀ (l : List α) (s : State), SentFrom s (State.each f s l)
  | [], s => .refl s
  | a :: l, s => (h s a).trans (sentFrom_each f h l (f s a))

/-- The partners are told over the torus and no unit changes (R364, R366). -/
theorem sentFrom_noteTorus (s t : State) : SentFrom t (noteTorus s t) := by
  unfold noteTorus
  dsimp only
  refine .trans ?_ (sentFrom_each _ (fun _ _ => ⟨_, _, _, rfl⟩) _ _)
  split
  · exact .refl t
  · exact sentFrom_each _ (fun u n => by split; exact sentFrom_sendIdentity _ _ _; exact .refl u) _ _

end Sys2Proof.Machine
end

