-- ==== Sys2Proof/Tests/Slice0.lean ====
section
/-! SUPPORT. Tests of the model: results that the manual's tables and rules give; ill-formed commands refused by the check; and for each
statement with hypotheses a state and operands that meet them, clause by clause. -/

namespace Sys2Proof.Tests

open Sys2Proof.Machine

set_option Elab.async false

/-! ### States and frames -/

/-- A session at level OPERATOR on the Tally port. -/
def session : Session :=
  { id := 1, level := 1, carrier := .tally, proxied := false, source := 5, station := 9, lastFrame := 0, remembered := [], subs := [],
    queue := [], count := 0, overflow := false }

/-- A package that is READY, with one session. -/
def bed : State :=
  { State.reset with start := { State.reset.start with phase := .ready, pwrEn := true, pgOut := true },
                     mgmt := { State.reset.mgmt with sessions := [session] } }

/-- The framing of a request to the package on the Tally port. -/
def tallyWire : Ether := { dst := 0x020053930001, src := 9, tag := none, type := 0x88B6 }

/-- A request of the session. -/
def req (cmd key off : Nat) (body : Bytes) : Frame :=
  Frame.seal { carrier := .tally, slot := 0, carried := 0, version := 1, kind := 1, command := cmd, status := 0, seq := 7, session := 1,
               source := 5, dest := 0, index := keyIndex key, sub := keySub key, flags := 1, offset := off, length := body.length,
               payload := body, check := 0, ether := tallyWire }

/-- A WRITE of a value. -/
def put (key v : Nat) : Frame := req cmdWrite key 0 (natLe ((rowOf key).elim 1 (fun r => r.type.size)) v)

/-- A WRITE_DOMAIN in one frame. -/
def whole (key off : Nat) (body : Bytes) : Frame := req cmdWriteDomain key off body

/-- The state with values of objects. -/
def at_ (s : State) (l : List (Nat × Nat)) : State := s.wrAll l

/-- The state with domains ON. -/
def powered (s : State) (ds : List Nat) : State := s.wrAll (ds.map (fun d => (O.domainState d, domOn)))

/-- A descriptor: its opcode, and fields as offset, size and value. -/
def descr (op : Nat) (fs : List (Nat × Nat × Nat)) : Bytes :=
  ((((0, 1, op) :: fs).foldl (fun (m : Map Byte) f => m.setBytes 0#8 f.1 (natLe f.2.1 f.2.2)) Map.empty).bytes 0#8 0 64)

/-- A core that runs with one descriptor at DPTR 0. -/
def runs (d : Bytes) : Core := { Core.off with state := .running, mem := Map.setBytes Map.empty 0#8 0 d }

/-- A package with a core in place of core 0. -/
def withCore (k : Core) : State := bed.setCore 0 k

/-! ### Witnesses: management -/

/-- The package with a subscription of the session that has changed, on a carrier, with so many events queued. -/
def subscribed (c : Carrier) (queued : Nat) : State × Session × Sub :=
  let b : Sub := ⟨O.generation, true, none⟩
  let e := { session with carrier := c, subs := [b], queue := List.replicate queued (req 0 0 0 []) }
  ({ bed with mgmt := { bed.mgmt with sessions := [e] } }, e, b)

/-- A package that has drained with every die in place, and has one command waiting. -/
def drained : State := { at_ bed [(O.drainState, 2)] with pending := [.pwrEnRejected] }

theorem witness_walk :
    WalksWhenDrained drained ∧ drained.start.phase = .ready ∧ drained.rd O.drainState = 2 ∧ ∃ t, step drained = .next t :=
  ⟨by unfold WalksWhenDrained; decide +kernel, rfl, by decide +kernel, _, rfl⟩

theorem witness_excluded :
    (let s := at_ bed [(O.drainState, 2), (O.dieState 3, 2)]
     s.start.phase = .ready ∧ s.rd O.drainState = 2 ∧ s.rd (O.dieState 3) = 2 ∧ (seen s s).start.phase = .walk) := by decide +kernel

theorem witness_every_change : ∃ t, exec .serviceLockoutEnd (subscribed .tally 0).1 = .next t ∧ (∃ e ∈ t.mgmt.sessions, ∃ b ∈ e.subs, b.dirty = true) :=
  ⟨_, rfl, by decide +kernel⟩

theorem witness_seen : State.reset.rd O.drainState ≠ 2 := by decide +kernel

theorem witness_quiet : bed.quiet = true ∧ State.reset.quiet = true := by decide +kernel

theorem witness_issue : ((withCore (runs (descr 0 []))).core 0).runs = true := by decide +kernel

theorem witness_reads :
    (let f := req cmdRead O.generation 0 []
     f.index < 0xF000 ∧ f.sub ≠ 0 ∧ (rowOf f.key).isSome = true ∧ asks bed f cmdRead = true
       ∧ checkRead (inSession bed f) (levelOf bed f) f.key = stOk)
    ∧ (let f := Frame.seal { req cmdRead O.generation 0 [] with session := 0 }
       arrives bed f cmdRead = true ∧ f.session = 0 ∧ openFull bed f = false ∧ checkRead (received bed f) 0 f.key = stOk)
    ∧ (let f := req cmdReadDomain O.faultLog 65532 (natLe 4 4)
       asks bed f cmdReadDomain = true ∧ f.body.length = 4 ∧ 1 ≤ valueOf f ∧ valueOf f ≤ 65536
         ∧ checkDomain (inSession bed f) (levelOf bed f) f.key false (domSize f.key) (f.offset + valueOf f) = stOk) := by decide +kernel

theorem witness_write :
    writes bed (put O.sessionIdleLimit 10) = true
    ∧ (let f := put O.sessionIdleLimit 10
       f.index ∈ [0x1200, 0x1202, 0x1204, 0x1302, 0x1400, 0x2032, 0x9020] ∧ bed.quiet = true ∧ f.sub < 256
         ∧ bed.start.phase ≠ .restarting) := by decide +kernel

/-- The package in Walk mode after it was READY. -/
def walking : State := { bed with start := { bed.start with phase := .walk } }

theorem witness_walk_writes :
    (let f := put O.sessionIdleLimit 10
     asks walking f cmdWrite = true ∧ walking.walk = true ∧ levelOf walking f < 2 ∧ (rowOf f.key).isSome = true ∧ keyIndex f.key < 0xF000
       ∧ isRecovery f.key = false) := by decide +kernel

theorem witness_counter_access :
    (∀ k ∈ [0xA010 * 256 + 1, 0xA42F * 256 + 0x40, O.kpcOverflow],
      (rowOf k).isSome = true ∧ keySub k ≠ 0 ∧ 0xA010 ≤ keyIndex k ∧ keyIndex k < 0xA440 ∧ bed.rd O.counterUserRead = 0
        ∧ (at_ bed [(O.counterUserRead, 1)]).rd O.counterUserRead = 1 ∧ bed.walk = false)
    ∧ (rowOf (0xA000 * 256 + 1)).isSome = true := by decide +kernel

theorem witness_write_domain :
    (let f := whole (0x5020 * 256 + 1) 1020 (List.replicate 4 0#8)
     writesWhole bed f = true ∧ 0x5000 ≤ keyIndex f.key ∧ keyIndex f.key < 0x6000)
    ∧ (let f := Frame.seal { whole (0x5020 * 256 + 1) 0 [1#8] with flags := 0 }
       asks bed f cmdWriteDomain = true ∧ f.isLast = false
         ∧ bed.mgmt.transfers.all (fun x => !(decide (x.session = f.session) && decide (x.seq = f.seq))) = true)
    ∧ (let x : Transfer := { session := 1, seq := 7, carrier := .tally, source := 5, station := 9, flags := 0, key := 0x502001, began := 0, parts := [],
                             stop := none }
       let s : State := { bed with now := 100000, mgmt := { bed.mgmt with transfers := [x] } }
       s.mgmt.transfers.find? (fun y => decide (y.session = x.session) && decide (y.seq = x.seq)) = some x ∧ x.began + 100000 ≤ s.now) := by
  decide +kernel

theorem witness_sessions :
    (let f := Frame.seal { req cmdOpenSession 0 0 [2#8] with session := 0 }
     arrives bed f cmdOpenSession = true ∧ f.session = 0 ∧ f.body.length = 1 ∧ valueOf f ≤ 2 ∧ openFull bed f = false
       ∧ bed.mgmt.sessions.length < 64)
    ∧ asks bed (req cmdCloseSession 0 0 []) cmdCloseSession = true
    ∧ (let s : State := { bed with now := 60000000 }
       s.session? 1 = some session ∧ session.lastFrame + s.rd O.sessionIdleLimit * 1000000 ≤ s.now) := by decide +kernel

theorem witness_subscriptions :
    (let f := req cmdSubscribe O.generation 0 []
     asks bed f cmdSubscribe = true ∧ bed.session? f.session = some session
       ∧ checkRead (inSession bed f) (levelOf bed f) f.key ∈ [stOk, stType] ∧ (∀ b ∈ session.subs, b.key ≠ f.key)
       ∧ session.subs.length < 256)
    ∧ (let f := req cmdUnsubscribe O.faultLog 0 []
       asks bed f cmdUnsubscribe = true ∧ checkRead (inSession bed f) (levelOf bed f) f.key ∈ [stOk, stType])
    ∧ (∀ p ∈ [(Carrier.tally, 0), (.host, 64), (.host, 63)],
        let x := subscribed p.1 p.2
        x.1.session? 1 = some x.2.1 ∧ x.2.1.subs.find? (fun b => decide (b.key = 0x1000 * 256 + keySub O.generation)) = some x.2.2
          ∧ x.2.2.dirty = true ∧ x.2.2.lastSent = none ∧ x.1.served = true ∧ x.1.writeUnanswered 1 = false) := by decide +kernel

/-- The neutral point of edwards25519 as a key: with it every message has the signature of the neutral point and 0. -/
def neutralKey : Bytes := 1#8 :: List.replicate 31 0#8

/-- The multiples of the neutral point, scaled. -/
def IsNeutral (p : EdPoint) : Prop := p.x = 0 ∧ p.t = 0 ∧ p.y = p.z

theorem neutral_add {a b : EdPoint} (ha : IsNeutral a) (hb : IsNeutral b) : IsNeutral (edAdd a b) := by
  obtain ⟨ax, ay, az, at_⟩ := a
  obtain ⟨bx, by_, bz, bt⟩ := b
  obtain ⟨h1, h2, h3⟩ := ha
  obtain ⟨h4, h5, h6⟩ := hb
  simp only at h1 h2 h3 h4 h5 h6
  subst h1 h2 h3 h4 h5 h6
  have hm : (ay + edP) * (by_ + edP) % edP = ay * by_ % edP := by
    rw [Nat.mul_mod, Nat.add_mod_right, Nat.add_mod_right, ← Nat.mul_mod]
  have hd : 2 * ay * by_ % edP = 2 * (ay * by_ % edP) % edP := by
    rw [Nat.mul_assoc, Nat.mul_mod, Nat.mul_mod 2 (ay * by_ % edP), Nat.mod_mod]
  simp only [IsNeutral, edAdd, Nat.sub_zero, Nat.add_zero, hm, hd, Nat.mul_zero, Nat.zero_mul, Nat.zero_mod]
  generalize ay * by_ % edP = n
  refine ⟨?_, ?_, ?_⟩
  · rw [Nat.add_sub_cancel_left, Nat.mul_mod_right]
  · rw [Nat.add_sub_cancel_left, Nat.mul_mod_right]
  · rw [Nat.mul_mod (2 * n % edP), Nat.mul_mod (2 * n % edP + edP), Nat.add_mod_right, Nat.mod_mod, ← Nat.two_mul, Nat.mul_comm]

theorem neutral_mul {a : EdPoint} (ha : IsNeutral a) (k n : Nat) : IsNeutral (edMul k a n) := by
  induction n generalizing k a with
  | zero => exact ⟨rfl, rfl, rfl⟩
  | succ n ih =>
    simp only [edMul]
    split
    · exact neutral_add (ih (neutral_add ha ha) _) ha
    · exact ih (neutral_add ha ha) _

/-- Any message is signed so under the neutral key (RFC 8032, 5.1.7). -/
theorem neutral_verifies (m : Bytes) : edVerify neutralKey m (neutralKey ++ List.replicate 32 0#8) = true := by
  have hk : edDecode neutralKey = some ⟨0, 1, 1, 0⟩ := by decide +kernel
  have ht : (neutralKey ++ List.replicate 32 0#8).take 32 = neutralKey := by decide +kernel
  have hs : leNat ((neutralKey ++ List.replicate 32 0#8).drop 32) = 0 := by decide +kernel
  have hl : (neutralKey ++ List.replicate 32 0#8).length = 64 := by decide +kernel
  have hz : ∀ (n : Nat) (a : EdPoint), edMul 0 a n = edZero := by
    intro n; induction n with
    | zero => intro a; rfl
    | succ n ih => intro a; simp [edMul, ih]
  simp only [edVerify, ht, hk, hs, hl, hz, decide_true, Bool.true_and]
  have h0 : IsNeutral ⟨0, 1, 1, 0⟩ := ⟨rfl, rfl, rfl⟩
  have h1 : IsNeutral (edMul 8 edZero 4) := neutral_mul ⟨rfl, rfl, rfl⟩ 8 4
  generalize hq : leNat (sha512 (neutralKey ++ neutralKey ++ m)) % edL = q
  have h2 : IsNeutral (edMul 8 (edAdd ⟨0, 1, 1, 0⟩ (edMul q ⟨0, 1, 1, 0⟩ 256)) 4) := neutral_mul (neutral_add h0 (neutral_mul h0 q 256)) 8 4
  generalize edMul 8 edZero 4 = p1 at h1 ⊢
  generalize edMul 8 (edAdd ⟨0, 1, 1, 0⟩ (edMul q ⟨0, 1, 1, 0⟩ 256)) 4 = p2 at h2 ⊢
  obtain ⟨a1, a2, a3⟩ := h1
  obtain ⟨b1, b2, b3⟩ := h2
  simp only [edSame, a1, b1, a3, b3, Nat.zero_mul, Nat.mul_comm p2.z, decide_true, Bool.and_self]
  decide

/-- The package with that key fused. -/
def signed : State := { bed with fuses := { bed.fuses with serviceKey := neutralKey } }

/-- A SERVICE_WRITE of a value of an object, with nonce 1. -/
def service (key size v : Nat) : Frame :=
  req cmdServiceWrite key 0 (natLe 8 1 ++ natLe 2 (keyIndex key) ++ natLe 1 (keySub key) ++ [0#8] ++ natLe 4 size ++ natLe size v
    ++ (neutralKey ++ List.replicate 32 0#8))

/-- A sealed frame is intact (R54). -/
theorem seal_intact (f : Frame) (h : f.length ≤ 1024) : f.seal.intact = true := by
  simp only [Frame.intact, Frame.seal, h, decide_true, Nat.le_refl, Bool.true_and]
  exact decide_eq_true rfl

theorem witness_service :
    ∀ f ∈ [service O.sessionIdleLimit 2 10, service (0xF000 * 256 + 1) 1 0],
      asks signed f cmdServiceWrite = true ∧ f.carrier ≠ .torus ∧ signed.mgmt.lockedUntil = none ∧ 16 ≤ f.body.length
        ∧ 1 ≤ serviceLength f.body ∧ serviceLength f.body ≤ 896 ∧ f.body.length = 16 + serviceLength f.body + 64
        ∧ (inSession signed f).serviceAccepts f = true := by
  intro f hf
  have hi : f.intact = true := by
    simp only [List.mem_cons, List.not_mem_nil, or_false] at hf
    rcases hf with rfl | rfl <;> exact seal_intact _ (by decide +kernel)
  have hs : (f.body.drop (16 + serviceLength f.body)).take 64 = neutralKey ++ List.replicate 32 0#8 := by
    simp only [List.mem_cons, List.not_mem_nil, or_false] at hf
    rcases hf with rfl | rfl <;> decide +kernel
  have hk : (inSession signed f).fuses.serviceKey = neutralKey := by
    simp only [List.mem_cons, List.not_mem_nil, or_false] at hf
    rcases hf with rfl | rfl <;> decide +kernel
  simp only [State.serviceAccepts, hs, hk, neutral_verifies, Bool.true_and, asks, arrives, hi]
  simp only [List.mem_cons, List.not_mem_nil, or_false] at hf
  rcases hf with rfl | rfl <;> decide +kernel

theorem witness_service_value :
    (let f := service O.sessionIdleLimit 2 10
     let t := (inSession signed f).wr O.serviceNonce (byteField f.body 0 8)
     let v := (f.body.drop 16).take (serviceLength f.body)
     f.index < 0xF000 ∧ checkWrite t 2 f.key v.length (leNat v) = stOk)
    ∧ (let f := req cmdServiceWrite O.sessionIdleLimit 0 []
       asks bed f cmdServiceWrite = true ∧ f.carrier ≠ .torus ∧ bed.mgmt.lockedUntil = none ∧ (inSession bed f).serviceAccepts f = false)
    ∧ 0xF000 ≤ (service (0xF000 * 256 + 1) 1 0).index
    ∧ (let s : State := { bed with now := 60000000, mgmt := { bed.mgmt with lockedUntil := some 60000000 } }
       s.mgmt.lockedUntil = some 60000000 ∧ 60000000 ≤ s.now) := by decide +kernel

theorem witness_drain_flag :
    ∃ f : Frame, asks signed f cmdServiceWrite = true ∧ f.carrier ≠ .torus ∧ signed.mgmt.lockedUntil = none ∧ serviceLength f.body = 1
      ∧ f.body.length = 81 ∧ (inSession signed f).serviceAccepts f = true ∧ f.key = O.drainFlag ∧ f.index = keyIndex O.drainFlag
      ∧ byteField f.body 16 1 = 0 ∧ signed.objs.wf objDefault = true := by
  refine ⟨service O.drainFlag 1 0, ?_⟩
  have hi : (service O.drainFlag 1 0).intact = true := seal_intact _ (by decide +kernel)
  have hs : ((service O.drainFlag 1 0).body.drop (16 + serviceLength (service O.drainFlag 1 0).body)).take 64
      = neutralKey ++ List.replicate 32 0#8 := by decide +kernel
  have hk : (inSession signed (service O.drainFlag 1 0)).fuses.serviceKey = neutralKey := by decide +kernel
  simp only [State.serviceAccepts, hs, hk, neutral_verifies, Bool.true_and, asks, arrives, hi]
  decide +kernel

theorem witness_drain_control :
    (∀ x ∈ [(1, 0), (1, 1), (1, 2), (2, 0), (2, 1), (2, 2)],
      let s := at_ bed [(O.drainState, x.2)]
      let f := put O.drainControl x.1
      writes s f = true ∧ f.key = O.drainControl ∧ valueOf f = x.1 ∧ (inSession s f).rd O.drainState = x.2)
    ∧ checkWrite bed 2 O.drainFlag 1 0 = stOk := by decide +kernel

theorem witness_host_window :
    (let s := at_ bed [(O.hostLinkState, 3)]
     let f := { put O.sessionIdleLimit 10 with carrier := .host, slot := 15 }
     s.hostReaches = true ∧ f.carrier = .host ∧ f.slot < 16 ∧ (0x8000 : Nat).testBit f.slot = true ∧ (∀ p ∈ s.mgmt.requests, p.1 ≠ f.slot))
    ∧ (let p : Proxy := ⟨.tally, 5, 9, 1, 7, 3⟩
       let s : State := { bed with mgmt := { bed.mgmt with proxies := [p] } }
       let f := Frame.seal { req cmdRead O.generation 0 [] with carrier := .torus, kind := 2, source := 3 }
       s.start.phase = .ready ∧ f.carrier = .torus ∧ f.intact = true ∧ f.version = 1 ∧ f.kind = 2 ∧ f.status ≠ stDeferred
         ∧ f.command ≠ cmdOpenSession
         ∧ s.mgmt.proxies.find? (fun p => decide (p.seq = f.seq) && decide (p.dest = f.source) && decide (p.session = f.session)) = some p)
    ∧ (let o : Outstanding := ⟨1, 7, cmdWrite, O.domainControl 1, 5, 1, .tally, 9, 0, false, .domain 0 true⟩
       let s : State := { bed with now := 10000, mgmt := { bed.mgmt with outstanding := [o] } }
       s.mgmt.outstanding.find? (fun x => decide (x.session = o.session) && decide (x.seq = o.seq) && !x.deferred) = some o
         ∧ o.taken + 10000 ≤ s.now) := by
  decide +kernel

theorem witness_marking :
    (∀ f ∈ [put O.restoreStored 1, put O.tallyDiscarded 0, put O.counterFreeze 1, put (O.kpcValue 31) (2 ^ 48 - 1), put (O.kpcSelect 31) 0,
            put O.kpcOverflow (2 ^ 32 - 1), put O.tagSeed 2], writes bed f = true)
    ∧ keyIsCounter O.tallyDiscarded = true ∧ isCounterPart 1 (O.kpcValue 31) = true ∧ isCounterPart 0 (O.kpcSelect 31) = true
    ∧ isCounterPart 2 O.kpcOverflow = true ∧ counterPart O.kpcOverflow ≠ some (0, 2)
    ∧ (let f := put (O.pcOverflow 0 0) 15
       writes (powered bed [0]) f = true ∧ isCounterPart 2 f.key = true ∧ counterPart f.key = some (0, 2) ∧ valueOf f < 16) := by
  decide +kernel

theorem witness_counter_wrap :
    (let s := powered (at_ bed [(O.pcSelect 47 3 63, 2)]) [47]
     ∃ v o x, counterKeys 0 3071 3 = some (v, o, x) ∧ s.rd O.counterFreeze ≠ 1 ∧ s.rd x % 256 ≠ 0 ∧ s.served = true
       ∧ counterBent v = some 47 ∧ s.bentOn 47 = true)
    ∧ (counterKeys 2 0 31).isSome = true ∧ bed.rd (O.kpcSelect 31) % 256 = 0 := by
  refine ⟨⟨_, _, _, rfl, ?_⟩, ?_⟩ <;> decide +kernel

/-! ### Witnesses: cores -/

/-- The package with Bent 47 on and its core 3071 in a state, its entry at the last descriptor. -/
def bentUp (st : CoreState) (more : List Issued) : State :=
  (powered (at_ bed [(O.coreEntry 47 63, 0x7FFC0)]) [47]).setCore 3071 { Core.off with state := st, inflight := more }

/-- A descriptor in flight. -/
def issuedOf (d : Bytes) (stage : Stage) (due : Nat) : Issued :=
  { addr := 0, desc := d, x := Map.empty, rng := ⟨0, 0, 0, 0, 0⟩, seed := 0, stage := stage, shadow := none, credit := [], due := due,
    ring := none, tag := none, reads := [], asked := none, came := [], paid := false, sample := none }

theorem witness_core_control :
    (∀ p ∈ [(1, bentUp .halted []), (2, bentUp .waiting [issuedOf (descr 0 []) .begun 0]), (2, bentUp .running []), (3, bentUp .faulted [])],
      let f := put (O.coreControl 47 63) p.1
      writes p.2 f = true ∧ isBentObj 0x01 f.key = true ∧ keyCore f.key = 3071 ∧ (inSession p.2 f).paced 3071 = false ∧ valueOf f = p.1
        ∧ (inSession p.2 f).rd (O.coreEntry 47 63) % 64 = 0 ∧ (inSession p.2 f).rd (O.coreEntry 47 63) < 0x80000) := by decide +kernel

theorem witness_core_writes :
    (let s := bentUp .halted []
     let f := whole (O.coreMemory 47 63) 0x7FFFC [2#8, 0#8, 0#8, 0#8]
     writesWhole s f = true ∧ isBentObj 0x0A f.key = true ∧ (s.core (keyCore f.key)).active = false ∧ (s.core (keyCore f.key)).state ≠ .off)
    ∧ (let s := bentUp .running []
       let f := put (O.coreFpStatus 47 63) 31
       writes s f = true ∧ isBentObj 0x07 f.key = true ∧ (s.core (keyCore f.key)).state ≠ .off ∧ valueOf f < 32)
    ∧ (let s := bentUp .halted []
       let f := put (O.rngSeed 47) 5
       writes s f = true ∧ isBentObj 0x1D f.key = true ∧ keySub f.key = 1 ∧ (inSession s f).rd O.jobState ≠ 1
         ∧ (∀ c ∈ natsFrom (64 * keyBent f.key) 64, (s.core c).active = false)) := by decide +kernel

/-- Whether core 0, which runs one descriptor, issues it with a plan. -/
def issuesAt (k : Core) (op : Nat) (p : Plan) : Bool := issues (withCore k) 0 op p

theorem witness_control :
    (let p := fun (bad : Bool) (xs : List Nat) => (⟨bad, xs, [], 0, 64⟩ : Plan)
     (let d := descr 0 []; issuesAt (runs d) 0 (p (!zeroBytes d 8 64) []) = true)
     ∧ (let d := descr 2 [(2, 2, 1)]
        issuesAt { runs d with flags := 1 } 2 (p (decide (1 < byteField d 8 1) || decide (dWait d = 0) || !zeroBytes d 9 64) []) = true)
     ∧ (let d := descr 4 [(8, 1, 2)]; issuesAt (runs d) 4 (p (decide (2 < byteField d 8 1) || !zeroBytes d 9 64) []) = true)
     ∧ (let d := descr 8 [(8, 1, 0x8F), (9, 1, 0x80), (11, 1, 0x0D)]
        issuesAt (runs d) 8 (p (!selOk (byteField d 8 1) || !selUse (byteField d 8 1) || !selOk (byteField d 9 1) || !selOk (byteField d 10 1)
          || decide (0x0D < byteField d 11 1) || !zeroBytes d 12 16 || !zeroBytes d 24 64) (selXs d [8, 9, 10])) = true)
     ∧ (∀ to_ ∈ [0xFF, 63], let d := descr 3 [(8, 2, 0xFFFF), (12, 1, to_)]; issuesAt (runs d) 3 (p (sigInvalid 0 d) []) = true)
     ∧ sigTarget 0 (descr 3 [(12, 1, 0xFF)]) = 0 ∧ sigTarget 0 (descr 3 [(12, 1, 63)]) = 63
     ∧ (bed.core 63).active = false ∧ ((bed.setCore 63 (runs [])).core 63).active = true
     ∧ (let d := descr 1 [(8, 1, 0xFE)]; issuesAt (runs d) 1 (p (!zeroBytes d 9 64) []) = true)) := by decide +kernel

theorem witness_jumps :
    (∀ n ∈ [1, 2],
      let d := descr 5 [(8, 1, 0x80), (12, 4, 3)]
      let k := { runs d with x := Map.empty.set 0#64 0 (BitVec.ofNat 64 n) }
      issuesAt k 5 ⟨!selOk (byteField d 8 1) || !selUse (byteField d 8 1) || !zeroBytes d 9 12 || !zeroBytes d 16 64, [0], [], 0,
        if decide (loopValue k d ≠ 0#64) then jumpTo 0 d else 64⟩ = true)
    ∧ (∀ fl ∈ [0, 3],
        let d := descr 6 [(8, 2, 3), (11, 1, 1), (12, 4, 3)]
        let k := { runs d with flags := fl }
        issuesAt k 6 ⟨decide (byteField d 8 2 = 0) || decide (3 < byteField d 10 1) || decide (1 < byteField d 11 1) || !zeroBytes d 16 64, [], [], 0,
          if flagCond k.flags d then jumpTo 0 d else 64⟩ = true)
    ∧ (let d := descr 7 [(8, 1, 0x80), (10, 1, 5), (12, 4, 3)]
       let k := runs d
       issuesAt k 7 ⟨!selOk (byteField d 8 1) || !selUse (byteField d 8 1) || !selOk (byteField d 9 1) || decide (5 < byteField d 10 1)
         || !zeroBytes d 11 12 || !zeroBytes d 24 64, selXs d [8, 9], [], 0, if xCond k d then jumpTo 0 d else 64⟩ = true) := by decide +kernel

theorem witness_reserved :
    (let s := withCore (runs (descr 0x09 []))
     (s.core 0).runs = true ∧ (s.core 0).pending = none ∧ (s.core 0).inflight = [] ∧ opReserved (dOp (nextDesc s 0)) = true
       ∧ (s.core 0).waitMet = true) := by decide +kernel

theorem witness_retirement :
    (let i := issuedOf (descr 0x6F []) .complete 0
     ((withCore { runs [] with inflight := [i] }).core 0).inflight = [i] ∧ i.stage = .complete ∧ dOp i.desc < 0x70 ∧ i.credit = [] ∧ i.tag = none)
    ∧ (let k := runs (descr 0 [(2, 2, 1)])
       k.state = .running ∧ k.onlyWaits = true)
    ∧ (let i := issuedOf (descr 0x60 []) .begun 5
       let j := issuedOf (descr 0x60 []) .complete 5
       let s : State := { withCore { runs [] with inflight := [i, j] } with now := 6 }
       let u : State := { withCore { runs [] with inflight := [j, j] } with now := 6 }
       (s.core 0).inflight[1]? = some j ∧ j.due < s.now ∧ j.ring = none
         ∧ ((s.core 0).inflight.take 2).any (fun j => decide (j.stage ≠ .complete)) = true
         ∧ (u.core 0).inflight[1]? = some j ∧ ((u.core 0).inflight.take 2).all (fun j => decide (j.stage = .complete)) = true)
    ∧ (let e : Endpoint := { Endpoint.none with kind := 3, flag := 0x80 }
       let k := { runs (descr 0 [(2, 2, 1)]) with state := .waiting, waitDue := some 5, ends := Map.empty.set Endpoint.none 15 e }
       let s : State := { withCore k with now := 6 }
       (s.core 0).state = .waiting ∧ (s.core 0).waitDue = some 5 ∧ 5 < s.now ∧ (s.core 0).awaited = [(15, e)] ∧ (s.core 0).waitMet = false)
    ∧ (let i := { issuedOf (descr 0x63 []) .begun 5 with ring := some 3 }
       let s : State := { withCore { runs [] with inflight := [i] } with now := 6 }
       (s.core 0).inflight.findIdx? (fun i => i.ring.isSome && decide (i.due < s.now)) = some 0) := by
  decide +kernel

/-! ### Witnesses: matrix, moves, vectors -/

/-- An MM of two BF16 panels of K 32, at 4,096 and 8,192, with its tile and chain bits, its CHAIN_NEXT. -/
def mmDesc (bits next : Nat) : Bytes :=
  descr 0x10 [(8, 4, 4096), (12, 4, 8192), (30, 1, 0x22), (32, 2, 32), (34, 1, bits), (35, 1, next), (38, 2, 64), (40, 2, 64)]

theorem witness_matrix :
    (withCore (runs (mmDesc 4 0))).unitsIdle = true
    ∧ (∀ bits ∈ [4, 0x10],
        let d := mmDesc bits 0
        let k := runs d
        issuesAt k 0x10 ⟨mmInvalid k.x 0 d, descXs d, [mmTile d],
          if mmOutside k.x d then 0x02 else if tileConflict (mmFinds k d) d then 0x10 else 0, 64⟩ = true)
    ∧ mmChainIn (mmDesc 4 0) = false ∧ mmChainOut (mmDesc 4 0) = false ∧ (at_ bed [(O.recomputeN, 0)]).rd O.recomputeN = 0
    ∧ mmChainIn (mmDesc 0x10 0) = true ∧ (runs (mmDesc 0x10 0)).chain = none
    ∧ (let d := descr 0x18 [(8, 1, 15)]
       issuesAt (runs d) 0x18 ⟨decide (byteField d 8 1 = 0) || decide (15 < byteField d 8 1) || !zeroBytes d 9 64, [], descTiles d, 0, 64⟩ = true)
    ∧ (let d := descr 0x19 [(8, 4, 4096), (13, 1, 3), (14, 2, 0x200), (16, 4, 64)]
       let k := (runs d).setTile 3 { Tile.empty with status := 64 }
       issuesAt k 0x19 ⟨tsInvalid k.x d, descXs d, descTiles d,
         if field (k.tile (byteField d 13 1 % 4)).status 6 2 = 0 then 0x01 else if tsOutside k.x d then 0x02 else 0, 64⟩ = true)
    ∧ (let d := descr 0x1A [(8, 1, 3), (9, 1, 0x8F)]
       issuesAt (runs d) 0x1A ⟨decide (3 < byteField d 8 1) || !selOk (byteField d 9 1) || !selUse (byteField d 9 1) || !zeroBytes d 10 64,
         descXs d, [byteField d 8 1 % 4], 0, 64⟩ = true) := by decide +kernel

/-- A package whose core 0 has an MM that has begun. -/
def chained (bits : Nat) (shadow chain : Option Tile) : State :=
  withCore { runs [] with inflight := [{ issuedOf (mmDesc bits 63) .begun 0 with shadow := shadow }], chain := chain }

theorem witness_chain :
    (waitingMm false ((chained 0x10 none (some Tile.empty)).core 0).inflight = some 0
      ∧ ((chained 0x10 none (some Tile.empty)).core 0).chain = some Tile.empty ∧ tileConflict Tile.empty.status (mmDesc 0x10 63) = false)
    ∧ (let s := chained 0x20 (some Tile.empty) none
       let on := s.setCore 63 { Core.off with state := .idle }
       waitingMm true (s.core 0).inflight = some 0 ∧ 0 / 64 * 64 + mmNext (mmDesc 0x20 63) = 63 ∧ (s.core 63).state = .off
         ∧ (on.core 63).state ≠ .off ∧ (on.core 63).chain = none ∧ waitingMm true (on.core 0).inflight = some 0) := by decide +kernel

/-- A move of one 64-byte row. -/
def moveDesc (op src dst peer : Nat) : Bytes :=
  descr op [(8, 8, src), (16, 8, dst), (27, 1, peer), (28, 4, 64), (32, 4, 1)]

/-- A package whose core 0 runs a descriptor and whose core 63 is IDLE. -/
def twoCores (d : Bytes) : State := (withCore (runs d)).setCore 63 { Core.off with state := .idle }

theorem witness_moves :
    ∀ p ∈ [(0x60, 4096, 0x7FFC0, 0), (0x61, 4096, bentBase, 0), (0x62, 4096, 0x7FFC0, 63)],
      let d := moveDesc p.1 p.2.1 p.2.2.1 p.2.2.2
      let s := twoCores d
      s.unitsIdle = true ∧ issues s 0 p.1 ⟨mvInvalid 0 p.1 d, mvXs d, [], s.mvFault 0 p.1 d, 64⟩ = true := by decide +kernel

theorem witness_move_frame :
    (∀ i bs, [[1#8, 2#8]][i]? = some bs → ¬(64 + i * 64 ≤ 66 ∧ 66 < 64 + i * 64 + bs.length))
    ∧ (twoCores []).cores.wf (fun _ => Core.off) = true ∧ (twoCores []).bents.wf (fun _ => Bent.empty) = true := by
  refine ⟨?_, by decide +kernel, by decide +kernel⟩
  intro i bs h
  match i, h with
  | 0, h => cases h; decide

/-- A package whose core 0 runs a MOVE_TENSOR, with the first tensor page mapped, or that of an incoming ring region. -/
def tensored (d : Bytes) (page : Nat) : State :=
  (at_ (withCore (runs d)) [(O.seqShare 0, 2), (O.ringFTokenBytes 0, 65536), (O.pipeMaxTokens, 1)]).setPage page ⟨0, 5⟩

/-- What a MOVE_TENSOR issues into. -/
def moving (s : State) : State := (issued s 0 0x63 64).modIssued 0 0 (fun i => { i with reads := [] })

/-- Whether a read of a MOVE_TENSOR completes with no unit busy after it. -/
def readsNow (s : State) (i : Issued) : Bool :=
  match s.runTensorRead 0 0 i with
  | .done u => (u.finish 0 0).unitsIdle
  | _ => false

theorem witness_tensor :
    (let d := moveDesc 0x63 0 8192 0
     let s := tensored d 0
     let t := moving s
     s.unitsIdle = true ∧ issues s 0 0x63 ⟨mvInvalid 0 0x63 d, mvXs d, [], s.mvFault 0 0x63 d, 64⟩ = true ∧ mvDir d = 0
       ∧ distinct (mvBlocks (mvSrc Map.empty d) (mvSrcStride d) d) = [0] ∧ t.mapped 0 = true ∧ t.ringKeyOf 0 = none
       ∧ t.resolve (t.itemOf 0) 0 = some 5 ∧ homeOf (16 * 5) = 0 ∧ (t.frame 5).poison.contains 0 = false
       ∧ ((t.core 0).inflight[0]?).elim false (readsNow t) = true)
    ∧ (let d := moveDesc 0x63 (65536 * ringPage 0 1 false 0) 8192 0
       let s := tensored d (ringPage 0 1 false 0)
       let t := moving s
       s.unitsIdle = true ∧ issues s 0 0x63 ⟨mvInvalid 0 0x63 d, mvXs d, [], s.mvFault 0 0x63 d, 64⟩ = true ∧ mvDir d = 0
         ∧ distinct (mvBlocks (mvSrc Map.empty d) (mvSrcStride d) d) = [16 * ringPage 0 1 false 0]
         ∧ (t.ringKeyOf (16 * ringPage 0 1 false 0)).elim false (fun x =>
             decide (x.1 = 0) && !x.2.1 && !((t.slot 0).landed.contains x.2.2)) = true) := by
  decide +kernel

/-- What a MOVE_TENSOR leaves that has begun to write its blocks. -/
def written (t : State) : State :=
  match (t.core 0).inflight[0]? with
  | none => t
  | some i => (State.each (fun (t : State) (p : Nat × Bytes) => t.moveBlock 0 p) t (t.movedBlocks 0 i)).bpc 0 0x05 4096

theorem witness_tensor_write :
    let d := descr 0x63 [(8, 8, 8192), (16, 8, 0), (26, 1, 1), (28, 4, 4096), (32, 4, 1)]
    let s := tensored d 0
    let t := moving s
    let far := s.setPage 0 ⟨0, 3 * 2 ^ 32⟩
    s.unitsIdle = true ∧ issues s 0 0x63 ⟨mvInvalid 0 0x63 d, mvXs d, [], s.mvFault 0 0x63 d, 64⟩ = true ∧ mvDir d = 1
      ∧ mvBlocks (mvDst Map.empty d) (mvDstStride d) d = [0] ∧ t.mapped 0 = true ∧ t.blockWritable 0 = true
      ∧ t.ringKeyOf 0 = none ∧ t.plainWrite 0 (16 * 5) = true ∧ t.openWrites 0 = [] ∧ t.bentSlot 0 = 0xFF
      ∧ (written t).openWrites 0 = []
      ∧ ((t.core 0).inflight[0]?).elim false (fun i => (((written t).endTensorWrite 0 i).finish 0 0).unitsIdle) = true
      ∧ far.unitsIdle = true ∧ issues far 0 0x63 ⟨mvInvalid 0 0x63 d, mvXs d, [], far.mvFault 0 0x63 d, 64⟩ = true
      ∧ (moving far).mapped 0 = true ∧ (moving far).blockWritable 0 = true ∧ (written (moving far)).openWrites 0 ≠ [] := by
  decide +kernel

/-- Whether a vector row issues a descriptor on core 0. -/
def vectorIssues (op : Nat) (u : VUse) (bad : Bytes → Bool) (fault : Core → Bytes → Nat) (fs : List (Nat × Nat × Nat)) : Bool :=
  let d := descr op ((21, 1, u.types.headD 0) :: (25, 1, u.group.getD 0) :: fs)
  let k := runs d
  issuesAt k op ⟨u.invalid d || bad d, vXs d, ((u.operands d).filter (fun o => decide (opdKind o = 2))).map opdTile,
    if k.emptyTile (u.operands d) then 0x01 else fault k d, 64⟩

/-- No fault. -/
def noFault (_ : Core) (_ : Bytes) : Nat := 0

theorem witness_elementwise :
    (∀ p ∈ [(0x30, [0, 1, 2], 1), (0x31, [0, 1, 2], 1), (0x32, [0, 1, 2], 1), (0x34, [0, 1, 2], 1), (0x35, [0, 1, 2], 1), (0x36, [0, 2], 1),
            (0x37, [0, 2], 1), (0x3A, [0, 2], 1), (0x3B, [0, 1, 2], 7), (0x3D, [1], 7)],
      vectorIssues p.1 (.elementwise true true false p.2.1 p.2.2) vOk noFault [(8, 1, 31), (10, 2, 31), (12, 2, 1)] = true)
    ∧ (∀ op ∈ [0x33, 0x3C], vectorIssues op (.elementwise true true true [0, 1, 2] 1) vOk noFault [(14, 2, 31)] = true)
    ∧ (∀ p ∈ [(0x38, [0, 1, 2], 1), (0x39, [0, 1, 2], 1), (0x3F, [0], 3), (0x41, [2], 2)],
        vectorIssues p.1 (.elementwise true false false p.2.1 p.2.2) vOk noFault [(10, 2, 31)] = true)
    ∧ vectorIssues 0x3E { VUse.elementwise false false false [1] 1 with imm := true } vOk noFault [(16, 4, 0xFFFFFFFF)] = true
    ∧ vectorIssues 0x40 { VUse.elementwise true true false [0] 1 with conv := true, elem := true }
        (fun d => (vConvOf d).elim true (fun c => decide (c.fmt ≠ .bf16) || decide (c.scale ≠ 0))) noFault [(22, 2, 0x200)] = true
    ∧ vectorIssues 0x42 { VUse.elementwise true false false [0] 1 with conv := true, elem := true } (fun d => (vConvOf d).isNone) noFault
        [(22, 2, 0x200)] = true := by decide +kernel

theorem witness_load_store :
    vectorIssues 0x43 (memoryUse false) loadBad (fun k d => vMemFault k.x d (loadSizes d).1 (loadSizes d).2) [(32, 4, 0x7FF00)] = true
    ∧ vectorIssues 0x44 (memoryUse true)
        (fun d => decide (vWmask d ≠ 0) || decide (vSfmt d ≠ 0) || (if vType d = 0 then (vConvOf d).isNone else decide (vConv d ≠ 0)))
        (fun k d => vMemFault k.x d (storeSizes d).1 (storeSizes d).2) [(22, 2, 0x200), (32, 4, 0x7FF80)] = true := by decide +kernel

theorem witness_functions :
    (∀ op ∈ [0x45, 0x46, 0x47, 0x48, 0x49], vectorIssues op (.elementwise true false false [0] 1) vOk noFault [] = true)
    ∧ vectorIssues 0x4A { VUse.elementwise true false false [0, 1] 5 with group := some 0, xdst := true } vOk noFault [(24, 1, 4)] = true
    ∧ vectorIssues 0x4B { VUse.elementwise true false false [0] 2 with dst2 := true, imm := true, group := some 1 }
        (fun d => epsBad d || !((vDst2 d).testBit 7)) noFault [(9, 1, 0x9F)] = true
    ∧ vectorIssues 0x4C { VUse.elementwise true false false [0] 2 with dst2 := true, imm := true, group := some 2, pmask := true, xdst := true }
        tauBad noFault [(16, 4, 0x3F800000)] = true
    ∧ vectorIssues 0x4D { VUse.elementwise true true false [0] 8 with imm := true, group := some 2, pmask := true }
        (fun d => tauBad d || ((vSub d).testBit 1 && decide (vOpd d 1 ≠ 0))) noFault [(16, 4, 0x3F800000), (24, 1, 7)] = true
    ∧ vectorIssues 0x4E { VUse.elementwise true true false [0] 2 with imm := true, group := some 2, pmask := true } tauBad noFault
        [(16, 4, 0x3F800000)] = true
    ∧ vectorIssues 0x4F { VUse.elementwise false true false [0] 2 with group := some 2, xdst := true } vOk noFault [] = true
    ∧ (let d := descr 0x50 [(8, 4, 0x83828180), (12, 1, 0x84)]
       issuesAt (runs d) 0x50 ⟨!([8, 9, 10, 11, 12].all (fun i => selOk (byteField d i 1) && selUse (byteField d i 1))) || !zeroBytes d 13 64,
         selXs d [8, 9, 10, 11, 12], [], 0, 64⟩ = true)
    ∧ vectorIssues 0x51 { VUse.elementwise false false false [0, 1] 2 with elem := true } vOk noFault [] = true
    ∧ vectorIssues 0x52 { VUse.elementwise true false false [0] 1 with imm := true, imm2 := true, elem := true } vOk noFault
        [(28, 4, 0xFFFFFFFF)] = true := by decide +kernel

theorem witness_masked :
    let d := descr 0x30 [(20, 1, 0x9F)]
    (vWmask d).testBit 7 = true ∧ 63 < 64 ∧ (List.replicate 64 0#32).length = 64 ∧ ((withCore (runs d)).core 0).runs = true
      ∧ ((withCore (runs d)).core 0).v.wf (fun _ => 0#2048) = true := by decide +kernel

theorem witness_integer :
    ∀ op ∈ [0x30, 0x31, 0x32],
      let u := VUse.elementwise true true false [0, 1, 2] 1
      let d := descr op [(21, 1, 1), (8, 1, 31)]
      let s := withCore (runs d)
      vType d = 1 ∧ (vWmask d).testBit 7 = false ∧ s.quiet = true ∧ (s.core 0).v.wf (fun _ => 0#2048) = true
        ∧ issues s 0 op ⟨u.invalid d || vOk d, vXs d, ((u.operands d).filter (fun o => decide (opdKind o = 2))).map opdTile,
            if (s.core 0).emptyTile (u.operands d) then 0x01 else 0, 64⟩ = true := by decide +kernel

/-! ### Witnesses: channels and Lanes -/

/-- A queue's configuration: its base, the largest message in blocks, its depth and senders, with more bits. -/
def qcfg (base depth more : Nat) : Nat := base + 2 ^ 26 + depth * 2 ^ 37 + 2 ^ 45 + more

/-- An open or closed queue of generation 1. -/
def queueOf (st : Nat) (ms : List Message) : Queue := { Queue.unused with state := st, gen := 1, messages := ms }

/-- The package with Bent 47 on and its last queue in a state. -/
def queued (s : State) (cfg st : Nat) (ms : List Message) : State :=
  (powered (at_ s [(O.queueConfig 47 63, cfg)]) [47]).setQueue 3071 (queueOf st ms)

theorem witness_queues :
    (∀ p ∈ [(1, 0), (2, 1), (3, 2), (4, 2)],
      let s := if p.2 = 0 then powered (at_ bed [(O.queueConfig 47 63, qcfg 0x7FFFD 1 0)]) [47] else queued bed (qcfg 0 1 0) p.2 []
      let f := put (O.queueControl 47 63) p.1
      let t := inSession s f
      writes s f = true ∧ isBentObj 0x21 f.key = true ∧ keyQueue f.key = 3071 ∧ t.bentOn (keyBent f.key) = true ∧ valueOf f = p.1
        ∧ (t.queue 3071).state = p.2 ∧ t.queueFits 3071 = true)
    ∧ (∀ p ∈ [(252, [0#8, 0#8, 0#8, 0#8], 0), (0, [1#8, 0#8, 0#8, 0#8], stRange)],
        let s := bentUp .halted []
        let f := whole (O.endpointTable 47 63) p.1 p.2.1
        let c := keyCore f.key
        let t := inSession s f
        let now := (natsFrom 0 16).flatMap (fun e => (t.endpointBytes ((t.core c).endp e)).take 10 ++ List.replicate 6 0#8)
        let bytes := ((Map.empty.setBytes 0#8 0 now).setBytes 0#8 f.offset f.body).bytes 0#8 0 256
        writesWhole s f = true ∧ isBentObj 0x28 f.key = true ∧ (s.core c).state ≠ .off ∧ (t.writeTable c bytes).1 = p.2.2)
    ∧ bed.ownQueue 0 = true := by decide +kernel

/-- An endpoint bound to a queue by its name. -/
def bound (kind queue credit reserved : Nat) : Endpoint :=
  { Endpoint.none with kind := kind, flag := 0xFF, credits := 1, queue := queue, gen := 1, credit := credit, reserved := reserved }

/-- A SEND, CONTRIBUTE, RECV or PROBE of endpoint 15 with no registers written. -/
def chDesc (op size : Nat) : Bytes := descr op [(8, 1, 15), (12, 4, 4096), (16, 2, size)]

/-- A package whose core 0 runs such a descriptor on an endpoint. -/
def speaks (op size : Nat) (e : Endpoint) : State :=
  withCore { runs (chDesc op size) with ends := Map.empty.set Endpoint.none 15 e }

/-- The name of the last queue of the own package. -/
def lastQueue : Nat := 47 * 256 + 63

theorem witness_sends :
    ∀ p ∈ [(0x70, 1, 1), (0x72, 2, 1)],
      let ok := fun (s : State) =>
        decide (s.unitsIdle = true) && issues s 0 p.1 ⟨chInvalid (chDesc p.1 1), descXs (chDesc p.1 1), [], s.chFault 0 (chDesc p.1 1), 64⟩
      let own := fun (cfg st : Nat) (credit reserved : Nat) => queued (speaks p.1 1 (bound p.2.1 lastQueue credit reserved)) cfg st []
      (∀ x ∈ [(qcfg 0 1 0, 1, 1, 0, 0), (qcfg 0 1 (2 ^ 61), 1, 0, 1, 0), (qcfg 0 1 0, 1, 0, 0, 0), (qcfg 0 1 0, 2, 1, 0, 0x23)],
        let s := own x.1 x.2.1 x.2.2.1 x.2.2.2.1
        let e := bound p.2.1 lastQueue x.2.2.1 x.2.2.2.1
        ok s = true ∧ s.bindStatus e = x.2.2.2.2 ∧ s.ownQueue lastQueue = true ∧ s.returnPlane e = decide (x.2.2.2.1 = 1))
      ∧ (∀ x ∈ [(1, 0, 1), (1, 1, 0), (0, 0, 1)],
          let e := { bound p.2.1 (7 * 65536) x.2.1 x.2.2 with credits := x.1 }
          let s := speaks p.1 1 e
          ok s = true ∧ s.ownQueue (7 * 65536) = false ∧ s.bindStatus e = 0 ∧ s.returnPlane e = decide (x.1 = 0)) := by decide +kernel

/-- The package with a message of one granule from sender 3 in slot 0 of its last queue. -/
def holding (s : State) : State :=
  s.storeMessage 3071 0 3 0 0 0 (payloadChecks (List.replicate 64 5#8)) (List.replicate 64 5#8)

/-- That message. -/
def oneBlock : Message := ⟨0, [], []⟩

theorem witness_receives :
    (∀ x ∈ [(0x71, 1, 1, [oneBlock], 0), (0x71, 1024, 1, [], 0), (0x73, 0, 1, [oneBlock], 0), (0x73, 0, 1, [], 0), (0x71, 1, 0, [], 0x22)],
      let e := { bound 3 lastQueue 0 0 with gen := if x.2.2.1 = 1 then 1 else 2 }
      let d := chDesc x.1 x.2.1
      let s := holding (queued (speaks x.1 x.2.1 e) (qcfg 0 1 0) 1 x.2.2.2.1)
      s.unitsIdle = true ∧ issues s 0 x.1 ⟨chInvalid d, descXs d, [], s.chFault 0 d, 64⟩ = true ∧ s.bindStatus e = x.2.2.2.2
        ∧ (chOn d).testBit 0 = false ∧ (issued s 0 x.1 64).headFor 3071 0 15 = x.2.2.2.1.head?)
    ∧ (let t := issued (holding (queued (speaks 0x71 1 (bound 3 lastQueue 0 0)) (qcfg 0 1 0) 1 [oneBlock])) 0 0x71 64
       let p := t.slotPayload 3071 0
       hSize (t.slotHeader 3071 0) = 1 ∧ payloadChecks p = hChecks (t.slotHeader 3071 0) (payloadChecks p).length) := by decide +kernel

/-- A message on its way. -/
def inFlight (o : Origin) : Flight :=
  { origin := o, queue := 3071, gen := 1, contribute := false, sender := 0, seq := 0, count := 0, payload := List.replicate 64 5#8,
    checks := payloadChecks (List.replicate 64 5#8) }

/-- The kind of an acceptance. -/
def acceptKind : Accepted → Nat
  | .taken _ _ => 0
  | .refused _ => 1
  | .full => 2

theorem witness_messages :
    ∀ o ∈ [Origin.endpoint 0 15 1, Origin.remote 7], ∀ x ∈ [(1, ([] : List Message), 0), (2, [], 1), (1, [oneBlock], 2)],
      let g := inFlight o
      let s : State := { queued (speaks 0x70 1 (bound 1 lastQueue 1 0)) (qcfg 0 1 0) x.1 x.2.1 with flights := [g] }
      s.flights[0]? = some g ∧ s.flights.find? g.sameBinding = some g
        ∧ acceptKind (({ s with flights := eraseFirst g.sameBinding s.flights } : State).offer { g with payload := damageBytes g.payload [] }) = x.2.2 := by
  decide +kernel

/-- A micro-batch of one token, its ID 0, in a state. -/
def micro (f b w : Nat) : Micro :=
  { id := 0, baton := batonBytes 0 0 0 0 0 0 1 0 0 0 1 1 0 0, f := f, b := b, w := w, fSent := false, bSent := false, fInput := 0, bInput := 0 }

/-- A package with slot 0 in a state. -/
def slotted (s : State) (st : Nat) (v : Slot) : State := (at_ s [(O.stageState 0, st)]).modSlot 0 (fun _ => v)

/-- A package with Lane 63 of a role, local or over Relay link 31 to package 7, in a state. -/
def laned (role relay st peer : Nat) : State :=
  at_ (powered bed [0x34]) [(O.pageFrames 0, 8), (O.laneRole 63, role), (O.laneRelay 63, relay), (O.laneState 63, st), (O.lanePeerStage 63, peer),
    (O.laneMaxTokens 63, 1),    (O.laneTokenBytes 63, 1), (O.lanePages 63, 1), (O.lanePeerLane 63, 62), (O.relayRemote 31, 7),
    (O.laneStage 62, 1), (O.jobStage 1, 1)]

theorem witness_relays :
    (∀ p ∈ [(1, 0), (2, 1), (2, 2), (2, 3)],
      let s := at_ bed [(O.relayState 31, p.2)]
      let f := put (O.relayControl 31) p.1
      writes s f = true ∧ isRelayControl f.key = true ∧ keyIndex f.key - 0x4200 = 31 ∧ valueOf f = p.1 ∧ (inSession s f).rd (O.relayState 31) = p.2)
    ∧ (∀ p ∈ [(1, 0, 0xFF), (1, 0, 31), (2, 1, 31), (3, 2, 31), (4, 2, 31)],
        let s := laned 0 p.2.2 p.2.1 1
        let f := put (O.laneControl 63) p.1
        let t := inSession s f
        writes s f = true ∧ isLaneControl f.key = true ∧ keyIndex f.key - 0x4100 = 63 ∧ valueOf f = p.1 ∧ t.rd (O.laneState 63) = p.2.1
          ∧ (t.lane 63).opening = false ∧ t.laneRefused 63 = false ∧ t.laneLocal 63 = decide (p.2.2 = 0xFF) ∧ t.laneCycle 63 = false
          ∧ t.laneReads 63 = false ∧ (t.startLane 63).isSome = true ∧ (t.lane 63).peer = none)
    ∧ (let s := at_ (laned 0 0xFF 0 1) [(O.laneStage 62, 0)]
       let f := put (O.laneControl 63) 1
       let t := inSession s f
       writes s f = true ∧ t.rd (O.laneState 63) = 0 ∧ (t.lane 63).opening = false ∧ t.laneRefused 63 = false ∧ t.laneCycle 63 = true
         ∧ t.laneOverride 63 = none)
    ∧ (let s := (laned 0 31 0 1).modLane 63 (fun e => { e with peer := some [1, 0, 1, 1, 1] })
       let f := put (O.laneControl 63) 1
       let t := inSession s f
       writes s f = true ∧ t.laneRefused 63 = false ∧ t.laneCycle 63 = false ∧ t.laneLocal 63 = false ∧ (t.lane 63).peer ≠ none)
    ∧ (∀ b ∈ [false, true],
        let s := (laned 1 31 0 1).modLane 63 (fun e => { e with opening := b })
        let t := s.modLane 63 (fun e => { e with peer := some [1, 0, 1, 1, 1] })
        (s.lane 63).opening = b ∧ s.rd (O.laneState 63) = 0 ∧ t.laneShape 63 = [1, 0, 1, 1, 1] ∧ t.laneShape 63 ≠ [2, 0, 1, 1, 1]
          ∧ ((t.modLane 63 (fun e => { e with opening := false, peer := none })).startLane 63).isSome = true) := by decide +kernel

/-- A slot that has computed a micro-batch, and has Lane 63 as its output. -/
def outputs (relay : Nat) : State :=
  let v : Slot := { Slot.unused with mbs := [micro 2 0 0], versions := [⟨0, verCurrent, 0, [], []⟩] }
  let s := at_ (slotted (laned 0 relay 1 1) 2 v)
    [(O.outLane 0, 63), (O.laneRole 62, 1), (O.laneRelay 62, 0xFF), (O.lanePages 62, 1), (O.laneMaxTokens 62, 1), (O.laneTokenBytes 62, 1),
     (O.lanePeerLane 62, 63), (O.laneStage 62, 1), (O.stageState 1, 2), (O.seqShare 0, 1), (O.jobStage 1, 1)]
  let s := s.modSlot 1 (fun _ => { Slot.unused with versions := [⟨0, verCurrent, 0, [], []⟩] })
  ((s.startLane 63).getD s).startLane 62 |>.getD s

theorem witness_lane_traffic :
    (∀ relay ∈ [0xFF, 31],
      let s := outputs relay
      let none_ := s.modLane 63 (fun e => { e with credit := 0 })
      let stale := s.modLane 63 (fun e => { e with status := 0x22 })
      s.rd (O.outLane 0) = 63 ∧ s.stage 0 = 2 ∧ (s.slot 0).nextOutput false = some (micro 2 0 0) ∧ s.outPages 0 1 = 1
        ∧ s.rd (O.laneState 63) = 1 ∧ (s.lane 63).status = 0 ∧ (s.lane 63).credit ≠ 0 ∧ 1 ≤ (s.lane 63).pages
        ∧ (∀ x ∈ s.blockList none (pageSize * s.outAt 0 0) pageSize, s.blockFault [] x.2.1 x.1 = none)
        ∧ s.laneLocal 63 = decide (relay = 0xFF) ∧ s.rd (O.laneState (s.rd (O.lanePeerLane 63))) = 1
        ∧ (none_.lane 63).credit = 0 ∧ (none_.slot 0).nextOutput false = some (micro 2 0 0) ∧ (none_.lane 63).status = 0
        ∧ (stale.lane 63).status ≠ 0 ∧ (stale.slot 0).nextOutput false = some (micro 2 0 0))
    ∧ (∀ st ∈ [1, 2],
        let s := at_ (outputs 31) [(O.laneRelay 62, 31), (O.laneState 62, st)]
        s.laneReads 62 = true ∧ s.laneLocal 62 = false ∧ s.rd (O.laneState 62) = st ∧ (s.lane 62).status = 0
          ∧ s.stage (s.rd (O.laneStage 62)) ≠ 0) := by decide +kernel

/-- A package in a job of one stage. -/
def jobbed : State :=
  at_ bed ([(O.jobState, 1), (O.jobStages 0, 1), (O.pipePackages, 1), (O.stagesPerPackage, 1), (O.bentCount 0, 48), (O.pipeMaxTokens, 1)]
    ++ (natsFrom 0 48).map (fun b => (O.bentState b, 0)))

/-- The cores of Bent 0 all alike. -/
def coresAre (s : State) (k : Core) : State := State.each (fun (t : State) (c : Nat) => t.setCore c k) s (natsFrom 0 64)

theorem witness_arm :
    let f := put (O.stageControl 0) 1
    let t := inSession jobbed f
    let a := t.wr (O.stashWorstPages 0) (t.stashWorst 0)
    writes jobbed f = true ∧ isStageControl f.key = true ∧ keySlot f.key = 0 ∧ valueOf f = 1 ∧ t.stage 0 = 0 ∧ t.rd (O.seqShare 0) = 1
      ∧ a.rd O.drainState = 0 ∧ a.jobCheck 0 = stOk ∧ a.planCheck 0 = stOk ∧ (a.takeSlot 0).isSome = true := by decide +kernel

theorem witness_stage_control :
    (∀ p ∈ [(2, 1), (3, 2), (3, 5), (4, 1), (4, 4)],
      let s := at_ bed [(O.stageState 15, p.2)]
      let f := put (O.stageControl 15) p.1
      let t := inSession s f
      writes s f = true ∧ isStageControl f.key = true ∧ keySlot f.key = 15 ∧ valueOf f = p.1 ∧ t.stage 15 = p.2)
    ∧ (let s := coresAre (at_ bed [(O.bentCount 0, 1), (O.stageState 0, 1)]) { Core.off with state := .idle }
       ∀ c ∈ (inSession s (put (O.stageControl 0) 2)).slotCores 0, ((inSession s (put (O.stageControl 0) 2)).core c).state = .idle) := by
  decide +kernel

/-- A slot of a job stage that is RUNNING, with its first schedule entry. -/
def paced_ (stage mode max entry : Nat) (v : Slot) : State :=
  at_ (slotted bed 2 v) [(O.jobStage 0, stage), (O.jobStages 0, 3), (O.wMode 0, mode), (O.wPendingMax 0, max), (O.schedule 0 0, entry)]

/-- The state in which the Pacer of slot 0 decides. -/
def deciding (s : State) : State := (s.acceptEarly 0).takeRingEarly 0

theorem witness_pacer :
    (let v : Slot := { Slot.unused with mbs := [micro 2 3 1] }
     let s := deciding (paced_ 1 0 0 0 v)
     (paced_ 1 0 0 0 v).stage 0 = 2 ∧ s.stage 0 = 2 ∧ (s.slot 0).item = none ∧ (s.slot 0).stepDone = false ∧ s.rd (O.wMode 0) = 0 ∧ (s.slot 0).pendingW ≠ []
       ∧ (let s := deciding (paced_ 1 1 1 0 v); s.rd (O.wMode 0) = 1 ∧ (s.slot 0).pendingW.length = s.rd (O.wPendingMax 0)))
    ∧ (∀ x ∈ [(1, [micro 0 0 0], 0, true, false, 0), (2, [micro 2 1 0], 1, false, true, 0), (3, [micro 2 3 1], 1, false, false, 1),
              (1, [], 0, false, false, 0), (1, [{ micro 2 3 1 with id := 1 }], 0, false, false, 1), (2, [], 0, false, false, 0), (0, [], 1, false, false, 0)],
        let s := deciding (paced_ 1 1 2 (if x.1 = 0 then 0 else 4096 * x.1 + 1)
          { Slot.unused with mbs := x.2.1, fOut := x.2.2.1, bOut := if x.1 = 0 then 1 else 0 })
        let w := s.walkOf 0 (s.acceptedF 0)
        s.stage 0 = 2 ∧ (s.slot 0).item = none ∧ (s.slot 0).stepDone = false ∧ s.rd (O.wMode 0) = 1
          ∧ (s.slot 0).pendingW.length ≠ s.rd (O.wPendingMax 0) ∧ s.jobStageOf 0 ≠ 0 ∧ seKind (s.sched 0 (s.slot 0).ptr) = x.1
          ∧ w.fLeft = 1 - x.2.2.1 ∧ w.readyF = x.2.2.2.1 ∧ w.bLeft = (if x.1 = 0 then 0 else 1) ∧ w.readyB = x.2.2.2.2.1 ∧ w.pendW = x.2.2.2.2.2)
    ∧ (let c : Candidate := ⟨1, 1, 0, 0, 0, 0, 0, []⟩
       let s := deciding (at_ (paced_ 0 1 1 4097 { Slot.unused with replays := [⟨0, 0, c⟩] }) [(O.ledgerSlots 0, 1)])
       s.stage 0 = 2 ∧ s.jobStageOf 0 = 0 ∧ (s.slot 0).replays.isEmpty = false ∧ (s.admitNext 0).1 = true ∧ (s.slot 0).pendingW.length ≠ 1
         ∧ seKind (s.sched 0 1) = 1 ∧ (s.slot 0).fOut < s.rd (O.microBatches 0)) := by decide +kernel

theorem witness_items :
    let it : Item := ⟨1, 0, 5⟩
    let b : State := { at_ (slotted bed 2 { Slot.unused with item := some it, mbs := [micro 1 0 0] }) [(O.bentCount 0, 1)] with now := 5 }
    let s := fun (k : Core) => (coresAre b { Core.off with state := .halted }).setCore 63 k
    (∀ c ∈ [0x7F, 0x80], (s { Core.off with state := .halted, haltCode := c }).slotCores 0 = natsFrom 0 64)
    ∧ (let t := s { Core.off with state := .halted, haltCode := 0x7F }
       (t.slot 0).item = some it ∧ it.due ≤ t.now ∧ (∀ k ∈ (t.slotCores 0).map t.core, k.state = .halted ∧ k.haltCode ≤ 0x7F) ∧ t.ringComplete 0 it = true)
    ∧ (let t := s { Core.off with state := .faulted }; (∃ k ∈ (t.slotCores 0).map t.core, k.state = .faulted ∨ k.state = .off)
        ∧ (t.slot 0).item = some it ∧ it.due ≤ t.now ∧ ∃ k ∈ (t.slotCores 0).map t.core, ¬(k.state = .halted ∧ k.haltCode ≤ 0x7F))
    ∧ (let t := s { Core.off with state := .halted, haltCode := 0x80 }
       (∀ k ∈ (t.slotCores 0).map t.core, k.state ≠ .faulted ∧ k.state ≠ .off)
         ∧ (∃ k ∈ (t.slotCores 0).map t.core, k.state = .halted ∧ 0x80 ≤ k.haltCode ∧ k.haltCode ≤ 0xFE)) := by decide +kernel
/-! ### Witnesses: memory, versions and the step -/

/-- The package with so many frames in stack 0. -/
def framed (s : State) (n : Nat) : State := at_ (powered s [0x34]) [(O.pageFrames 0, n)]

/-- A request to the allocator for pages of the own pool. -/
def allocates (what page n : Nat) : Bytes := natLe 8 (pageSize * page) ++ natLe 4 n ++ [0#8, 0xFF#8] ++ natLe 1 what ++ [0#8]

/-- An answer with one page of weights. -/
def fetched : FetchResult :=
  { passed := true, jobStage := 0, seqSlice := 0, weightPages := 1, optPages := 0, version := 3, weights := Map.empty, optimizer := Map.empty,
    powers := Map.empty, lr := 0, lrNext := 0, lrStep := 0, lastCommitted := 7 }

/-- A slot whose layer 127 has its gradient delivered. -/
def graded : State :=
  let s := at_ (slotted bed 2 Slot.unused) [(O.rgState 0, 1), (O.rgMembers 0, 1)]
  let s := (s.setDom (O.optLayers 0) (Map.setBytes Map.empty 0#8 (32 * 127) [1#8])).setBucket 0 0 { Bucket.idle with shards := [0] }
  { s with commit := { s.commit with opened := true } }

theorem witness_allocator :
    (let s := framed bed 2
     let f := whole O.allocRequest 0 (allocates 1 3 2)
     let t := inSession s f
     writesWhole s f = true ∧ f.key = O.allocRequest ∧ f.offset = 0 ∧ f.body.length = 16 ∧ requestFits f.body = true
       ∧ (∀ q ∈ natsFrom 3 2, t.mapped q = false) ∧ (t.takeFrames (byteField f.body 13 1) 1 0 0 2).isSome = true)
    ∧ (let s := bed.setPage 3 ⟨0, 5⟩
       let f := whole O.allocRequest 0 (allocates 2 3 1)
       writesWhole s f = true ∧ requestFits f.body = true
         ∧ (∀ q ∈ natsFrom 3 1, ((inSession s f).page q).pool = 0 ∧ (inSession s f).inWindow q = false))
    ∧ graded.layerDue 0 127 = true ∧ ((graded.modSlot 0 (fun v => { v with layers := [127] })).slot 0).layers.contains 127 = true
    ∧ (let f := put (O.vsFetchControl 15) 1
       writes bed f = true ∧ isFetchControl f.key = true ∧ valueOf f = 1 ∧ keySlot f.key = 15 ∧ (inSession bed f).stage 15 = 0
         ∧ (inSession bed f).rd (O.vsFetchState 15) ≠ 1)
    ∧ (let s := at_ (framed bed 2) [(O.vsFetchState 15, 1), (O.weightPages 15, 1), (O.optPages 15, 0)]
       s.fetchMatches 15 fetched = true ∧ ((s.complete (.fetch 15) stOk).takeFetch 15 fetched).isSome = true) := by decide +kernel

/-- A message of the commit tree for step 0, attempt 0. -/
def tells (type action : Nat) : CommitMsg :=
  let m : CommitMsg := { format := 1, type := type, action := action, attempt := 0, step := 0, jobTag := 0, sender := 9, firstFail := 0xFFFF,
                         reporters := 0, reason := 0, check := 0#32 }
  { m with check := crc32c (natLe 1 1 ++ natLe 1 type ++ natLe 1 action ++ natLe 1 0 ++ natLe 4 0 ++ natLe 4 0 ++ natLe 2 9 ++ natLe 2 0xFFFF
      ++ natLe 4 0 ++ natLe 1 0 ++ natLe 7 0) }

/-- The package with an open attempt. -/
def stepping (l : List (Nat × Nat)) : State :=
  let s := at_ bed l
  { s with commit := { s.commit with opened := true } }

theorem witness_commit_tree :
    (∀ m ∈ [tells cmReady 0, tells cmFail 0],
      let s := stepping [(O.commitChildCount, 1), (O.commitChild 0, 9)]
      s.commitOk m = true ∧ s.commitChildren.contains m.sender = true ∧ s.ripe m = true ∧ (∀ r ∈ s.commit.ready, r.1 ≠ m.sender)
        ∧ (let t := at_ s [(O.stepNumber, 2 ^ 32 - 1)]; t.commitOk m = true ∧ t.ripe m = false ∧ t.tooSoon m = true))
    ∧ (∀ m ∈ [tells cmCommit 0, tells cmAbort 0, tells cmAbort 2, tells cmQuery 0, tells cmResume 0],
      (stepping []).commitOk m = true ∧ (stepping [(O.stepState, 3)]).concerns m = true ∧ (stepping [(O.stepState, 3)]).rd O.stepState = 3 ∧ m.action ≤ 2
        ∧ m.step = (stepping []).rd O.stepNumber
        ∧ (let t := stepping [(O.stepNumber, 2 ^ 32 - 1)]
           t.concerns m = false ∧ t.tooSoon m = true ∧ m.step ≠ t.rd O.stepNumber))
    ∧ ((stepping [(O.lastDecision, cmCommit * 16)]).decisionOn 0 0).isSome = true ∧ (stepping []).decisionOn 0 0 = none
    ∧ (stepping [(O.commitParent, 5)]).commitRoot = false
    ∧ (let s : State := { stepping [(O.stepState, 2)] with now := 9 }
       let s : State := { s with commit := { s.commit with pending := some 9 } }
       s.commit.pending = some 9 ∧ s.rd O.stepState = 2 ∧ 9 ≤ s.now) := by decide +kernel

theorem witness_commit_controls :
    (let s := stepping [(O.stepState, 5), (O.lastDecision, cmAbort * 16 + acHold), (O.commitParent, 0xFFFF)]
     let f := put O.commitControl 1
     writes s f = true ∧ valueOf f = 1 ∧ (inSession s f).commitRoot = true ∧ (inSession s f).onHold = true)
    ∧ (∀ v ∈ [2, 3],
        let s := stepping [(O.inDoubt, 1)]
        let f := put O.commitControl v
        writes s f = true ∧ valueOf f = v ∧ (inSession s f).rd O.inDoubt = 1)
    ∧ (∀ d ∈ [0, 1],
        let s := stepping [(O.inDoubt, d), (O.commitParent, 5)]
        let f := put O.commitParent 6
        writes s f = true ∧ (inSession s f).rd O.commitParent ≠ valueOf f ∧ (inSession s f).rd O.inDoubt = d) := by decide +kernel

/-- A header of a reduce-scatter frame of bucket 63 from the other of two members, for a step, with its payload's length. -/
def redHeader (step length : Nat) : Bytes :=
  let h := [1#8, 0#8, 0#8, 0#8] ++ natLe 4 step ++ natLe 2 0 ++ natLe 2 0 ++ [63#8, 0#8] ++ natLe 2 0 ++ natLe 2 0 ++ natLe 2 1 ++ natLe 4 4194304
    ++ natLe 4 length ++ natLe 32 0
  h ++ natLe 4 (crc32c h).toNat

/-- A package whose group of two reduces bucket 63 on channel 31. -/
def reducing : State :=
  let s := stepping [(O.rgState 0, 1), (O.rgMembers 0, 2), (O.rcSlot 31, 0), (O.layoutEpoch, 0)]
  s.setDom (O.bucketTable 0) ((Map.setBytes Map.empty 0#8 (16 * 63 + 12) [31#8]).setBytes 0#8 (16 * 63 + 15) [1#8])

theorem witness_reduction :
    (∀ x ∈ [(0, 4, .accepted), (0, 5, .accepted), (2 ^ 32 - 1, 4, .stale)],
      let p : RedPacket := { header := redHeader x.1 x.2.1, offset := 0, segment := natLe 4 7, checks := segmentChecks (natLe 4 7) }
      reducing.rd (O.rcSlot 31) < 16 ∧ reducing.rgActive (reducing.rd (O.rcSlot 31)) = true ∧ (reducing.chan 31).landing = none
        ∧ reducing.judge 31 p.header = x.2.2 ∧ p.offset = 0 ∧ (reducing.chan 31).areas < 2 ∧ byteField p.header 24 4 = x.2.1
        ∧ p.segment.length = 4 ∧ ([] : List W32) ≠ segmentChecks p.segment)
    ∧ (let s : State := { reducing.modChan 31 (fun k => { k with waiting := some 9 }) with now := 9 }
       (s.chan 31).waiting = some 9 ∧ 9 ≤ s.now)
    ∧ (∀ x ∈ [(1, 0), (2, 1)],
        let s := at_ bed [(O.rgState 15, x.2), (O.rgMembers 15, 1)]
        let f := put (O.rgControl 15) x.1
        let t := inSession s f
        writes s f = true ∧ isGroupControl f.key = true ∧ keySlot f.key = 15 ∧ t.stage 15 = 0 ∧ valueOf f = x.1 ∧ t.rgActive 15 = decide (x.2 = 1)
          ∧ t.layoutOk 0 15 = true ∧ t.bucketsFree 0 15 false = true ∧ (t.mapBuckets 15).isSome = true)
    ∧ (∀ x ∈ [(1, 0), (2, 1)],
        let s := at_ bed [(O.reshardState, x.2), (O.reshardEpoch, 1), (O.reshardStep, 1), (O.rgState 0, 1), (inBank 1 (O.rgMembers 0), 1)]
        let f := put O.reshardControl x.1
        let t := inSession s f
        writes s f = true ∧ valueOf f = x.1 ∧ t.rd O.reshardState = x.2 ∧ t.rd O.reshardEpoch ≠ t.rd O.layoutEpoch
          ∧ t.rd O.stepNumber < t.rd O.reshardStep ∧ t.activeGroups = [0] ∧ t.nextBankOk = true
          ∧ (t.takeFrames 0xFF 2 ownReshard 0 t.reshardFrames).isSome = true) := by decide +kernel

theorem witness_jobs :
    (∀ x ∈ [(1, 0), (2, 1)],
      let s := at_ bed [(O.jobState, x.2), (O.jobPackages, 1), (O.pipePackages, 1), (O.stagesPerPackage, 1), (O.pipeMaxTokens, 1)]
      let f := put O.jobControl x.1
      let t := inSession s f
      writes s f = true ∧ valueOf f = x.1 ∧ t.planned = [] ∧ t.rd O.jobState = x.2 ∧ (x.2 = 0 → t.declareCheck = stOk))
    ∧ (let s := fun (link stepNo : Nat) (opened : Bool) (item : Option Item) =>
         let s := at_ (slotted bed 2 { Slot.unused with item := item }) [(O.seqShare 0, 2), (O.pipeMaxTokens, 1), (O.ringFTokenBytes 0, 65536),
           (O.bentCount 0, 1), (O.ringInRelay 0, 31), (O.relayState 31, link), (O.stepNumber, stepNo), (O.microBatches 0, 2)]
         let s := coresAre s { Core.off with state := .halted }
         ({ s with commit := { s.commit with opened := opened } } : State)
       let b : RingBlock := { jobStage := 0, step := 0, attempt := 0, mb := 1, kind := 1, hop := 1, block := 15, bytes := Map.empty, checkOk := true }
       let it : Item := ⟨1, 1, 5⟩
       (∀ x ∈ [(0, 0, true), (2, 1, true), (2, 0, true), (2, 0, false)],
         let s0 := s x.1 x.2.1 x.2.2 (some it)
         let t := s0.relayGot 31 4096
         s0.stage 0 ≠ 0 ∧ s0.hasRing 0 = true ∧ s0.rd (O.ringInRelay 0) = 31 ∧ (it.kind = b.kind ∧ it.mb = b.mb) ∧ s0.rd (O.relayState 31) = x.1
           ∧ t.ringStale b = decide (x.2.1 = 1) ∧ t.attemptOpen = x.2.2 ∧ t.attemptAhead b.step b.attempt = !x.2.2
           ∧ (x.2.1 = 0 → b.step = t.rd O.stepNumber ∧ b.attempt = t.rd O.stepAttempt))
       ∧ ((s 2 0 true (some it)).relayGot 31 4096).ringFits 0 b = true ∧ ((s 2 0 true (some it)).relayGot 31 4096).ringFits 0 { b with hop := 0 } = false
       ∧ (let s0 := s 2 0 true (some ⟨2, 0, 5⟩)
          (s0.slot 0).item = some ⟨2, 0, 5⟩ ∧ (2 : Nat) ≠ b.kind ∧ s0.itemComplete 0 ⟨2, 0, 5⟩ = true)) := by decide +kernel

/-! ### Witnesses: the data engine -/

/-- A package that is the decoder and the sink of a job. -/
def fed (state : Nat) : State :=
  at_ (powered bed [0x48, 0x4C, 0x4E]) [(O.jobState, 1), (O.dataRole, 3), (O.decoders, 1), (O.decoderTable 0, 0), (O.sinkTable 0, 0),
    (O.samplesTotal, 4), (O.dataState, state)]

/-- A sink alone whose slot 0 is RUNNING and has its candidate ring mapped. -/
def sinking : State :=
  let s := at_ (slotted bed 2 Slot.unused) [(O.jobState, 1), (O.dataRole, 2), (O.decoders, 1), (O.decoderTable 0, 7), (O.sinkTable 0, 0),
    (O.samplesTotal, 4), (O.candRingPages, 1024)]
  { s with pages := ⟨(natsFrom (candPage 0) 1024).map (fun p => (p, ⟨5, 0⟩))⟩ }

/-- A run of listed entries holds its value throughout. -/
theorem find_run {α : Type} (d v : α) (n a q : Nat) (h1 : a ≤ q) (h2 : q < a + n) : Map.find d q ((natsFrom a n).map (fun p => (p, v))) = v := by
  induction n generalizing a with
  | zero => omega
  | succ n ih =>
    simp only [natsFrom, List.map_cons, Map.find]
    split
    · rfl
    · exact ih (a + 1) (by omega) (by omega)

theorem natsFrom_bounds (n a q : Nat) (h : q ∈ natsFrom a n) : a ≤ q ∧ q < a + n := by
  induction n generalizing a with
  | zero => cases h
  | succ n ih =>
    rcases List.mem_cons.1 h with rfl | h
    · omega
    · have := ih (a + 1) h; omega

theorem natsFrom_length (n a : Nat) : (natsFrom a n).length = n := by
  induction n generalizing a with
  | zero => rfl
  | succ n ih => simp [natsFrom, ih]

theorem ring_mapped (s : State) (hr : s.isDecoder = false) (i : Nat) (hs : s.sinkSlot = some i)
    (hp : s.pages = ⟨(natsFrom (candPage i) (s.rd O.candRingPages)).map (fun p => (p, ⟨5, 0⟩))⟩) : s.mapDataRings.isSome = true := by
  have h : ((natsFrom (candPage i) (s.rd O.candRingPages)).filter s.mapped).length = s.rd O.candRingPages := by
    rw [List.filter_eq_self.2, natsFrom_length]
    intro q hq
    have := natsFrom_bounds _ _ _ hq
    simp only [State.mapped, State.page, hp, Map.get, find_run _ _ _ _ _ this.1 this.2]
    rfl
  simp only [State.mapDataRings, hr, hs, h]
  simp [State.takeFrames]

theorem witness_data_start :
    let t := inSession sinking (put O.dataControl 1)
    writes sinking (put O.dataControl 1) = true ∧ t.startCheck = stOk ∧ t.dropOffers.mapDataRings.isSome = true :=
  ⟨by decide +kernel, by decide +kernel, ring_mapped _ (by decide +kernel) 0 (by decide +kernel) (by decide +kernel)⟩

/-- A box of ISO/IEC 14496-12. -/
def box (kind : String) (body : Bytes) : Bytes := natBe 4 (8 + body.length) ++ natBe 4 (fourCC kind) ++ body

/-- A file with one H.264 track, track_ID 0, timescale 90000, of one sample: the file's first byte. -/
def aFile : Bytes :=
  box "moov" (box "trak" (box "mdia" (box "mdhd" (natBe 12 0 ++ natBe 4 90000) ++ box "minf" (box "stbl"
    (box "stsd" (natBe 8 1 ++ box "avc1" []) ++ box "stsz" (natBe 4 0 ++ natBe 4 1 ++ natBe 4 1)
      ++ box "stsc" (natBe 4 0 ++ natBe 4 1 ++ natBe 4 1 ++ natBe 4 1 ++ natBe 4 1) ++ box "stco" (natBe 4 0 ++ natBe 4 1 ++ natBe 4 0))))))

/-- A coded picture of the Main profile, with a profile and a syntax error or none. -/
def coded (profile : Nat) (broken : Bool) : CodedPicture :=
  let p : Plane := ⟨1, 1, [[16]]⟩
  { unit := 0, last := 0, ticks := 0, profile := profile, level := 51, constraints := 0, layered := false, chroma := 1, depth := 8, width := 4096,
    height := 2176, progressiveFrame := true, fieldPic := false, mbaff := false, fieldSeq := false, random := false, leading := false, refs := [],
    broken := broken, fieldTicks := 1, topFirst := true, matrix := 1, fullRange := false, luma := p, cb := p, cr := p, user := [] }

/-- A job of slot 3 with the data of its sample: the window is the ticks below 9, the file holds no audio. -/
def gathered : DecodeJob :=
  ⟨3, 3, (List.replicate 20 0#8 ++ [0xFF#8, 0xFF#8] ++ List.replicate 10 0#8 ++ [9#8]) ++ List.replicate 31 0#8, 0, [(0, aFile)]⟩

/-- A frame on ingest port 0 for queue pair 0: UDP over IPv6, with an operation code and a syndrome, and its invariant CRC, changed or not. -/
def roce (op syndrome : Nat) (change : W32) : Bytes :=
  let ip := [0x60#8] ++ natBe 3 0 ++ natBe 2 28 ++ [17#8, 64#8] ++ List.replicate 32 0#8
  let udp := natBe 2 0 ++ natBe 2 4791 ++ natBe 2 28 ++ natBe 2 0
  let rest := natBe 1 op ++ [0#8, 0xFF#8, 0xFF#8, 0#8] ++ natBe 3 0x100 ++ [0#8] ++ natBe 3 0 ++ natBe 4 (syndrome * 2 ^ 24)
  natBe 6 0x020053930002 ++ natBe 6 9 ++ natBe 2 0x86DD ++ ip ++ udp ++ rest ++ natLe 4 (invariantCrc ip udp rest ^^^ change).toNat

/-- A pause of priority 3. -/
def paused : Bytes := natBe 12 0 ++ natBe 2 0x8808 ++ natBe 2 0x0101 ++ natBe 2 8 ++ natBe 8 7 ++ natBe 8 0

theorem witness_data :
    (∀ p ∈ [(2, 1), (2, 3), (3, 0)],
      let s := fed p.2
      let f := put O.dataControl p.1
      let t := inSession s f
      writes s f = true ∧ valueOf f = p.1 ∧ t.rd O.dataState = p.2)
    ∧ (let s := fed 1
       s.rd O.dataState = 1 ∧ s.isDecoder = true ∧ s.data.next ≤ s.lowestCursor + s.rd O.lookahead ∧ s.epochOpen s.data.next = true)
    ∧ (let s := (at_ (fed 1) [(O.lanesPassing 6, 4), (O.ingestPfcPriority, 3)]).setDom (O.qpTable 0) (Map.setBytes Map.empty 0#8 0 [1#8])
       s.ingestUsed 0 = true ∧ rocePacket [] = none ∧ isPause [] = false
         ∧ (∀ x ∈ [(0x0D, 0, 0#32), (0x11, 0x60, 0#32), (0x81, 0, 0#32), (0x0D, 0, 1#32)],
             isPause (roce x.1 x.2.1 x.2.2) = false
               ∧ (rocePacket (roce x.1 x.2.1 x.2.2)).any (fun p =>
                   decide (p.checkOk = decide (x.2.2 = 0#32)) && decide (s.roceQp 0 p = some 0) && decide (s.roceQp 1 p = none)
                     && decide (isReadResponse p.opcode = decide (x.1 = 0x0D)) && decide (p.sequenceNak = decide (x.1 = 0x11))
                     && decide (p.congestion = decide (x.1 = 0x81))) = true)
         ∧ isPause paused = true ∧ pauseOf paused (s.rd O.ingestPfcPriority) = some 7)
    ∧ (let s : State := { (fed 1).modQp 127 (fun q => { q with due := some 9 }) with now := 9 }
       (s.qp (64 * 1 + 63)).due = some 9 ∧ 9 ≤ s.now)
    ∧ (let s : State := { fed 1 with now := 55 }; (s.qp 127).paced + 55 ≤ s.now)
    ∧ (∀ x ∈ [(0, 77, true, 0), (0, 77, false, 0), (1, 77, true, 5), (2, 77, true, 5), (0, 44, false, 3)],
        let s := at_ ((fed 1).modData (fun e => { e with jobs := [gathered] })) [(O.damagePolicy, x.1)]
        let d : Decoded := { pictures := [coded x.2.1 x.2.2.1], audio := [] }
        let o := gathered.decoded d
        s.job 3 = some gathered ∧ gathered.record ≠ [] ∧ gathered.left = 0 ∧ s.rd O.dataState ≠ 0 ∧ o.isSome = decide (x.2.2.2 ≠ 3)
          ∧ s.decodedCause o (s.framesKept gathered o) = x.2.2.2 ∧ s.rd O.damagePolicy = x.1
          ∧ (s.countDecoded (o.getD ⟨⟨[], false, 0, 0, 0⟩, none, 0, ⟨[], 0, 0⟩⟩)).rd O.damagePolicy = x.1)
    ∧ (let s := at_ (fed 1) [(O.decoderTable 0, 7)]
       s.decoderAt (3 % s.rd O.decoders) ≠ s.node.id ∧ s.rd O.dataState = 1 ∧ s.isSink = true ∧ s.data.expect ≤ 3 ∧ s.data.arrived = []
         ∧ s.data.failures.get 0 3 + 1 < 3 ∧ s.isDecoder = true ∧ s.decoderAt 0 ≠ 0xFFFF ∧ s.decoderAt 0 ≠ s.node.id)
    ∧ (let s := at_ (fed 1) [(O.sinkTable 127, 7)]
       s.isDecoder = true ∧ s.rd O.dataState ≠ 0 ∧ s.rd (O.sinkTable 127) ≠ 0xFFFF ∧ s.rd (O.sinkTable 127) ≠ s.node.id) := by decide +kernel

/-! ### Witnesses: the network and the dies -/

/-- A package in a torus of 4 x 3 x 2 with port 5 in a state, its link part way. -/
def torused (st : Nat) (f : TPort → TPort) : State :=
  (at_ { bed with node := ⟨1, 4, 3, 2⟩, now := 20000000 } [(O.portLinkState 5, st)]).modTport 5 f

/-- A record of the neighbour at port 5. -/
def identified (kind package : Nat) : IdRecord :=
  let b := identityBytes kind package 4 9 4 1 4 3 2 0 0x3F [] 7 1 0 0
  { format := 1, kind := kind, packageId := package, port := 4, generation := 9, compute := 4, iod := 1, dimX := 4, dimY := 3, dimZ := 2, iflags := 0,
    lanes := 0x3F, serial := [], digest := 7, revision := 1, jobTag := 0, lineDown := 0, check := BitVec.ofNat 32 (byteField b 60 4) }

theorem witness_ports :
    (∀ x ∈ [(1, 13, true), (2, 13, true), (3, 13, true), (1, 12, false)],
      ∀ st ∈ [ptUp, ptBeacon, ptIdentity, ptMiswired],
        let s := torused st (fun p => { p with hellos := 1 })
        s.recordPasses 5 (identified x.1 x.2.1) = x.2.2 ∧ s.pstate 5 = st ∧ 1 ≤ (s.tport 5).hellos ∧ (identified x.1 x.2.1).iflags.testBit 3 = false)
    ∧ (torused ptDark id).pstate 5 = ptDark
    ∧ (let s := at_ (torused ptUp id) [(O.lanesUsed 5, 6)]
       s.elapsed (s.tport 5).beacon s.beaconInterval = true ∧ s.portUp 5 = true ∧ (0x3F : Nat) % 2 ^ s.rd (O.lanesUsed 5) = 2 ^ s.rd (O.lanesUsed 5) - 1
         ∧ s.elapsed (s.tport 5).lastHello (3 * s.beaconInterval) = true)
    ∧ (let s := at_ (torused ptUp id) [(O.holdMax, 20)]; s.elapsed (s.tport 5).upSince (s.rd O.holdMax * 1000000) = true)
    ∧ (∀ k ∈ [2, 4], ((torused ptTraining (fun p => { p with step := k })).tport 5).step = k
        ∧ ((torused ptTraining (fun p => { p with step := k })).tport 5).since + trainBound k ≤ 20000000)
    ∧ (let s := torused ptHeld id; s.pstate 5 = ptHeld ∧ (s.tport 5).holdUntil ≤ s.now)
    ∧ (∀ x ∈ [(1, ptDisabled), (2, ptUp), (3, ptUp), (4, ptHeld)],
        let s := powered (torused x.2 id) [0x45]
        let f := Frame.seal { put (O.portControl 5) x.1 with dest := 1 }
        let t := inSession s f
        writes s f = true ∧ isPortControl f.key = true ∧ keyIndex f.key - 0x7010 = 5 ∧ valueOf f = x.1 ∧ t.pstate 5 = x.2 ∧ t.dimSize 2 ≠ 1
          ∧ t.domainOn 0x45 = true ∧ (t.tport 5).lostAt ≠ some t.now)
    ∧ (let s := torused ptHeld (fun p => { p with lostAt := some 20000000 })
       let f := Frame.seal { put (O.portControl 5) 2 with dest := 1 }
       writes s f = true ∧ ((inSession s f).tport 5).lostAt = some (inSession s f).now) := by decide +kernel

/-- A flit with its CRC. -/
def sealFlit (f : Flit) : Flit := { f with check := crc32c (flitBytes f) }

/-- Such a flit is good (R368). -/
theorem flit_good (f : Flit) (h : f.fecOk = true) : flitGood (sealFlit f) = true := by
  simp only [flitGood, sealFlit, h, Bool.true_and]
  exact decide_eq_true rfl

/-- A flit of a kind on the last virtual channel. -/
def aFlit (ok : Bool) (kind seq : Nat) : Flit :=
  sealFlit { fecOk := ok, corrected := 0, kind := kind, vc := 0x90, linkSeq := seq, ackSeq := 0, credits := [], payload := [], check := 0#32 }

theorem witness_flits (kind seq : Nat) : flitGood (aFlit true kind seq) = true := flit_good _ rfl

theorem witness_flit_sequence :
    let s := torused ptUp id
    s.portUp 5 = true
      ∧ (∀ kind ∈ [0, 1, 2, 3], ∀ x ∈ [(0, true), (1, false)],
          let fl := aFlit true kind x.1
          let p := (((s.add (O.fecCorrected 5) fl.corrected).tport 5).acknowledge fl)
          fl.kind = kind ∧ decide (fl.linkSeq = (p.rx + 1) % 65536) = x.2 ∧ flitBuffer fl.vc ≤ 10 ∧ p.held.get 0 (flitBuffer fl.vc) < vcBuffer (flitBuffer fl.vc))
      ∧ flitGood (aFlit false 1 1) = false := by decide +kernel

/-- A packet of a class from package 3 to a package, for a unit. -/
def aPacket (cls dest unit : Nat) (payload : Bytes) : Packet :=
  { dest := dest, source := 3, cls := cls, pflags := 0, flowSeq := 0, hops := 0, unit := unit, unitTag := 0, payload := payload }

theorem witness_switch :
    (let s := torused ptUp (fun p => { p with window := [⟨1, 0, 0, []⟩], acked := 65535 })
     let p := s.tport 5
     (0 + 65536 - p.acked) % 65536 ≤ p.window.length)
    ∧ (∀ x ∈ [(4, 2), (0, 1)],
        let s := torused ptUp id
        let v := 2 * x.1 + x.2
        let t := torused ptUp (fun p => { p with arrived := [(v, aPacket x.1 23 0x10 [])] })
        s.torusSize = 24 ∧ s.node.id = 1 ∧ (x.2 < if x.1 = 4 then 3 else 2) ∧ (∀ a ∈ (s.tport 5).arrived, a.1 ≠ v)
          ∧ (t.tport 5).arrived.find? (fun a => decide (a.1 = v)) = some (v, aPacket x.1 23 0x10 [])
          ∧ (aPacket x.1 1 0 []).dest = s.node.id ∧ (aPacket x.1 23 0 []).dest < s.torusSize ∧ (aPacket x.1 23 0 []).dest ≠ s.node.id
          ∧ s.torusSize ≤ (aPacket x.1 24 0 []).dest ∧ s.dimSize (5 / 2) = 2 ∧ (1 : Nat) < s.dimSize (5 / 2))
    ∧ (let s := at_ (torused ptUp id) [(O.relayState 31, 2), (O.relayRemote 31, 23)]
       s.remotePartners.contains 23 = true ∧ s.elapsed (s.torus.sentTo.get 0 23) s.beaconInterval = true
         ∧ s.elapsed (s.torus.heard.get 0 23) (3 * s.beaconInterval) = true)
    ∧ (let q := aPacket 0 23 0x01 ([1#8, 1#8, 1#8, 0#8] ++ natLe 2 7 ++ natLe 2 1)
       let s := torused ptUp id
       let s : State := { s with mgmt := { s.mgmt with proxies := [⟨.tally, 5, 9, 1, 7, 23⟩] } }
       q.cls ≠ 4 ∧ q.unit = 0x01 ∧ byteField q.payload 1 1 ≠ 4
         ∧ (s.mgmt.proxies.find? (fun x => decide (x.dest = 23) && decide (x.seq = byteField q.payload 4 2)
             && decide (x.session = byteField q.payload 6 2))).isSome = true) := by decide +kernel

theorem witness_time :
    (∀ x ∈ [(0, 5), (1, 5), (2, 0xFF), (3, 0xFF), (4, 0xFF)],
      let s := at_ (torused ptUp (fun p => { p with ptp := { p.ptp with reqAt := some 3, t4 := 9 } })) [(O.timeParent, x.2), (O.timeDomain, 3)]
      let m : PtpMsg := { kind := x.1, domain := 3, seq := 0, stamp := 5, arrival := 9 }
      s.portUp 5 = true ∧ m.domain = s.rd O.timeDomain ∧ s.rd O.timeParent = x.2 ∧ m.seq = (s.tport 5).ptp.syncSeq
        ∧ m.seq = (s.tport 5).ptp.reqSeq ∧ (s.tport 5).ptp.reqAt.isSome = true ∧ (s.tport 5).ptp.t4 ≠ 0)
    ∧ (let s := at_ bed [(O.timeParent, 9), (O.tallyLinkState, 1)]
       s.rd O.tallyLinkState = 1 ∧ s.rd O.timeParent = 9 ∧ (0 : Nat) = s.rd O.timeDomain ∧ (0 : Nat) = (s.tport 9).ptp.syncSeq)
    ∧ (let s := at_ bed [(O.timeParent, 0xFF)]
       let f := put O.timeSet 5
       writes s f = true ∧ (inSession s f).rd O.timeParent = 0xFF)
    ∧ (∀ x ∈ [(0, 2), (0, 3), (1, 4)],
        let s := ({ powered (at_ bed [(O.hostLinkState, x.1)]) [0x47] with now := 2000000 } : State).modTport 8 (fun p => { p with step := x.2 })
        s.domainOn 0x47 = true ∧ s.rd O.hostLinkState < 2 ∧ (s.tport 8).step = x.2 ∧ (s.tport 8).since + trainBound x.2 ≤ s.now
          ∧ laneCount (0x3F &&& 0x20) 6 ≠ 0)
    ∧ (powered (at_ bed [(O.hostLinkState, 2)]) [0x47]).rd O.hostLinkState = 2
    ∧ bed.rd O.timeParent ≠ 9 ∧ bed.objs.wf objDefault = true
    ∧ (let s : State := { bed with mgmt := { bed.mgmt with sessions := [session, { session with id := 2, carrier := .host }] } }
       session ∈ s.mgmt.sessions ∧ (∀ d ∈ s.mgmt.sessions, d.carrier = .host → d.id ≠ session.id)
         ∧ (s.hostReset ⟨true, 1⟩).mgmt.sessions = [session] ∧ (s.hostReset ⟨false, 0⟩).rd O.hostLinkDowns = 1) := by decide +kernel

/-- The package with the last die link in a state. -/
def linked (st : Nat) (l : DieLink) : State :=
  let s := at_ { powered bed [0x31, 0x32] with now := 2000000 } [(O.slState 9, st)]
  s.setDieLink 9 l

theorem witness_die_links :
    (let l := { DieLink.fresh with step := 1 }
     let s := linked 1 l
     s.rd (O.slState 9) = 1 ∧ s.dieLink 9 = l ∧ l.claimA = none ∧ l.claimB = none ∧ l.since + dieTrainBound l.step ≤ s.now)
    ∧ (let a : DieClaim := ⟨0, 0xFE, 4⟩
       let b : DieClaim := ⟨0, 0x7F, 4⟩
       let l := { DieLink.fresh with step := 2, claimA := some a, claimB := some b, gotB := true }
       (linked 1 l).dieLink 9 = l ∧ a.epoch = b.epoch ∧ a.width = b.width ∧ a.mask &&& b.mask ≠ 0 ∧ a.width ≤ laneCount (a.mask &&& b.mask) 8)
    ∧ (let s := linked 0 { DieLink.fresh with retryAt := some 2000000 }
       (s.dieLink 9).retryAt = some 2000000 ∧ 2000000 ≤ s.now ∧ s.rd (O.slState 9) = 0 ∧ s.linkLive 9 = true)
    ∧ (let s := linked 2 DieLink.fresh
       s.rd (O.slState 9) = 2 ∧ [s.now].length < s.rd O.slRetryLimit
         ∧ (let f := put (O.slControl 9) 1; writes s f = true ∧ isSlControl f.key = true ∧ (inSession s f).rd (O.slState 9) = 2)) := by decide +kernel

/-- A block of die 0 whose frame is mapped, and a message on its way to a die. -/
def homed (msgs : List DieMsg) : State :=
  let s := at_ (powered bed [0x30, 0x33, 0x34]) [(O.slState 4, 2), (O.slState 8, 2), (O.slState 7, 2), (O.rlcEnable 3, 0)]
  let s := s.setFrame (blockFrame 21) { HFrame.free with use := 1 }
  { s with dies := { s.dies with msgs := msgs } }

theorem witness_die_protocol :
    (∀ d ∈ [3, 4],
      let s := homed []
      let sent := fun (kind : DieMsgKind) (src dst : Nat) => homed [⟨kind, src, dst, 21, none⟩]
      let next := fun (kind : DieMsgKind) (src dst : Nat) => ((sent kind src dst).nextDie kind src dst 21).isSome
      homeOf 21 = 0 ∧ s.reaches d 21 = true ∧ s.inTransit .read d 0 21 = false ∧ s.inTransit .write d 0 21 = false
        ∧ (onLink 0 (s.cache d).reads).length < 256 ∧ s.rlcOn d = false ∧ (onLink 0 (s.cache d).writes).length < 64
        ∧ (sent .read d 0).reaches d 21 = true ∧ (sent .read d 0).inTransit .read d 0 21 = true ∧ next .read d 0 = true
        ∧ (sent .write d 0).reaches d 21 = true ∧ (sent .write d 0).inTransit .write d 0 21 = true ∧ next .write d 0 = true
        ∧ next .readData 0 d = true ∧ next .writeAck 0 d = true ∧ next .invalidate 0 d = true ∧ next .invAck d 0 = true)
    ∧ (homed []).reaches 0 21 = true ∧ (homed []).diesJoined 3 4 = true
    ∧ (∀ v ∈ [0, 1], let f := put (O.rlcEnable 3) v
        writes bed f = true ∧ isRlcEnable f.key = true ∧ valueOf f = v) := by decide +kernel


/-! ### Witnesses: integrity, power and start -/

/-- Two equal tiles differ nowhere. -/
theorem differs_self (t : Tile) : tileDiffers t t = 0 := by simp [tileDiffers]

/-- A sampled MM of core 0, with its result. -/
def sampled : Recompute :=
  { owner := 0, desc := mmDesc 4 0, x := Map.empty, start := Tile.empty, since := 0,
    result := (mmRun Map.empty ⟨Map.empty, Map.empty⟩ (mmDesc 4 0) Tile.empty).1 }

/-- The package whose core 63 has that sample. -/
def sampling : State := at_ (bed.setCore 63 { Core.off with state := .halted, sample := some sampled }) [(O.dieCycles 0, 16384)]

theorem witness_recompute :
    (sampling.core 63).sample = some sampled
      ∧ tileDiffers sampled.result (tileErrors (mmRun sampled.x ⟨(sampling.core sampled.owner).mem, (sampling.bent (sampled.owner / 64)).mem⟩
          sampled.desc sampled.start).1 []) = 0
      ∧ (sampling.core 63).matrixIdle = true ∧ sampled.since + 16384 ≤ sampling.coreCycles 63 := by
  have h1 : (sampling.core sampled.owner).mem = Map.empty := by decide +kernel
  have h2 : (sampling.bent (sampled.owner / 64)).mem = Map.empty := by decide +kernel
  have h0 : Core.off ≠ { Core.off with state := .halted, sample := some sampled } := fun h => by cases congrArg Core.state h
  refine ⟨(congrArg Core.sample (core_setCore bed 63 _ h0.symm) :), ?_, by decide +kernel, by decide +kernel⟩
  rw [h1, h2]
  simp only [sampled, tileErrors, differs_self]

theorem witness_integrity :
    (let s := (framed bed 9).setFrame (frameKey 0 3) { HFrame.free with use := 1 }
     s.rd O.scrubPeriod ≠ 0 ∧ s.stackOn 0 = true ∧ s.dies.scrub.get 0 0 ≤ 3
       ∧ (let t : State := { s with dies := { s.dies with scrub := s.dies.scrub.set 0 0 4 } }
          ∀ e ∈ t.framesOf 0, e.2.use = 1 → e.1 < t.dies.scrub.get 0 0))
    ∧ (powered bed [47, 0x3F]).bentOn 47 = true ∧ (powered bed [47, 0x3F]).stackOn 11 = true
    ∧ susKind (suspectId 0 susStack 11) = susStack ∧ susUnit (suspectId 0 susStack 11) = 11
    ∧ (let s : State := { slotted bed 3 { Slot.unused with stopDue := some 9 } with now := 9 }
       s.rd O.drainState = 0 ∧ s.overdueSlots ≠ []) := by decide +kernel

/-- A record of the fault log. -/
def aRecord : Bytes :=
  let b := [1#8, 5#8] ++ List.replicate 58 0#8
  b ++ natLe 4 (crc32c b).toNat

/-- A FAULT_REPORT of another package with that record. -/
def reported : Frame :=
  Frame.seal { carrier := .torus, slot := 0, carried := 0, version := 1, kind := 4, command := 0, status := 0, seq := 1, session := 0, source := 9,
               dest := 0, index := keyIndex O.faultReport, sub := keySub O.faultReport, flags := 1, offset := 0, length := 64, payload := aRecord,
               check := 0#32 }

theorem witness_report_intact : reported.intact = true := seal_intact _ (by decide +kernel)

theorem witness_reports :
    (bed.served = true ∧ bed.walk = false ∧ reported.carrier = .torus ∧ reported.version = 1 ∧ reported.kind = 4 ∧ reported.session = 0
      ∧ reported.dest = bed.node.id ∧ reported.key = O.faultReport ∧ recordGood reported.body = true)
    ∧ (∀ parent ∈ [0xFFFF, 5],
        let p : Report := ⟨aRecord, 0, 0⟩
        let s := at_ { bed with now := 100000000, faults := { bed.faults with reports := [p] } } [(O.faultParent, parent)]
        s.faults.reports.find? (fun p => decide (recSuspect p.record = 0) && decide (recClass p.record = 5) && decide (recStep p.record = 0)) = some p
          ∧ s.reportDue p = true ∧ s.rd O.faultParent = parent) := by decide +kernel

/-- The package with a domain in a state for a second. -/
def domained (d st : Nat) : State :=
  { at_ (powered bed [0x30, 0x31, 0x32, 0x33, 0x46]) [(O.domainState d, st)] with now := 10000000 }

theorem witness_domains :
    (∀ x ∈ [(0x4C, 1, domOff), (47, 1, domOff), (47, 1, domOn), (47, 2, domOn), (0x4C, 2, domOn)],
      let s := domained x.1 x.2.2
      let f := put (O.domainControl x.1) x.2.1
      let t := inSession s f
      writes s f = true ∧ isDomainControl f.key = true ∧ keySub f.key - 1 = x.1 ∧ t.domainResets x.1 = false ∧ t.rd (O.domainPending x.1) = 0
        ∧ valueOf f = x.2.1 ∧ t.judged x.1 = x.2.2 ∧ t.mayEnable x.1 = true ∧ t.disableRefused x.1 = false)
    ∧ (let f := put (O.dieControl 3) 1
       let t := inSession (domained 3 domOff) f
       writes (domained 3 domOff) f = true ∧ isDieControl f.key = true ∧ keySub f.key - 1 = 3 ∧ t.domainOn 0x33 = true
         ∧ t.start.dieResets.contains 3 = false ∧ t.dieInUse 3 = false)
    ∧ (∀ st ∈ [domUp, domDown],
        let s := domained 47 st
        s.domain 47 = st ∧ s.upReady 47 = true ∧ s.elapsed (s.start.domSince.get 0 47) (upBound 47) = true
          ∧ ((((s.wr (O.domainState 47) domOn).add (O.domainTransitions 47) 1).cameOn 47).complete (.domain 47 true) stOk).rd (O.domainPending 47) = 0
          ∧ (((s.wr (O.domainState 47) domOff).add (O.domainTransitions 47) 1).complete (.domain 47 false) stOk).rd (O.domainPending 47) = 0) := by
  decide +kernel

/-- A package in a phase. -/
def phased (p : Phase) : State := { bed with start := { bed.start with phase := p } }

theorem witness_start :
    (∀ n ∈ [4, 6, 9],
      let s := at_ (phased (.step n)) (allLinks.map (fun l => (O.slState l, 2)))
      s.start.phase = .step n ∧ s.elapsed s.start.stepSince (stepBound n) = false ∧ (∀ l ∈ allLinks, s.rd (O.slState l) = 2))
    ∧ (∀ x ∈ [(2, 0), (3, 1), (9, 2)],
        let s : State := { at_ (phased (.step x.1)) [(O.falseStarts, x.2)] with now := 1000000000 }
        s.start.phase = .step x.1 ∧ s.elapsed s.start.stepSince (stepBound x.1) = true
          ∧ (((s.resetTo 5 (.step 2) true).wr O.lastFalseStartStep x.1).add O.falseStarts 1).rd O.falseStarts = x.2 + 1)
    ∧ (let f := put O.startControl 1
       writes bed f = true ∧ valueOf f = 1 ∧ bed.start.phase = .ready)
    ∧ (let f := put O.startControl 2
       writes (phased .walk) f = true ∧ valueOf f = 2 ∧ (inSession (phased .walk) f).walk = true)
    ∧ (∀ v ∈ [1, 2, 3, 4], let f := put O.bootSlotControl v
        writes bed f = true ∧ valueOf f = v ∧ (inSession bed f).rd O.bootSlotUsed ≠ 0 ∧ (inSession bed f).rd O.bootSlotUsed ≠ 1)
    ∧ (∀ k ∈ [O.bootImageA, O.bootImageB],
        let f := whole k 67108863 [1#8]
        let n := if f.key = O.bootImageA then 0 else 1
        let t := inSession bed f
        writesWhole bed f = true ∧ isBootImage f.key = true ∧ t.rd O.bootSlotUsed ≠ n ∧ t.slotStatus n ≠ slotValid ∧ t.slotStatus n ≠ slotInvalid
          ∧ (t.imageSlot n).written = []) := by decide +kernel

theorem witness_inputs :
    (∀ cause ∈ [1, 3],
      let s := at_ { bed with start := { bed.start with phase := .held, rstN := false } } [(O.lastResetCause, cause)]
      s.start.inputInRange = true ∧ s.start.rstN = false ∧ s.start.phase = .held ∧ s.rd O.lastResetCause = cause)
    ∧ (let s := State.reset
     s.pwrFree = true ∧ s.start.pwrEn = false ∧ s.start.tripHold = false ∧ s.start.phase = .off)
    ∧ (bed.pwrFree = true ∧ bed.start.pwrEn = true ∧ bed.start.phase ≠ .off ∧ bed.start.inputInRange = true ∧ bed.start.rstN = true)
    ∧ (let s : State := { bed with start := { bed.start with pwrSince := some 0 } }
       s.pwrFree = false)
    ∧ bed.start.tripHold = false ∧ tripPoint 4 ≤ 115000 ∧ tripPoint 5 ≤ 105000 ∧ tripPoint 16 ≤ 105000
    ∧ (let s : State := { bed with start := { bed.start with tripHold := true, pwrLowSince := true, inputInRange := false } }
       s.start.inputInRange = false ∧ s.start.tripHold = true ∧ s.start.pwrLowSince = true)
    ∧ bed.served = true := by decide +kernel
/-! ### Ill-formed commands are refused -/

/-- A well-formed frame. -/
def wfFrame : Frame := req cmdRead O.generation 0 []

theorem test_wf_frame : wfFrame.wf = true ∧ ∀ f ∈ ([
    { wfFrame with slot := 16 }, { wfFrame with version := 256 }, { wfFrame with kind := 256 }, { wfFrame with command := 256 },
    { wfFrame with status := 256 }, { wfFrame with seq := 65536 }, { wfFrame with session := 65536 }, { wfFrame with source := 65536 },
    { wfFrame with dest := 65536 }, { wfFrame with index := 65536 }, { wfFrame with sub := 256 }, { wfFrame with flags := 256 },
    { wfFrame with offset := 2 ^ 32 }, { wfFrame with length := 65536 }, { wfFrame with length := 4, carried := 32 },
    { wfFrame with ether := { tallyWire with dst := 2 ^ 48 } }, { wfFrame with ether := { tallyWire with src := 2 ^ 48 } },
    { wfFrame with ether := { tallyWire with tag := some 65536 } }, { wfFrame with ether := { tallyWire with type := 65536 } }] : List Frame), f.wf = false := by decide +kernel

/-- The commands that carry a frame. -/
def frameCommands : List (Frame → Instr) :=
  [
    .read, .write, .readDomain, .writeDomain, .subscribe, .unsubscribe, .openSession, .closeSession, .serviceWrite, .proxyResponse, .restoreStored,
    .counterClear, .coreStart, .coreStop, .coreReset, .coreMemoryWrite, .coreFpStatusWrite, .rngSeedWrite, .queueCreate, .queueClose, .queueReopen,
    .queueDelete, .endpointTableWrite, .arm, .run, .stageStop, .disarm, .relayOpen, .relayClose, .laneOpen, .laneClose, .laneReopen, .laneDelete,
    .allocMap, .allocUnmap, .vsFetch, .resume, .resolveCommit, .resolveAbort, .commitParentWrite] ++ [
    .reshard, .reshardCancel, .activate, .deactivate, .declare, .retract, .dataStart, .dataStop, .clearClips, .portEnable, .portDisable,
    .portRetrain, .clearHold, .timeSet, .slRetrain, .rlcEnableWrite, .drain, .undrain, .faultReport, .restart, .clearFalseStarts, .domainEnable,
    .domainDisable, .dieReset, .eraseA, .eraseB, .verifyA, .verifyB, .bootImageWrite, .counterFreeze, .counterPreset, .overflowClear, .counterSelect,
    .tagSeed]

theorem test_wf_requests :
    ∀ i ∈ frameCommands, (i wfFrame).wellFormed = true ∧ (i { wfFrame with slot := 16 }).wellFormed = false := by decide +kernel

/-- The commands that name a core (R14). -/
def coreCommands : List (Nat → Instr) :=
  [
    .nop, .halt, .wait, .signal, .fence, .loop, .branchFlag, .branchX, .xop, .descriptorRetire, .coreWaiting, .moveLocal, .moveBent, .movePeer, .mm,
    .chainLoad, .chainTransfer, .tileClear, .tileStore, .tileStat, .vadd, .vsub, .vmul, .vfma, .vmin, .vmax, .vminnum, .vmaxnum, .vneg, .vabs,
    .vcopysign, .vcmp] ++ [
    .vsel, .vlogic, .vlaneid, .vcvti, .vpack, .vunpack, .vquant, .vload, .vstore, .vexp2, .vlog2, .vrcp, .vrsqrt, .vtanh, .vreduce, .vnormStats,
    .vsoftmax, .vlseUpdate, .vsoftmaxApply, .vlseFinal, .rngCtx, .vrand, .vdropout, .send, .recv, .contribute, .probe, .chWaitTimeout,
    .ringWaitTimeout, (fun c => .watchdog c 0), (fun c => .moveTensor c []), (fun c => .recomputeRun c []), (fun c => .recomputeForce c [])]

theorem test_wf_cores : ∀ i ∈ coreCommands, (i 3071).wellFormed = true ∧ (i 3072).wellFormed = false := by decide +kernel

/-- A well-formed record of an identity. -/
def wfRecord : IdRecord := { identified 1 13 with serial := List.replicate 16 0#8 }

/-- The commands that name another unit or a field, with the first number that does not exist. -/
def unitCommands : List ((Nat → Instr) × Nat) :=
  [
    (.sessionIdleTimeout, 65536), (.rspTake, 65536), (.evtTake, 65536), (.pacerDecide, 16), (.workItemComplete, 16), (.stageDeadline, 16),
    (.epochRefusal, 32), (.rcHopTimeout, 32), (.relayRemoteClose, 32), (.lightDetect, 6), (.beaconSend, 6), (.trainStepTimeout, 6),
    (.helloTimeout, 6), (.holdExpiry, 6), (.ptpSend, 6), (.holdBaseRestore, 6), (.keepalive, 16384), (.remotePartnerTimeout, 16384),
    (.dieTrainTimeout, 10), (.dieTrainRetry, 10), (.powerUpComplete, 80), (.powerDownComplete, 80), (.powerUpTimeout, 80), (.glitchFiltered, 4),
    ((fun n => .laneSend n false), 16), ((fun n => .optimizerLayerUpdate n 0), 16), ((.optimizerLayerUpdate 0), 128),
    ((fun n => .vsFetchDone n fetched), 16), ((fun n => .lanePeerOpen n 0 0 0 0 0), 64), ((fun n => .batonReceive n [] []), 64),
    ((fun n => .relayOpenRequest n 0 0 0 0), 16384), ((fun n => .relayOpenRequest 0 n 0 0 0), 32), ((fun n => .relayOpenRequest 0 0 n 0 0), 32),
    ((fun n => .writeDomainTimeout n 0), 65536), ((.writeDomainTimeout 0), 65536), ((fun n => .eventSend n 0 0), 65536),
    ((fun n => .eventSend 0 n 0), 65536), ((.eventSend 0 0), 256), ((.reqPost []), 65536), ((fun n => .reductionPacket n ⟨[], 0, [], []⟩), 32),
    ((fun n => .ringBlock n ⟨0, 0, 0, 0, 0, 0, 0, Map.empty, true⟩), 16), ((fun n => .ingestFrame n []), 2)] ++ [
    ((fun n => .rdmaTimeout n 0), 2), ((.rdmaTimeout 0), 64), ((fun n => .rateRecovery n 0), 2), ((.rateRecovery 0), 64),
    ((fun n => .ingestLinkChange n true), 2), ((fun n => .hello n wfRecord), 6), ((fun n => .identity n wfRecord), 6),
    ((fun n => .identityUpdate n wfRecord), 6), ((fun n => .lightLoss n 0), 6), ((fun n => .flit n (aFlit true 1 0)), 6), ((fun n => .nak n 0), 6),
    ((.nak 0), 65536), ((fun n => .packet n 0 ⟨0, 0, 0, 0, 0, 0, 0, 0, []⟩), 6), ((fun n => .lineNotice n 0 0 true 0), 6),
    ((fun n => .lineNotice 0 n 0 true 0), 3), ((fun n => .lineNotice 0 0 n true 0), 32), ((fun n => .flowReset n 0), 16384), ((.flowReset 0), 8),
    ((fun n => .routeRejoin n 0), 3), ((.routeRejoin 0), 32), ((fun n => .ptpMessage n ⟨0, 0, 0, 0, 0⟩), 6),
    ((fun n => .torusTrainingStepDone n 0 0), 6), ((fun n => .claim n false 0 0 0), 10), ((fun n => .claim 0 false 0 n 0), 256),
    ((fun n => .scarfFlit n true), 10), ((fun n => .dieLinkTestDone n false 0 0), 10), ((fun n => .dieLinkTestDone 0 false n 0), 256),
    ((fun n => .dieRead n 0), 5), ((fun n => .dieWrite n 0 Map.empty), 5), ((fun n => .readData n 0), 5), ((fun n => .invalidate n 0), 4),
    ((fun n => .invAck n 0), 4), ((fun n => .writeAck n 0), 5), ((fun n => .intMessage n 0 0), 4), ((fun n => .intMessage 0 n 0), 65536),
    ((.intMessage 0 0), 256), ((fun n => .scrubRead n []), 12), ((fun n => .bentTimeout n 0), 48), ((fun n => .dieTimeout n 0), 4),
    ((fun n => .thermalTrip n 0), 17), ((fun n => .requestDeferred n 0), 65536), ((.requestDeferred 0), 65536), ((fun n => .packet 0 n ⟨0, 0, 0, 0, 0, 0, 0, 0, []⟩), 2),
    ((fun n => .packet 0 n ⟨0, 0, 4, 0, 0, 0, 0, 0, []⟩), 3), ((fun n => .packet 0 0 ⟨0, 0, n, 0, 0, 0, 0, 0, []⟩), 5),
    ((fun n => .counterWrap 0 n 0), 3072), ((.counterWrap 0 0), 4), ((fun n => .counterWrap 1 n 0), 48), ((.counterWrap 1 0), 8),
    ((fun n => .counterWrap 2 n 0), 1), ((.counterWrap 2 0), 32), ((fun n => .counterWrap n 0 0), 3)]

theorem test_wf_units : ∀ i ∈ unitCommands, (i.1 (i.2 - 1)).wellFormed = true ∧ (i.1 i.2).wellFormed = false := by decide +kernel

theorem test_wf_pins :
    (∀ p ∈ [0, 1, 4], (Instr.bootSelAccepted p true).wellFormed = false) ∧ (∀ p ∈ [2, 3], (Instr.bootSelAccepted p true).wellFormed = true)
    ∧ (Instr.ptpMessage 9 ⟨0, 0, 0, 0, 0⟩).wellFormed = true ∧ (Instr.torusTrainingStepDone 8 0 0).wellFormed = true
    ∧ (Instr.trainStepTimeout 8).wellFormed = true
    ∧ (∀ c ∈ ([⟨true, false, [], 127, 128⟩, ⟨true, false, [], 513, 128⟩, ⟨true, false, [], 128, 4097⟩] : List HostConfig),
        (Instr.hostLinkUp ⟨0, c⟩).wellFormed = false)
    ∧ (Instr.hostLinkUp ⟨0, HostConfig.reset⟩).wellFormed = true
    ∧ (Instr.reqPost [{ wfFrame with slot := 16 }] 0).wellFormed = false := by decide +kernel

theorem test_wf_commit_messages :
    (∀ i ∈ ([.readyToken, .fail, .commit, .abort, .query, .resumeMessage] : List (CommitMsg → Instr)),
      (i (tells cmReady 0)).wellFormed = true ∧ (i { tells cmReady 0 with format := 256 }).wellFormed = false)
    ∧ ∀ m ∈ ([
      { tells cmReady 0 with format := 256 }, { tells cmReady 0 with type := 256 }, { tells cmReady 0 with action := 256 },
      { tells cmReady 0 with attempt := 256 }, { tells cmReady 0 with step := 4294967296 }, { tells cmReady 0 with jobTag := 4294967296 },
      { tells cmReady 0 with sender := 65536 }, { tells cmReady 0 with firstFail := 65536 }, { tells cmReady 0 with reporters := 4294967296 },
      { tells cmReady 0 with reason := 256 }] : List CommitMsg), m.wf = false := by decide +kernel

theorem test_wf_identity_records :
    wfRecord.wf = true ∧ ∀ r ∈ ([
      { wfRecord with format := 256 }, { wfRecord with kind := 256 }, { wfRecord with packageId := 65536 }, { wfRecord with port := 256 },
      { wfRecord with generation := 256 }, { wfRecord with compute := 256 }, { wfRecord with iod := 256 }, { wfRecord with dimX := 256 },
      { wfRecord with dimY := 256 }, { wfRecord with dimZ := 256 }, { wfRecord with iflags := 256 }, { wfRecord with lanes := 65536 },
      { wfRecord with serial := [] }, { wfRecord with digest := 4294967296 }, { wfRecord with revision := 4294967296 },
      { wfRecord with jobTag := 4294967296 }, { wfRecord with lineDown := 4294967296 }] : List IdRecord), r.wf = false := by decide +kernel

/-! ### The manual's worked examples -/

/-- The block of Table 4.13 in K8 with block size 32, under RNE: scale 0x81, codes 0x78, 0x3E, 0x9A, 0x00; UNDERFLOW and INEXACT. -/
theorem test_k8_block :
    (convOf 0x380).map (fun c => convertRun c ([0x447A0000#32, 0x40E00000#32, 0xBE99999A#32, 0x3A83126F#32].map f32 ++ List.replicate 28 (f32 0#32))
      (List.replicate 32 .rne))
    = some ([0x78#8, 0x3E#8, 0x9A#8] ++ List.replicate 29 0#8, [0x81#8], 3) := by decide +kernel

/-- The same element -0.3 with SR rounds up at random bits 0x9C40 and down at 0x1F40 (after Table 4.13). -/
theorem test_k8_stochastic :
    (convOf 0x388).map (fun c => [0x9C40, 0x1F40].map (fun r => ((convertRun c ([0x447A0000#32, 0xBE99999A#32].map f32 ++ List.replicate 30 (f32 0#32))
      (List.replicate 32 (.sr r))).1.drop 1).head?)) = some [some 0x9A#8, some 0x99#8] := by decide +kernel

/-- The LOOP of Table 5.15: its bytes, and its target from 0x1100. -/
theorem test_loop_encoding :
    descr 5 [(6, 2, 4), (8, 1, 0x83), (12, 4, 0xFFFFFFFD)]
      = [5#8, 0#8, 0#8, 0#8, 0#8, 0#8, 4#8, 0#8, 0x83#8, 0#8, 0#8, 0#8, 0xFD#8, 0xFF#8, 0xFF#8, 0xFF#8] ++ List.replicate 48 0#8
    ∧ jumpTo 0x1100 (descr 5 [(6, 2, 4), (8, 1, 0x83), (12, 4, 0xFFFFFFFD)]) = 0x1040 := by decide +kernel

/-- The configuration of the queue in the example of chapter 08: its fields and its storage. -/
theorem test_queue_config :
    let w := 0x4000604004004000
    qKind w = 1 ∧ qReturn w = false ∧ qArrival w = false ∧ qReader w = 0 ∧ qSenders w = 3 ∧ qDepth w = 2 ∧ qMsgMax w = 1 ∧ qBase w = 0x4000
      ∧ qStorage w = 640 ∧ nameQueue 0x01230305 = 64 * 3 + 5 ∧ namePkg 0x01230305 = 0x0123 := by decide +kernel

/-- The fuses of Table 2.10. -/
def fourSpares : Fuses := { State.reset.fuses with masks := [0x3F, 0x3F, 0x3F, 0x3F, 0x0D], spares := [4, 11, 0, 12] }

/-- Tables 2.10 and 2.11: physical Bents and the effective mask. -/
theorem test_cut_list :
    [4, 23, 24, 47].map (physicalBent fourSpares) = [5, 12, 1, 11] ∧ effectiveMaskOf fourSpares = 0x0D := by decide +kernel

/-- The first update of chapter 10: master weight and moments. -/
theorem test_first_update :
    let o : OptRec := { b1 := 0x3F600000#32, b2 := 0x3F7FC000#32, eps := 0x2B800000#32, decay := none, lrs := 0x3FC00000#32, s := 19,
                        bc1 := 0x41000000#32, bc2 := 0x44800000#32 }
    splitLr 0x36400000#32 = (19, 0x3FC00000#32) ∧ optStep o 0x3F800000#32 0x3D800000#32 0#32 0#32 = (0x3F7FFFD0#32, 0x3C000000#32, 0x36800000#32) := by
  decide +kernel

/-- Table 15.7: what the ends claim, and the common modules. -/
theorem test_die_claims :
    claimWidth 0xDF 8 = 4 ∧ claimWidth 0xFF 8 = 8 ∧ claimWidth 0xFF 4 = 4 ∧ claimWidth 0x83 4 = 2
      ∧ lowestModules (0xDF &&& 0xFF) 4 = 0x0F ∧ lowestModules (0x83 &&& 0xDF) 1 = 0x01 := by decide +kernel

/-- Table 17.11: a DISABLE of a block that is ON is DEFERRED, and the ENABLE that follows waits for it. -/
theorem test_domain_requests :
    let s := at_ (powered bed [0x46, 0x4D]) []
    let status := fun (o : Host.Outcome State Fault Refusal) => match o with
      | .next t => (t.out.getLast?.map (fun m => match m with | .frame _ _ f => f.status | _ => 0), t.domain 0x4D, t.rd (O.domainPending 0x4D))
      | _ => (none, 0, 0)
    let off := put (O.domainControl 0x4D) 2
    let on := Frame.seal { put (O.domainControl 0x4D) 1 with seq := 8 }
    status (exec (.domainDisable off) s) = (some stDeferred, domDown, 0)
      ∧ (match exec (.domainDisable off) s with
         | .next t => decide (status (exec (.domainEnable on) t) = (some stDeferred, domDown, 1))
         | _ => false) = true := by decide +kernel

/-- Defaults of the tables of chapters 09, 13 and 16. -/
theorem test_defaults :
    [O.stageTimeBase 15, O.stageTimePerToken 0, O.candRingPages, O.ingestRingPages, O.sessionIdleLimit, O.pipeMaxTokens, O.laneDepth 63].map State.reset.rd
      = [500000, 1000, 65536, 4096, 60, 0, 1] := by decide +kernel

/-- A command for a core that does not exist faults; an empty queue lets a microsecond pass. -/
theorem test_step :
    step { bed with pending := [.nop 3072] } = .fault .noSuchUnit ∧ (match step bed with | .next t => t.now | _ => 0) = bed.now + 1 := by
  refine ⟨rfl, ?_⟩
  decide +kernel
/-- A vector register of 64 words. -/
def lanes (l : List Nat) : BitVec 2048 := BitVec.ofNat 2048 (leNat (l.flatMap (natLe 4)))

/-- Tables 7.8 and 7.9: the softmax of four rows, its states and its empty rows. -/
theorem test_softmax :
    let z := List.replicate 12 0
    let v1 := [0x40400000, 0x3F800000, 0x3F800000, 0x40000000] ++ z ++ [0x7F800000] ++ List.replicate 15 0
      ++ [0x7F800000, 0x7F800000, 0x40A00000, 0x7FC00000] ++ z ++ [0x3F800000, 0x7FC00000] ++ List.replicate 14 0
    let v2 := (natsFrom 0 64).map (fun i => if i ∈ [0, 1, 2, 3, 32, 33, 34, 48, 49] then 0xFFFFFFFF else 0)
    let v4 := [0x3F000000, 0x3E000000, 0x3E000000, 0x3E800000] ++ z ++ List.replicate 16 0 ++ [0x3F000000, 0x3F000000] ++ List.replicate 14 0
      ++ List.replicate 16 0x7FC00000
    let v5 := List.replicate 16 0x40800000 ++ List.replicate 16 0xFF800000 ++ List.replicate 16 0x7F800000 ++ List.replicate 16 0x7FC00000
    let d := descr 0x4C [(8, 1, 4), (9, 1, 0x85), (10, 2, 1), (16, 4, 0x3F800000), (24, 1, 1), (25, 1, 4), (26, 1, 0x82), (27, 1, 0x86)]
    let k := { runs d with v := (Map.empty.set 0#2048 1 (lanes v1)).set 0#2048 2 (lanes v2) }
    (match exec (.vsoftmax 0) (withCore k) with
     | .next t => decide ((t.core 0).v.get 0#2048 4 = lanes v4) && decide ((t.core 0).v.get 0#2048 5 = lanes v5)
         && decide ((t.core 0).x.get 0#64 6 = 2#64)
     | _ => false) = true := by decide +kernel

/-- The worked example of the network chapter: where a relay packet of package (30, 5, 3) for (2, 20, 14) goes in a torus of 32 x 32 x 16 (R370). -/
theorem test_route :
    let ups := (natsFrom 0 6).map (fun n => (O.portLinkState n, ptUp))
    let hop := fun (p flags : Nat) (came : Option (Nat × Nat)) => (at_ { bed with node := ⟨p, 32, 32, 16⟩ } ups).orderedHop 14978 2 flags came
    hop 3262 0 none = some ⟨0, 0, 4⟩
      ∧ hop 3263 4 (some (1, 0)) = some ⟨0, 0, 4⟩
      ∧ hop 3232 4 (some (1, 0)) = some ⟨0, 1, 4⟩
      ∧ hop 3234 4 (some (1, 1)) = some ⟨2, 0, 4⟩
      ∧ hop 642 8 (some (4, 0)) = some ⟨5, 0, 8⟩
      ∧ hop 16002 8 (some (4, 0)) = some ⟨5, 1, 8⟩
      ∧ (at_ { bed with node := ⟨3262, 32, 32, 16⟩ } ((O.ringDownX, 0x80000000) :: ups)).orderedHop 14978 2 0 none = some ⟨1, 0, 8⟩ := by
  decide +kernel

/-- Table 12.5: mode 0x00 forwards, mode 0x01 leaves the outgoing hops to the program. -/
theorem test_ring_modes :
    [bed, at_ bed [(O.ringFMode 0, 1)], at_ bed [(O.ringBMode 0, 1)]].map (fun s => (s.ringForwards 0 1, s.ringForwards 0 2))
      = [(true, true), (false, true), (true, false)] := by decide +kernel

end Sys2Proof.Tests
end

section
/-! O11: what a WRITE comes to (R50, R51). The work that waits in a package is named by a few objects and parts of the state; the course of a
request leaves these alone, so a WRITE that only stores a value leaves a quiet package quiet. -/

namespace Sys2Proof

/-- Writing one key leaves every other key, whatever the two keys read as unlisted. -/
theorem Map.find_put_of_ne {α : Type} [DecidableEq α] (d d' v : α) {k j : Nat} (h : j ≠ k) :
    ∀ l, Map.find d' j (Map.put d k v l) = Map.find d' j l
  | [] => by simp only [Map.put]; split <;> simp [Map.find, Ne.symm h]
  | (i, w) :: r => by
    have ih := Map.find_put_of_ne d d' v h r
    simp only [Map.put]
    split
    · split <;> simp [Map.find, Ne.symm h]
    · split
      · subst i; split <;> simp [Map.find, Ne.symm h]
      · simp [Map.find, ih]

namespace Machine

/-- Writing one object leaves the value of every other. -/
theorem State.rd_wr_of_ne (s : State) (v : Nat) {k j : Nat} (h : j ≠ k) : (s.wr k v).rd j = s.rd j :=
  Map.find_put_of_ne _ _ v h s.objs.entries

/-! ### The work that waits -/

/-- The objects that tell whether work waits: the states of the drain, of the step and of the slots, and the slots of the channels. -/
def waitKeys : List Nat := O.drainState :: O.stepState :: (allSlots.map O.stageState ++ (natsFrom 0 32).map O.rcSlot)

/-- Where the objects of `waitKeys` lie. -/
theorem waitKeys_range {k : Nat} (h : k ∈ waitKeys) : 0x400000 ≤ k ∧ k / 256 < 0x9031 ∧ k / 256 ≠ 0x9020 ∧ k % 256 < 3 := by
  have hall : ∀ j ∈ waitKeys, 0x400000 ≤ j ∧ j / 256 < 0x9031 ∧ j / 256 ≠ 0x9020 ∧ j % 256 < 3 := by decide
  exact hall k h

/-- A state in which the same work waits, in the same phase of the start. -/
structure SameWork (s t : State) : Prop where
  start : t.start = s.start
  cores : t.cores = s.cores
  commit : t.commit = s.commit
  data : t.data = s.data
  rd : ∀ k ∈ waitKeys, t.rd k = s.rd k

namespace SameWork

theorem refl (s : State) : SameWork s s := ⟨rfl, rfl, rfl, rfl, fun _ _ => rfl⟩

theorem trans {s t u : State} (h : SameWork s t) (g : SameWork t u) : SameWork s u :=
  ⟨g.start.trans h.start, g.cores.trans h.cores, g.commit.trans h.commit, g.data.trans h.data,
    fun k hk => (g.rd k hk).trans (h.rd k hk)⟩

theorem each {α : Type} (f : State → α → State) (h : ∀ s a, SameWork s (f s a)) :
    ∀ (l : List α) (s : State), SameWork s (State.each f s l)
  | [], s => refl s
  | a :: l, s => (h s a).trans (each f h l (f s a))

theorem quiet {s t : State} (h : SameWork s t) : t.quiet = s.quiet := by
  have hdrain : t.rd O.drainState = s.rd O.drainState := h.rd _ (by simp [waitKeys])
  have hstep : t.rd O.stepState = s.rd O.stepState := h.rd _ (by simp [waitKeys])
  have hstage : ∀ i ∈ allSlots, t.stage i = s.stage i := fun i hi =>
    h.rd _ (by simp only [waitKeys, List.mem_cons, List.mem_append]; exact .inr (.inr (.inl (List.mem_map_of_mem hi))))
  have hslot : ∀ c ∈ natsFrom 0 32, t.rd (O.rcSlot c) = s.rd (O.rcSlot c) := fun c hc =>
    h.rd _ (by simp only [waitKeys, List.mem_cons, List.mem_append]; exact .inr (.inr (.inr (List.mem_map_of_mem hc))))
  have hstages : allSlots.all (fun i => decide (t.stage i ≠ 3)) = allSlots.all (fun i => decide (s.stage i ≠ 3)) := by
    rw [Bool.eq_iff_iff, List.all_eq_true, List.all_eq_true]
    exact forall₂_congr fun i hi => by rw [hstage i hi]
  have hslots : (natsFrom 0 32).all (fun c => decide (16 ≤ t.rd (O.rcSlot c))) = (natsFrom 0 32).all (fun c => decide (16 ≤ s.rd (O.rcSlot c))) := by
    rw [Bool.eq_iff_iff, List.all_eq_true, List.all_eq_true]
    exact forall₂_congr fun c hc => by rw [hslot c hc]
  simp only [State.quiet, State.unitsIdle, h.cores, h.commit, h.data, hdrain, hstep, hstages, hslots]

end SameWork

/-! ### Objects -/

theorem sameWork_wr (s : State) {k : Nat} (v : Nat) (h : k ∉ waitKeys) : SameWork s (s.wr k v) :=
  ⟨rfl, rfl, rfl, rfl, fun _ hj => s.rd_wr_of_ne v (fun he => h (he ▸ hj))⟩

theorem sameWork_add (s : State) {k : Nat} (n : Nat) (h : k ∉ waitKeys) : SameWork s (s.add k n) := sameWork_wr s _ h

theorem kpcValue_not_wait (j : Nat) : O.kpcValue j ∉ waitKeys := fun h => by
  have hrange := waitKeys_range h
  simp only [O.kpcValue] at hrange
  omega

theorem flitsSent_not_wait (n : Nat) : O.flitsSent n ∉ waitKeys := fun h => by
  have hrange := waitKeys_range h
  simp only [O.flitsSent] at hrange
  omega

theorem sameWork_bump (s : State) {value overflow : Nat} (bit n : Nat) (hv : value ∉ waitKeys) (ho : overflow ∉ waitKeys) :
    SameWork s (s.bump value overflow bit n) := by
  unfold State.bump
  dsimp only
  split
  · exact sameWork_wr s _ hv
  · exact (sameWork_wr s _ hv).trans (sameWork_wr _ _ ho)

theorem sameWork_kpc (s : State) (event unit n : Nat) : SameWork s (s.kpc event unit n) := by
  unfold State.kpc
  split
  · exact .refl s
  · refine .each _ (fun t j => ?_) _ s
    dsimp only
    split
    · exact sameWork_bump t _ _ (kpcValue_not_wait j) (by decide)
    · exact .refl t

/-! ### Frames and packets -/

theorem sameWork_put (s : State) (o : Output) : SameWork s (s.put o) := ⟨rfl, rfl, rfl, rfl, fun _ _ => rfl⟩

theorem sameWork_mgmt (s : State) (m : Mgmt) : SameWork s { s with mgmt := m } := ⟨rfl, rfl, rfl, rfl, fun _ _ => rfl⟩

theorem sameWork_torus (s : State) (p : Torus) : SameWork s { s with torus := p } := ⟨rfl, rfl, rfl, rfl, fun _ _ => rfl⟩

theorem sameWork_putFlit (s : State) (n kind vc seq : Nat) (b : Bytes) : SameWork s (s.putFlit n kind vc seq b) :=
  (sameWork_torus s _).trans (sameWork_put _ _)

theorem sameWork_sendFlit (s : State) (n kind vc : Nat) (b : Bytes) : SameWork s (s.sendFlit n kind vc b) :=
  (((sameWork_torus s _).trans (sameWork_putFlit _ _ _ _ _ _)).trans (sameWork_add _ _ (flitsSent_not_wait n))).trans (sameWork_kpc _ _ _ _)

theorem sameWork_freeFlits (s : State) (n v k : Nat) : SameWork s (s.freeFlits n v k) := by
  unfold State.freeFlits
  dsimp only
  split
  · exact .refl s
  · exact sameWork_torus s _

theorem sameWork_sendNext {s t : State} {n : Nat} (h : s.sendNext n = some t) : SameWork s t := by
  unfold State.sendNext at h
  dsimp only at h
  split at h
  · cases h
  · split at h
    · cases h; exact (sameWork_torus s _).trans (sameWork_sendFlit _ _ _ _ _)
    · cases h
    · split at h
      · cases h
      · cases h
        split
        · exact ((sameWork_torus s _).trans (sameWork_sendFlit _ _ _ _ _)).trans (sameWork_freeFlits _ _ _ _)
        · exact (sameWork_torus s _).trans (sameWork_sendFlit _ _ _ _ _)

theorem sameWork_pumpTimes (n k : Nat) : ∀ s : State, SameWork s (s.pumpTimes n k) := by
  induction k with
  | zero => exact .refl
  | succ k ih =>
    intro s
    simp only [State.pumpTimes]
    cases h : s.sendNext n with
    | none => exact .refl s
    | some t => exact (sameWork_sendNext h).trans (ih t)

theorem sameWork_launch (s : State) (h : Hop) (p : Packet) : SameWork s (s.launch h p) :=
  ((sameWork_put s _).trans (sameWork_torus _ _)).trans (sameWork_pumpTimes _ _ _)

theorem sameWork_flowed (s : State) (p : Packet) : SameWork s (s.flowed p).2 := by
  unfold State.flowed
  dsimp only
  split
  · exact sameWork_torus s _
  · exact (sameWork_torus s _).trans (sameWork_torus _ _)

theorem sameWork_nextHop (s : State) (source dest cls pflags : Nat) (arrived : Option (Nat × Nat)) :
    SameWork s (s.nextHop source dest cls pflags arrived).2 := by
  have hcount : SameWork s (s.add O.escapeHops 1) := sameWork_add s 1 (by decide)
  have hfree : SameWork s s.free.2 := ⟨rfl, rfl, rfl, rfl, fun _ _ => rfl⟩
  unfold State.nextHop
  dsimp only
  split
  · split
    · dsimp only
      split
      · exact hcount
      · exact .refl s
    · exact .refl s
    · exact hfree
  · dsimp only
    split
    · exact hcount
    · exact .refl s

theorem sameWork_sendPacket (s : State) (p : Packet) : SameWork s (s.sendPacket p) := by
  have hhop := (sameWork_flowed s p).trans
    (sameWork_nextHop (s.flowed p).2 (s.flowed p).2.node.id (s.flowed p).1.dest (s.flowed p).1.cls (s.flowed p).1.pflags none)
  unfold State.sendPacket
  dsimp only
  split
  · exact hhop.trans (sameWork_launch _ _ _)
  · have hlost := hhop.trans (sameWork_add _ 1 (show O.unreachable ∉ waitKeys by decide))
    split
    · exact hlost
    · exact hlost.trans (sameWork_put _ _)

theorem sameWork_sendUnit (s : State) (p : Packet) : SameWork s (s.sendUnit p) := by
  unfold State.sendUnit
  split
  · exact sameWork_sendPacket s p
  · split
    · exact (sameWork_torus s _).trans (sameWork_sendPacket _ p)
    · exact sameWork_torus s _

theorem sameWork_emit (s : State) (o : Output) : SameWork s (s.emit o) := by
  unfold State.emit
  dsimp only
  split
  · exact sameWork_put s o
  · split
    · exact sameWork_put s o
    · refine .trans ?_ (.each _ (fun t x => sameWork_sendUnit t _) _ _)
      split
      · exact (sameWork_put s o).trans (sameWork_torus _ _)
      · exact sameWork_put s o

/-! ### The course of a request -/

theorem sameWork_carries (s : State) (f : Frame) : SameWork s (s.carries f) := by
  unfold State.carries
  split
  · exact sameWork_mgmt s _
  · exact .refl s

theorem sameWork_msi (s : State) (v : Nat) : SameWork s (s.msi v) := by
  unfold State.msi
  split
  · dsimp only
    split
    · exact sameWork_mgmt s _
    · exact ⟨rfl, rfl, rfl, rfl, fun _ _ => rfl⟩
  · exact .refl s

/-- A frame of the package's own is recorded, counted and carried by its session. -/
theorem sameWork_sent (s : State) (f : Frame) : SameWork s (((s.trace f).add O.framesSent 1).carries f) :=
  ((sameWork_mgmt s _).trans (sameWork_add _ 1 (by decide))).trans (sameWork_carries _ f)

theorem sameWork_send (s : State) (c : Carrier) (toPkg : Nat) (f : Frame) : SameWork s (s.send c toPkg f) := by
  cases c with
  | host =>
    simp only [State.send, State.placeResponse]
    split
    · exact ((sameWork_mgmt s _).trans (sameWork_sent _ f)).trans (sameWork_msi _ 0)
    · exact sameWork_mgmt s _
  | tally => exact (sameWork_emit s _).trans (sameWork_sent _ f)
  | torus => exact (sameWork_emit s _).trans (sameWork_sent _ f)

theorem sameWork_answered (f : Frame) (s : State) (status : Nat) (payload : Bytes) : SameWork s (answered f s status payload) :=
  (sameWork_send s _ _ _).trans (sameWork_mgmt _ _)

theorem sameWork_inSession (s : State) (f : Frame) : SameWork s (inSession s f) := by
  have htake : SameWork s ((takeFrame s f).getD s) := by
    cases h : takeFrame s f with
    | none => exact .refl s
    | some t => rw [Option.getD_some, takeFrame_eq h]; exact sameWork_mgmt s _
  exact (((htake.trans (sameWork_mgmt _ _)).trans (sameWork_add _ 1 (show O.framesReceived ∉ waitKeys by decide))).trans
    (sameWork_kpc _ _ _ _)).trans (sameWork_mgmt _ _)

/-! ### Carrying on -/

/-- Where no channel serves a slot, no message came early and the step has nothing of its own to do, the reduction rests. -/
theorem advanceReduction_rest {s : State} (hslot : ∀ c ∈ natsFrom 0 32, ¬s.rd (O.rcSlot c) < 16) (hearly : s.commit.early = [])
    (h0 : ¬(s.commit.opened = true ∧ s.rd O.stepState = 0)) (h1 : s.rd O.stepState ≠ 1) (h2 : s.rd O.stepState ≠ 2) :
    s.advanceReduction = s := by
  have hmsg : s.takeMessages = s := by
    have hsplit : s.commit.early.partition s.ripe = ([], []) := by rw [hearly]; rfl
    simp only [State.takeMessages, hsplit, State.each]
    rw [← hearly]
  have hred : s.tryReduced = s := by
    have hopen : (s.commit.opened && decide (s.rd O.stepState = 0)) = false := by simpa using h0
    simp only [State.tryReduced, hopen, Bool.false_and, Bool.false_eq_true, if_false]
  have hpend : s.tryPending = s := by simp only [State.tryPending, h1, if_false]
  have hready : s.tryReady = s := by simp only [State.tryReady, h2, false_and, if_false]
  unfold State.advanceReduction
  rw [each_id _ s (fun c hc => if_neg (hslot c hc)), State.advanceStep, hmsg, hred, hpend, hready]

/-- Where nothing waits, carrying on changes nothing. -/
theorem settle_of_quiet {s : State} (h : s.quiet = true) : s.settle = s := by
  simp only [State.quiet, Bool.and_eq_true, List.all_eq_true, decide_eq_true_eq, List.isEmpty_iff, Bool.not_eq_true',
    Bool.and_eq_false_iff, decide_eq_false_iff_not] at h
  obtain ⟨⟨⟨⟨⟨⟨⟨⟨hidle, hslot⟩, hearly⟩, h0⟩, h1⟩, h2⟩, hstage⟩, hdrain⟩, hwait⟩ := h
  have hred : s.advanceReduction = s :=
    advanceReduction_rest (fun c hc => Nat.not_lt.mpr (hslot c hc)) hearly (by rintro ⟨ho, hs⟩; simp [ho, hs] at h0) h1 h2
  have hstops : State.each (fun t i => t.settleStop i) s allSlots = s :=
    each_id _ s (fun i hi => by simp only [State.settleStop, hstage i hi, false_and, if_false])
  have hdrained : s.settleDrain = s := by simp [State.settleDrain, hdrain]
  have hsink : s.settleSink = s := by simp only [State.settleSink, hwait, List.isEmpty_nil, if_true]
  simp only [State.settle, sweeps_idle hidle, hred, hstops, hdrained, hsink]

/-! ### WRITE -/

/-- A new WRITE is answered with what serving it comes to, and then a restart that it began takes place. -/
theorem execWrite_of_asks {s : State} {f : Frame} (h : asks s f cmdWrite = true) :
    exec (.write f) s
      = .next (seen s (s.afterWrite f (answer f true (serveWrite anyEffect (inSession s f) f (levelOf s f)))).settle) := by
  show execWrite f s = _
  rw [execWrite, commandRow_of_asks _ h (not_service (by decide)) (by decide), settled_eq_seen]

/-- No restart follows an answer in a phase that is not the restart's. -/
theorem afterWrite_of_start {s t : State} (f : Frame) (hs : s.start.phase ≠ .restarting) (ht : t.start = s.start) : s.afterWrite f t = t := by
  simp only [State.afterWrite, State.restartNow, ht, hs, if_false]

/-- Indexes whose objects have no rule of their own: a write of one only stores its value. -/
def storedIndexes : List Nat := [0x1200, 0x1202, 0x1204, 0x1302, 0x1400, 0x2032, 0x9020]

/-- An object of a stored index is none whose index is not one. -/
theorem ne_of_stored {k o : Nat} (h : keyIndex k ∈ storedIndexes) (ho : keyIndex o ∉ storedIndexes) : k ≠ o := fun he => ho (he ▸ h)

/-- A stored index as a number. -/
theorem stored_cases {i : Nat} (h : i ∈ storedIndexes) :
    i = 0x1200 ∨ i = 0x1202 ∨ i = 0x1204 ∨ i = 0x1302 ∨ i = 0x1400 ∨ i = 0x2032 ∨ i = 0x9020 := by
  simpa [storedIndexes] using h

theorem stored_not_wait {k : Nat} (h : keyIndex k ∈ storedIndexes) : k ∉ waitKeys := fun hk => by
  have hrange := waitKeys_range hk
  have hi := stored_cases h
  simp only [keyIndex] at hi
  omega

/-- No object of a stored index is a counter's part. -/
theorem counterPart_of_stored {k : Nat} (h : keyIndex k ∈ storedIndexes) : counterPart k = none := by
  have hi := stored_cases h
  unfold counterPart
  dsimp only
  split
  · rfl
  · rw [if_neg (by omega), if_neg (by omega), if_neg (by omega), if_neg (by omega), if_neg (by omega), if_neg (by omega), if_neg (by omega)]

/-- A write of an object of a stored index stores its value (R51). -/
theorem anyEffect_of_stored (s : State) (f : Frame) {k : Nat} (v : Nat) (h : keyIndex k ∈ storedIndexes) :
    anyEffect s f k v = storeEffect s f k v := by
  have hi := stored_cases h
  have hplan : ¬(0x3000 ≤ keyIndex k ∧ keyIndex k < 0x4300 ∨ 0x6000 ≤ keyIndex k ∧ keyIndex k < 0x7000) := by omega
  have hgroup : isGroupControl k = false := by simp only [isGroupControl, Bool.and_eq_false_iff, decide_eq_false_iff_not]; omega
  have hport : isPortControl k = false := by simp only [isPortControl, Bool.and_eq_false_iff, decide_eq_false_iff_not]; omega
  have hlink : isSlControl k = false := by simp only [isSlControl, Bool.and_eq_false_iff, decide_eq_false_iff_not]; omega
  have hrlc : isRlcEnable k = false := by simp only [isRlcEnable, Bool.and_eq_false_iff, decide_eq_false_iff_not]; omega
  have hdomain : isDomainControl k = false := by simp only [isDomainControl, decide_eq_false_iff_not]; omega
  have hdie : isDieControl k = false := by simp only [isDieControl, decide_eq_false_iff_not]; omega
  have hcounter : isCounterPart 2 k = false := by simp only [isCounterPart, counterPart_of_stored h, Option.elim_none]
  have hne := fun o => ne_of_stored (o := o) h
  simp only [anyEffect, hplan, packageEffect, hgroup, hport, hlink, hrlc, hdomain, hdie, hcounter, hne O.reshardControl (by decide),
    hne O.jobControl (by decide), hne O.dataControl (by decide), hne O.timeSet (by decide), hne O.timeParent (by decide),
    hne O.drainControl (by decide), hne O.drainFlag (by decide), hne O.startControl (by decide), hne O.bootSlotControl (by decide),
    hne O.restoreStored (by decide), hne O.tagSeed (by decide), Bool.false_eq_true, if_false]

/-- A WRITE of an object of a stored index, in a quiet package, stores the value, is answered, and changes nothing else. -/
theorem execWrite_of_stored {s : State} {f : Frame} (h : writes s f = true) (hk : keyIndex f.key ∈ storedIndexes) (hq : s.quiet = true)
    (hp : s.start.phase ≠ .restarting) :
    exec (.write f) s = .next (seen s (writeDone f ((inSession s f).wr f.key (valueOf f)))) := by
  have hwork : SameWork s (writeDone f ((inSession s f).wr f.key (valueOf f))) :=
    ((sameWork_inSession s f).trans (sameWork_wr _ _ (stored_not_wait hk))).trans (sameWork_answered f _ _ _)
  rw [execWrite_of_asks (asks_of_writes h), serveWrite_of_writes _ h, anyEffect_of_stored _ _ _ hk, storeEffect, answer_done]
  change Host.Outcome.next (seen s (s.afterWrite f (writeDone f ((inSession s f).wr f.key (valueOf f)))).settle) = _
  rw [afterWrite_of_start f hp hwork.start, settle_of_quiet (hwork.quiet.trans hq)]

/-! ### Walk mode (R50) -/

/-- The index of an object that has a row has rows. -/
theorem rowsOf_of_rowOf {k : Nat} (h : (rowOf k).isSome = true) : (rowsOf (keyIndex k)).isEmpty = false := by
  rw [List.isEmpty_eq_false_iff]
  intro he
  simp [rowOf, he] at h

/-- In Walk mode a write below SERVICE of an object that is not a recovery object returns WALK. -/
theorem checkWrite_in_walk {s : State} {level k : Nat} (len v : Nat) (hw : s.walk = true) (hl : level < 2) (hr : (rowOf k).isSome = true)
    (hv : keyIndex k < 0xF000) (hrec : isRecovery k = false) : checkWrite s level k len v = stWalk := by
  obtain ⟨r, hrow⟩ := Option.isSome_iff_exists.mp hr
  have hservice : decide (level = 2) = false := by simp; omega
  simp [checkWrite, hrow, rowsOf_of_rowOf hr, hw, hrec, hservice, Nat.not_le.mpr hv]

/-- In Walk mode a DOMAIN transfer into an object that is not a recovery object returns WALK below SERVICE. -/
theorem checkDomain_in_walk {s : State} {level k : Nat} (size stop : Nat) (hw : s.walk = true) (hl : level < 2) (hr : (rowOf k).isSome = true)
    (hv : keyIndex k < 0xF000) (hrec : isRecovery k = false) : checkDomain s level k true size stop = stWalk := by
  obtain ⟨r, hrow⟩ := Option.isSome_iff_exists.mp hr
  have hservice : decide (level = 2) = false := by simp; omega
  simp [checkDomain, hrow, rowsOf_of_rowOf hr, hw, hrec, hservice, Nat.not_le.mpr hv]

/-- The start has no part in what a read is checked for. -/
theorem checkRead_of_start (s : State) (r : Start) (level k : Nat) : checkRead { s with start := r } level k = checkRead s level k := rfl

/-- The start has no part in what a READ_DOMAIN is checked for. -/
theorem checkDomain_read_of_start (s : State) (r : Start) (level k size stop : Nat) :
    checkDomain { s with start := r } level k false size stop = checkDomain s level k false size stop := by
  simp only [checkDomain, Bool.false_and, Bool.false_eq_true, if_false]
  rfl

/-- Settles O11: an accepted WRITE has the effect of its object, which for an object without a rule of its own only stores the value; Walk
mode changes no check of a read and refuses what writes to any object but the recovery objects. -/
theorem writeAppliesTheObjectsRule : Obligations.WriteAppliesTheObjectsRule := by
  refine ⟨fun s f h => ⟨?_, fun hi hq hsub hp => ?_⟩, fun s f ha hw hl hr hv hrec => ?_, fun s level k size stop => ⟨?_, ?_, ?_⟩⟩
  · rw [execWrite_of_asks (asks_of_writes h), serveWrite_of_writes _ h]
  · have hk : keyIndex f.key = f.index := by simp only [keyIndex, Frame.key]; omega
    exact execWrite_of_stored h (hk ▸ hi) hq hp
  · have hwalk : (inSession s f).walk = true := by simpa only [State.walk, (sameWork_inSession s f).start] using hw
    have hcheck := checkWrite_in_walk (s := inSession s f) f.body.length (leNat f.body) hwalk hl hr hv hrec
    rw [execWrite_of_asks ha, serveWrite, hcheck, if_neg (by decide), answer_done]
  · exact checkRead_of_start s _ level k
  · exact checkDomain_read_of_start s _ level k size stop
  · exact checkDomain_in_walk size stop rfl

end Machine

end Sys2Proof
end

section
/-! O52: the time, the host link and the Tally link (R376-R383). A reset of the host link closes the sessions of the host, empties the host window
and its interrupts, and counts; everything of the package outside the host link bridge stays as it was (R381). -/

namespace Sys2Proof.Machine

/-! ### Values of objects -/

/-- The objects alone tell what an object reads as. -/
theorem State.rd_of_objs {s t : State} (h : t.objs = s.objs) (k : Nat) : t.rd k = s.rd k := by simp only [State.rd, h]

/-- A value that is not the object's default is read back. -/
theorem State.rd_wr_listed (s : State) {k v : Nat} (h : v ≠ objDefault k) : (s.wr k v).rd k = v := Map.get_set_listed s.objs _ k v h

/-- Where the objects are in canonical form, every value is read back. -/
theorem State.rd_wr_of_wf {s : State} (k v : Nat) (h : s.objs.wf objDefault = true) : (s.wr k v).rd k = v :=
  Map.get_set_same s.objs objDefault k v h

/-- Writing a list of objects leaves every object that it does not name. -/
theorem State.rd_wrAll_of_notMem {k : Nat} : ∀ (l : List (Nat × Nat)) (s : State), k ∉ l.map Prod.fst → (s.wrAll l).rd k = s.rd k
  | [], _, _ => rfl
  | (j, v) :: l, s, h => by
    simp only [List.map_cons, List.mem_cons, not_or] at h
    rw [State.wrAll, State.rd_wrAll_of_notMem l _ h.2, State.rd_wr_of_ne s v h.1]

/-! ### Time messages (R376) -/

/-- A port takes time messages: an UP torus port, or the Tally port while it is the parent. -/
def State.hearsTime (s : State) (n : Nat) : Prop := (n < 6 ∧ s.portUp n = true) ∨ (n = 9 ∧ s.rd O.tallyLinkState = 1 ∧ s.rd O.timeParent = 9)

theorem exec_ptpMessage_of_hearsTime {s : State} {n : Nat} (m : PtpMsg) (h : s.hearsTime n) :
    exec (.ptpMessage n m) s = .next (seen s (s.ptpIn n m)) := by
  show execPtpMessage n m s = _
  rcases h with ⟨hn, hup⟩ | ⟨rfl, hlink, hparent⟩
  · rw [execPtpMessage, if_neg (by omega), if_pos hn, if_pos hup, done_eq_seen]
  · rw [execPtpMessage, if_neg (by omega), if_neg (by omega), if_pos ⟨hlink, hparent⟩, done_eq_seen]

section
variable {s : State} {n : Nat} {m : PtpMsg} (hd : m.domain = s.rd O.timeDomain)
include hd

theorem State.ptpIn_sync (hk : m.kind = 0) (hp : s.rd O.timeParent = n) :
    s.ptpIn n m = s.setTport n { s.tport n with ptp := { (s.tport n).ptp with syncSeq := m.seq, syncAt := m.arrival } } := by
  simp only [State.ptpIn, hd, hk, hp, ne_eq, not_true_eq_false, if_false, if_true]

theorem State.ptpIn_followUp (hk : m.kind = 1) (hp : s.rd O.timeParent = n) (hs : m.seq = (s.tport n).ptp.syncSeq) :
    s.ptpIn n m = s.timeOffset (((s.tport n).ptp.syncAt : Int) - m.stamp - s.pathDelay n - s.asymmetry n) := by
  simp only [State.ptpIn, hd, hk, ne_eq, not_true_eq_false, if_false, if_true, Nat.one_ne_zero, if_pos (And.intro hp hs)]

theorem State.ptpIn_pdelayReq (hk : m.kind = 2) (hn : n < 6) :
    s.ptpIn n m = (s.putPtp n 3 m.seq m.arrival).putPtp n 4 m.seq s.time := by
  rw [State.ptpIn, if_neg (not_not_intro hd), if_neg (by omega), if_neg (by omega), if_neg (by omega), if_pos hk]

theorem State.ptpIn_pdelayResp (hk : m.kind = 3) (hn : n < 6) (hs : m.seq = (s.tport n).ptp.reqSeq) (hr : (s.tport n).ptp.reqAt.isSome = true) :
    s.ptpIn n m = s.setTport n { s.tport n with ptp := { (s.tport n).ptp with t2 := m.stamp, t4 := m.arrival } } := by
  rw [State.ptpIn, if_neg (not_not_intro hd), if_neg (by omega), if_neg (by omega), if_neg (by omega), if_neg (by omega), if_pos hk,
    if_pos ⟨hs, hr⟩]

theorem State.ptpIn_pdelayRespFollowUp (hk : m.kind = 4) (hn : n < 6) (hs : m.seq = (s.tport n).ptp.reqSeq) (ht : (s.tport n).ptp.t4 ≠ 0) :
    s.ptpIn n m =
      (let q := (s.tport n).ptp
       let d : Int := ((q.t4 : Int) - q.t1 - ((m.stamp : Int) - q.t2)) / 2
       (s.wr (O.pdelay n) (unsignedBits 32 d)).setTport n { s.tport n with ptp := { q with t4 := 0 } }) := by
  rw [State.ptpIn, if_neg (not_not_intro hd), if_neg (by omega), if_neg (by omega), if_neg (by omega), if_neg (by omega), if_neg (by omega),
    if_pos ⟨hk, hs, ht⟩]

end

/-! ### Training of the host port (R378) -/

section
variable {s : State} (hlink : s.rd O.hostLinkState < 2) (hon : s.domainOn 0x47 = true)
include hlink hon

/-- A link that is not yet trained and has power takes the step. -/
theorem not_trained : ¬(2 ≤ s.rd O.hostLinkState ∨ s.domainOn 0x47 = false) := not_or.mpr ⟨Nat.not_le.mpr hlink, ne_false_of_eq_true hon⟩

theorem State.hostTrainStep_light {a b : Nat} (hp : (s.tport 8).step < 3) :
    s.hostTrainStep a b = (s.wr O.hostLinkState 1).setTport 8 { s.tport 8 with step := 3, since := s.now } := by
  rw [State.hostTrainStep, if_neg (not_trained hlink hon), if_pos hp]

theorem State.hostTrainStep_lanes {a b : Nat} (hp : (s.tport 8).step = 3) (hl : laneCount (a &&& b) 6 ≠ 0) :
    s.hostTrainStep a b = (s.setTport 8 { s.tport 8 with mask := a % 64, step := 4, since := s.now }).reviseLanes 8 (laneCount a 6) := by
  rw [State.hostTrainStep, if_neg (not_trained hlink hon), if_neg (by omega), if_pos hp, if_neg hl]

theorem State.hostTrainStep_dataLink {a b : Nat} (hp : (s.tport 8).step = 4) :
    s.hostTrainStep a b = (s.wr O.hostLinkState 2).setTport 8 { s.tport 8 with step := 5 } := by
  rw [State.hostTrainStep, if_neg (not_trained hlink hon), if_neg (by omega), if_neg (by omega)]

theorem State.hostTrainTimeout_late (h2 : 2 ≤ (s.tport 8).step) (h4 : (s.tport 8).step ≤ 4)
    (hlate : (s.tport 8).since + trainBound (s.tport 8).step ≤ s.now) :
    s.hostTrainTimeout = (s.wr O.hostLinkState 0).modTport 8 (fun p => { p with step := 2, since := s.now }) := by
  rw [State.hostTrainTimeout, if_pos ⟨hlink, hon, h2, h4, hlate⟩]
  rfl

end

theorem State.hostUp_of_trained {s : State} (h : HostTrained) (hon : s.domainOn 0x47 = true) (hlink : s.rd O.hostLinkState = 2) :
    s.hostUp h =
      (let t := s.wrAll [(O.hostLanesUsed, (hostWidths h.lanes).1), (O.hostWidth, (hostWidths h.lanes).2),
          (O.hostLinkState, if (hostWidths h.lanes).1 = 0 then 0 else 3)]
       ({ t with mgmt := { t.mgmt with msiEnabled := h.config.msix, host := h.config } } : State).modTport 8 (fun p => { p with step := 0 })) := by
  rw [State.hostUp, if_neg (not_or.mpr ⟨ne_false_of_eq_true hon, not_not_intro hlink⟩)]

/-! ### What a reset of the host link can change (R381) -/

/-- Of the package, only the management, the stored values, the ports and what is put out differ. -/
def OnlyBridge (s t : State) : Prop := ∃ m o p u, t = { s with mgmt := m, objs := o, torus := p, out := u }

namespace OnlyBridge

theorem trans {s t u : State} : OnlyBridge s t → OnlyBridge t u → OnlyBridge s u := by
  rintro ⟨_, _, _, _, rfl⟩ ⟨_, _, _, _, rfl⟩
  exact ⟨_, _, _, _, rfl⟩

theorem rest {s t : State} : OnlyBridge s t →
    t.cores = s.cores ∧ t.bents = s.bents ∧ t.queues = s.queues ∧ t.flights = s.flights ∧ t.frames = s.frames ∧ t.pages = s.pages
      ∧ t.slots = s.slots ∧ t.lanes = s.lanes ∧ t.commit = s.commit ∧ t.buckets = s.buckets ∧ t.chans = s.chans ∧ t.data = s.data
      ∧ t.dies = s.dies ∧ t.doms = s.doms ∧ t.faults = s.faults ∧ t.start = s.start := by
  rintro ⟨_, _, _, _, rfl⟩
  exact ⟨rfl, rfl, rfl, rfl, rfl, rfl, rfl, rfl, rfl, rfl, rfl, rfl, rfl, rfl, rfl, rfl⟩

theorem of_objs {s t : State} {o : Map Nat} (h : t = { s with objs := o }) : OnlyBridge s t := ⟨_, _, _, _, h⟩

theorem modTport (s : State) (n : Nat) (f : TPort → TPort) : OnlyBridge s (s.modTport n f) := ⟨_, _, _, _, rfl⟩

end OnlyBridge

/-- A message of the interrupts changes what is put out and what is known of the vectors. -/
theorem State.msi_eq (s : State) (v : Nat) :
    s.msi v = { s with out := (s.msi v).out
                       mgmt := { s.mgmt with msiLast := (s.msi v).mgmt.msiLast
                                             msiPending := (s.msi v).mgmt.msiPending } } := by
  unfold State.msi
  split
  · dsimp only
    split <;> rfl
  · rfl

/-! ### The sessions of the host -/

/-- The ids of the sessions that the host holds. -/
def State.hostIds (s : State) : List Nat := (s.mgmt.sessions.filter (fun e => decide (e.carrier = .host))).map Session.id

theorem State.mem_hostIds {s : State} {i : Nat} : i ∈ s.hostIds ↔ ∃ d ∈ s.mgmt.sessions, d.carrier = .host ∧ d.id = i := by
  simp only [State.hostIds, List.mem_map, List.mem_filter, decide_eq_true_eq, and_assoc]

/-- Closing sessions changes the management only, and there the sessions, the transfers and what is outstanding. -/
theorem each_closeSession_eq : ∀ (ids : List Nat) (s : State),
    let t := State.each (fun (t : State) (i : Nat) => t.closeSession i) s ids
    t = { s with mgmt := { s.mgmt with sessions := s.mgmt.sessions.filter (fun e => decide (e.id ∉ ids))
                                       transfers := t.mgmt.transfers
                                       outstanding := t.mgmt.outstanding } }
  | [], s => by
    have hall : s.mgmt.sessions.filter (fun e => decide (e.id ∉ [])) = s.mgmt.sessions :=
      List.filter_eq_self.mpr (fun e _ => decide_eq_true List.not_mem_nil)
    dsimp only [State.each]
    rw [hall]
  | i :: ids, s => by
    have ih := each_closeSession_eq ids (s.closeSession i)
    dsimp only at ih ⊢
    rw [State.each, ih]
    simp only [State.closeSession, List.filter_filter, List.mem_cons, not_or, Bool.decide_and, ne_eq, Bool.and_comm]

/-- The state with the sessions of the host closed. -/
def State.hostClosed (s : State) : State := State.each (fun (t : State) (i : Nat) => t.closeSession i) s s.hostIds

theorem State.hostClosed_eq (s : State) :
    s.hostClosed = { s with mgmt := { s.mgmt with sessions := s.mgmt.sessions.filter (fun e => decide (e.id ∉ s.hostIds))
                                                  transfers := s.hostClosed.mgmt.transfers
                                                  outstanding := s.hostClosed.mgmt.outstanding } } :=
  each_closeSession_eq s.hostIds s

theorem State.mem_hostClosed {s : State} {e : Session} :
    e ∈ s.hostClosed.mgmt.sessions ↔ e ∈ s.mgmt.sessions ∧ ∀ d ∈ s.mgmt.sessions, d.carrier = .host → d.id ≠ e.id := by
  rw [State.hostClosed_eq]
  simp only [List.mem_filter, decide_eq_true_eq, State.mem_hostIds, not_exists, not_and, ne_eq]

/-! ### The reset of the bridge -/

/-- The state with the host's sessions closed, its window and its interrupts empty, and the endpoint as at reset. -/
def State.hostEmptied (s : State) : State :=
  { s.hostClosed with mgmt := { s.hostClosed.mgmt with requests := [], responses := [], held := [], events := [], msiEnabled := false,
                                                       msiLast := [], msiPending := [], host := HostConfig.reset } }

theorem State.bridgeReset_eq (s : State) (down : Bool) :
    s.bridgeReset down =
      if down then ((s.hostEmptied.add O.hostLinkDowns 1).wrAll [(O.hostLinkState, 0), (O.hostLanesUsed, 0), (O.hostWidth, 0)]).hostBegin
      else s.hostEmptied.add O.hostLinkDowns 1 := rfl

theorem State.bridgeReset_mgmt (s : State) (down : Bool) : (s.bridgeReset down).mgmt = s.hostEmptied.mgmt := by
  rw [State.bridgeReset_eq]
  split
  · rw [State.hostBegin, State.modTport_mgmt, State.wrAll_mgmt, State.add_mgmt]
  · rfl

theorem onlyBridge_hostEmptied (s : State) : OnlyBridge s s.hostEmptied := by
  rw [State.hostEmptied, State.hostClosed_eq]
  exact ⟨_, _, _, _, rfl⟩

theorem onlyBridge_bridgeReset (s : State) (down : Bool) : OnlyBridge s (s.bridgeReset down) := by
  have hcount : OnlyBridge s (s.hostEmptied.add O.hostLinkDowns 1) := (onlyBridge_hostEmptied s).trans (.of_objs rfl)
  rw [State.bridgeReset_eq]
  split
  · exact (hcount.trans (.of_objs (State.wrAll_objs _ _))).trans (.modTport _ _ _)
  · exact hcount

/-- A reset of the bridge counts the reset, and of the other objects only a link that goes down changes its state, its lanes and its width. -/
theorem State.bridgeReset_rd (s : State) (down : Bool) {k : Nat} (h : k ∉ [O.hostLinkState, O.hostLanesUsed, O.hostWidth]) :
    (s.bridgeReset down).rd k = (s.add O.hostLinkDowns 1).rd k := by
  have hobjs : s.hostEmptied.objs = s.objs := by rw [State.hostEmptied, State.hostClosed_eq]
  have hadd : (s.hostEmptied.add O.hostLinkDowns 1).rd k = (s.add O.hostLinkDowns 1).rd k :=
    State.rd_of_objs (by simp only [State.add, State.wr, State.rd, hobjs]) k
  rw [State.bridgeReset_eq]
  split
  · exact (State.rd_wrAll_of_notMem _ _ h).trans hadd
  · exact hadd

/-! ### The reset of the host link -/

/-- The state in which the bridge is reset: the replays are counted and, on an UP link that had any, the link error told (R380). -/
def State.replaysTold (s : State) (r : HostReset) : State :=
  if 0 < r.replays ∧ s.rd O.hostLinkState = 3 then (s.add O.hostReplays r.replays).msi 3 else s.add O.hostReplays r.replays

theorem State.hostReset_eq (s : State) (r : HostReset) : s.hostReset r = (s.replaysTold r).bridgeReset r.down := rfl

theorem State.replaysTold_eq (s : State) (r : HostReset) :
    s.replaysTold r = { s.add O.hostReplays r.replays with
                          out := (s.replaysTold r).out
                          mgmt := { s.mgmt with msiLast := (s.replaysTold r).mgmt.msiLast
                                                msiPending := (s.replaysTold r).mgmt.msiPending } } := by
  unfold State.replaysTold
  split
  · exact State.msi_eq (s.add O.hostReplays r.replays) 3
  · rfl

theorem State.replaysTold_sessions (s : State) (r : HostReset) : (s.replaysTold r).mgmt.sessions = s.mgmt.sessions := by
  rw [State.replaysTold_eq]

theorem State.replaysTold_objs (s : State) (r : HostReset) : (s.replaysTold r).objs = (s.add O.hostReplays r.replays).objs := by
  rw [State.replaysTold_eq]

theorem onlyBridge_hostReset (s : State) (r : HostReset) : OnlyBridge s (s.hostReset r) := by
  have htold : OnlyBridge s (s.replaysTold r) := by rw [State.replaysTold_eq]; exact ⟨_, _, _, _, rfl⟩
  exact htold.trans (onlyBridge_bridgeReset _ _)

/-- The sessions that a reset of the host link leaves are those whose id no session of the host has. -/
theorem State.mem_hostReset_sessions {s : State} {r : HostReset} {e : Session} :
    e ∈ (s.hostReset r).mgmt.sessions ↔ e ∈ s.mgmt.sessions ∧ ∀ d ∈ s.mgmt.sessions, d.carrier = .host → d.id ≠ e.id := by
  rw [State.hostReset_eq, State.bridgeReset_mgmt]
  simp only [State.hostEmptied, State.mem_hostClosed, State.replaysTold_sessions]

theorem State.hostReset_proxies (s : State) (r : HostReset) : (s.hostReset r).mgmt.proxies = s.mgmt.proxies := by
  rw [State.hostReset_eq, State.bridgeReset_mgmt, State.hostEmptied, State.hostClosed_eq, State.replaysTold_eq]

/-- Of the objects a reset of the host link changes the two counts and, with the link, its state, its lanes and its width. -/
theorem State.hostReset_rd (s : State) (r : HostReset) {k : Nat} (h : k ∉ [O.hostLinkState, O.hostLanesUsed, O.hostWidth]) :
    (s.hostReset r).rd k = ((s.add O.hostReplays r.replays).add O.hostLinkDowns 1).rd k := by
  rw [State.hostReset_eq, State.bridgeReset_rd _ _ h]
  exact State.rd_of_objs (by simp only [State.add, State.wr, State.rd, State.replaysTold_objs]) k

theorem State.hostReset_rd_downs (s : State) (r : HostReset) : (s.hostReset r).rd O.hostLinkDowns = s.rd O.hostLinkDowns + 1 := by
  have hcount : (s.add O.hostReplays r.replays).rd O.hostLinkDowns = s.rd O.hostLinkDowns := State.rd_wr_of_ne s _ (by decide)
  have hzero : objDefault O.hostLinkDowns = 0 := by decide
  rw [State.hostReset_rd s r (by decide), State.add, State.rd_wr_listed _ (by omega), hcount]

theorem State.hostReset_rd_replays {s : State} (r : HostReset) (h : s.objs.wf objDefault = true) :
    (s.hostReset r).rd O.hostReplays = s.rd O.hostReplays + r.replays := by
  rw [State.hostReset_rd s r (by decide), State.add, State.rd_wr_of_ne _ _ (by decide), State.add, State.rd_wr_of_wf _ _ h]

theorem State.hostReset_rd_other (s : State) (r : HostReset) {k : Nat}
    (h : k ∉ [O.hostReplays, O.hostLinkDowns, O.hostLinkState, O.hostLanesUsed, O.hostWidth]) : (s.hostReset r).rd k = s.rd k := by
  simp only [List.mem_cons, not_or] at h
  obtain ⟨hreplays, hdowns, hlink⟩ := h
  rw [State.hostReset_rd s r (by simpa only [List.mem_cons, not_or] using hlink), State.add, State.rd_wr_of_ne _ _ hdowns, State.add, State.rd_wr_of_ne _ _ hreplays]

/-! ### The rows -/

theorem exec_ptpSend_of_up {s : State} {n : Nat} (hn : n < 6) (hup : s.portUp n = true) : exec (.ptpSend n) s = .next (seen s (s.ptpOut n)) := by
  show execPtpSend n s = _
  rw [execPtpSend, if_neg (by omega), if_pos hup, done_eq_seen]

/-- TIME_SET at a time root (R377). -/
theorem exec_timeSet_of_root {s : State} {f : Frame} (h : writes s f = true) (hk : f.key = O.timeSet)
    (hroot : (inSession s f).rd O.timeParent = 0xFF) :
    exec (.timeSet f) s = .next (seen s (writeDone f
      { (inSession s f).wr O.timeNow (valueOf f) with torus := { (inSession s f).torus with frac := 0 } })) := by
  show execTimeSet f s = _
  rw [execTimeSet, writeRow_of_writes _ _ h (decide_eq_true hk), timeSetEffect, if_neg (not_not_intro hroot), answer_done, done_eq_seen]
  rfl

theorem exec_hostLinkReset (r : HostReset) (s : State) : exec (.hostLinkReset r) s = .next (seen s (s.hostReset r)) := rfl

theorem exec_hostLinkUp (h : HostTrained) (s : State) : exec (.hostLinkUp h) s = .next (seen s (s.hostUp h)) := rfl

theorem exec_torusTrainingStepDone_host (a b : Nat) (s : State) : exec (.torusTrainingStepDone 8 a b) s = .next (seen s (s.hostTrainStep a b)) := rfl

theorem exec_trainStepTimeout_host (s : State) : exec (.trainStepTimeout 8) s = .next (seen s s.hostTrainTimeout) := rfl

theorem exec_tallyLink_comes (s : State) : exec (.tallyLinkChange true) s = .next (seen s (s.wr O.tallyLinkState 1)) := rfl

/-- The Tally link goes; the time is held over where it was the parent (R377, R383). -/
theorem exec_tallyLink_goes (s : State) :
    exec (.tallyLinkChange false) s = .next (seen s (if s.rd O.tallyLinkState = 1 ∧ s.rd O.timeParent = 9
      then (s.wr O.tallyLinkState 0).wr O.timeState 3 else s.wr O.tallyLinkState 0)) := by
  show execTallyLinkChange false s = _
  simp only [execTallyLinkChange, Bool.not_false, true_and, Bool.toNat_false, done_eq_seen]

/-- Settles O52: each row completes in the state that its rule gives; a reset of the host link leaves the sessions of the other carriers, the objects
that are not of the link, and the rest of the package. -/
theorem timeHostAndTally : Obligations.TimeHostAndTally := by
  refine ⟨fun s n m hears hd => ?_, fun s n => exec_ptpSend_of_up, fun s f => exec_timeSet_of_root,
    fun s => ⟨fun r => ?_, ?_, ?_, ?_, ?_, ?_⟩⟩
  · rw [exec_ptpMessage_of_hearsTime m hears]
    refine ⟨fun hk hp => ?_, fun hk hp hs => ?_, fun hk hn => ?_, fun hk hn hs hr => ?_, fun hk hn hs ht => ?_⟩
    · rw [State.ptpIn_sync hd hk hp]
    · rw [State.ptpIn_followUp hd hk hp hs]
    · rw [State.ptpIn_pdelayReq hd hk hn]
    · rw [State.ptpIn_pdelayResp hd hk hn hs hr]
    · rw [State.ptpIn_pdelayRespFollowUp hd hk hn hs ht]
  · have hmgmt := State.bridgeReset_mgmt (s.replaysTold r) r.down
    rw [← State.hostReset_eq] at hmgmt
    refine ⟨exec_hostLinkReset r s, fun e he => ?_, fun e he hid => State.mem_hostReset_sessions.mpr ⟨he, hid⟩,
      congrArg Mgmt.requests hmgmt, congrArg Mgmt.responses hmgmt, congrArg Mgmt.held hmgmt, congrArg Mgmt.events hmgmt,
      congrArg Mgmt.msiEnabled hmgmt, congrArg Mgmt.host hmgmt, State.hostReset_proxies s r, State.hostReset_rd_downs s r,
      State.hostReset_rd_replays r, fun k => State.hostReset_rd_other s r, (onlyBridge_hostReset s r).rest⟩
    obtain ⟨hin, hid⟩ := State.mem_hostReset_sessions.mp he
    exact ⟨hin, fun hc => hid e hin hc rfl⟩
  · intro h hon hlink
    rw [exec_hostLinkUp, State.hostUp_of_trained h hon hlink]
  · intro hlink hon
    refine ⟨fun a b => ?_, fun h2 h4 hlate => ?_⟩
    · rw [exec_torusTrainingStepDone_host]
      refine ⟨fun hp => ?_, fun hp hl => ?_, fun hp => ?_⟩
      · rw [State.hostTrainStep_light hlink hon hp]
      · rw [State.hostTrainStep_lanes hlink hon hp hl]
      · rw [State.hostTrainStep_dataLink hlink hon hp]
    · rw [exec_trainStepTimeout_host, State.hostTrainTimeout_late hlink hon h2 h4 hlate]
  · exact exec_tallyLink_comes s
  · intro hp
    rw [exec_tallyLink_goes, if_neg (fun h => hp h.2)]
  · intro hp hl
    rw [exec_tallyLink_goes, if_pos ⟨hl, hp⟩]

end Sys2Proof.Machine
end

section
/-! O56: the commands of DRAIN_CONTROL and the service write of DRAIN_FLAG (R423). What a write of DRAIN_FLAG is checked for depends on the state only by
Walk mode, so its checks are one equation; receiving a request keeps the objects in canonical form, in which the written 0 is read back. -/

namespace Sys2Proof.Machine

/-! ### The canonical form of the objects along the course of a request -/

theorem State.wf_wr {s : State} (k v : Nat) (h : s.objs.wf objDefault = true) : (s.wr k v).objs.wf objDefault = true :=
  Map.wf_set s.objs objDefault k v h

theorem State.wf_each {α : Type} (f : State → α → State)
    (hf : ∀ t a, t.objs.wf objDefault = true → (f t a).objs.wf objDefault = true) :
    ∀ (l : List α) (s : State), s.objs.wf objDefault = true → (State.each f s l).objs.wf objDefault = true
  | [], _, h => h
  | a :: l, s, h => State.wf_each f hf l (f s a) (hf s a h)

theorem State.wf_bump {s : State} (value overflow bit n : Nat) (h : s.objs.wf objDefault = true) :
    (s.bump value overflow bit n).objs.wf objDefault = true := by
  unfold State.bump
  dsimp only
  split
  · exact State.wf_wr _ _ h
  · exact State.wf_wr _ _ (State.wf_wr _ _ h)

theorem State.wf_kpc {s : State} (event unit n : Nat) (h : s.objs.wf objDefault = true) : (s.kpc event unit n).objs.wf objDefault = true := by
  unfold State.kpc
  split
  · exact h
  · refine State.wf_each _ (fun t j ht => ?_) _ s h
    dsimp only
    split
    · exact State.wf_bump _ _ _ _ ht
    · exact ht

/-- The window's posted requests are all that a frame that is not there or that is taken can change. -/
theorem takeFrame_getD_eq (s : State) (f : Frame) :
    (takeFrame s f).getD s = { s with mgmt := { s.mgmt with requests := ((takeFrame s f).getD s).mgmt.requests } } := by
  cases h : takeFrame s f with
  | none => rfl
  | some t => exact takeFrame_eq h

theorem inSession_wf {s : State} (f : Frame) (h : s.objs.wf objDefault = true) : (inSession s f).objs.wf objDefault = true := by
  show (received s f).objs.wf objDefault = true
  rw [received, takeFrame_getD_eq]
  exact State.wf_kpc _ _ _ (State.wf_wr _ _ h)

theorem inSession_now (s : State) (f : Frame) : (inSession s f).now = s.now := by
  show (received s f).now = s.now
  rw [received, State.kpc_now, State.add_now, State.trace_now, takeFrame_getD_eq]

theorem inSession_lockedUntil (s : State) (f : Frame) : (inSession s f).mgmt.lockedUntil = s.mgmt.lockedUntil := by
  show (received s f).mgmt.lockedUntil = s.mgmt.lockedUntil
  rw [received, State.kpc_mgmt, State.add_mgmt, takeFrame_getD_eq]
  rfl

/-! ### SERVICE_WRITE (R64) -/

/-- A new SERVICE_WRITE is answered with what serving it comes to, and then a restart that it began takes place. -/
theorem execServiceWrite_of_asks {s : State} {f : Frame} (h : asks s f cmdServiceWrite = true) (hc : f.carrier ≠ .torus) :
    exec (.serviceWrite f) s
      = .next (seen s (s.afterWrite f (answer f true (serveService f (inSession s f) (levelOf s f)))).settle) := by
  show execServiceWrite f s = _
  rw [execServiceWrite, commandRow_of_asks _ h (fun a => hc a.2) (by decide), settled_eq_seen]

/-- Without a lockout, a payload that meets the conditions of R64 and whose parts fit together advances the nonce and applies its value. -/
theorem serveService_of_accepts {s : State} {f : Frame} (level : Nat) (hlock : ∀ u, s.mgmt.lockedUntil = some u → u ≤ s.now)
    (hacc : s.serviceAccepts f = true) (hlen : f.body.length = 16 + serviceLength f.body + 64) (hlow : 1 ≤ serviceLength f.body)
    (hhigh : serviceLength f.body ≤ 896) :
    serveService f s level = applyService (s.wr O.serviceNonce (byteField f.body 0 8)) f ((f.body.drop 16).take (serviceLength f.body)) := by
  have hopen : s.mgmt.lockedUntil.elim false (fun u => decide (s.now < u)) = false := by
    cases hu : s.mgmt.lockedUntil with
    | none => rfl
    | some u => exact decide_eq_false (Nat.not_lt.mpr (hlock u hu))
  simp only [serveService, hopen, hacc, hlen, Bool.not_true, Bool.false_eq_true, ne_eq, not_true_eq_false, if_false,
    show ¬(serviceLength f.body = 0 ∨ 896 < serviceLength f.body) by omega]

/-- A value that passes the checks at level SERVICE has the effect of its object. -/
theorem applyService_of_checked {s : State} {f : Frame} {value : Bytes} (hi : f.index < 0xF000)
    (hc : checkWrite s 2 f.key value.length (leNat value) = stOk) :
    applyService s f value = anyEffect s f f.key (leNat value) := by
  rw [applyService, if_neg (Nat.not_le.mpr hi)]
  exact if_pos hc

/-! ### DRAIN_FLAG (R423) -/

theorem rowOf_drainFlag : rowOf O.drainFlag = some ⟨0x9030, 1, 0x1, 0x03, 0x03, .u8, .rws, .range 0 0⟩ := by decide +kernel

/-- The checks of a write of DRAIN_FLAG, in the order of R63: level SERVICE, which Walk mode lets pass, one byte, the value 0. -/
theorem checkWrite_drainFlag (s : State) (level len v : Nat) :
    checkWrite s level O.drainFlag len v
      = if s.walk = true ∧ level ≠ 2 then stWalk else if level < 2 then stLevel else if len ≠ 1 then stType
        else if v ≠ 0 then stRange else stOk := by
  have hrow := rowsOf_of_rowOf (k := O.drainFlag) (by rw [rowOf_drainFlag]; rfl)
  have hextra : extraRange s O.drainFlag v = true := by rfl
  have hallowed : writeAllowed s O.drainFlag = true := by rfl
  have hrec : isRecovery O.drainFlag = false := by decide
  have hindex : ¬0xF000 ≤ keyIndex O.drainFlag := by decide
  have hsub : keySub O.drainFlag ≠ 0 := by decide
  have hlevel : writeLevel O.drainFlag = 2 := by decide
  have hvalue : (OType.u8.admits v && (Rule.range 0 0).admits v && extraRange s O.drainFlag v) = decide (v = 0) := by
    simp [OType.admits, Rule.admits, hextra]
  rw [checkWrite, if_neg hindex, if_neg (by simp [hrow]), if_neg hsub, rowOf_drainFlag]
  simp [hvalue, hallowed, hrec, hlevel, OType.size, @eq_comm _ 1 len]

/-- A write of DRAIN_FLAG that passes is one of the value 0 at level SERVICE. -/
theorem service_zero_of_checkWrite_drainFlag {s : State} {level len v : Nat} (h : checkWrite s level O.drainFlag len v = stOk) :
    2 ≤ level ∧ v = 0 := by
  rw [checkWrite_drainFlag] at h
  split at h
  · exact absurd h (by decide)
  · split at h
    · exact absurd h (by decide)
    · split at h
      · exact absurd h (by decide)
      · split at h
        · exact absurd h (by decide)
        · omega

/-- Of all writes, one of DRAIN_FLAG has the effect of its own rule. -/
theorem anyEffect_drainFlag (s : State) (f : Frame) (v : Nat) : anyEffect s f O.drainFlag v = drainFlagEffect s f O.drainFlag v := by rfl

/-- FLAGGED is bit 2 of IFLAGS and follows DRAIN_FLAG. -/
theorem State.iflags_flagged_clear {s : State} (h : s.rd O.drainFlag ≠ 1) : s.iflags / 4 % 2 = 0 := by
  have hjob : (if s.rd O.jobState = 1 then 1 else 0) ≤ 1 := by split <;> omega
  have hdrain : (if s.rd O.drainState ≠ 0 then 2 else 0) ≤ 2 := by split <;> omega
  rw [State.iflags, if_neg h]
  omega

/-- The state after a write of 0 to DRAIN_FLAG (R423). -/
def State.flagCleared (s : State) : State := { s.wr O.drainFlag 0 with faults := { s.faults with implications := [] } }

theorem State.flagCleared_drainState (s : State) : s.flagCleared.rd O.drainState = s.rd O.drainState :=
  s.rd_wr_of_ne 0 (k := O.drainFlag) (by decide)

theorem State.flagCleared_drainFlag {s : State} (h : s.objs.wf objDefault = true) : s.flagCleared.rd O.drainFlag = 0 :=
  State.rd_wr_of_wf O.drainFlag 0 h

/-- A signed service write of 0 to DRAIN_FLAG clears the flag and is answered OK. -/
theorem exec_serviceWrite_drainFlag {s : State} {f : Frame} (h : asks s f cmdServiceWrite = true) (hc : f.carrier ≠ .torus)
    (hlock : ∀ u, s.mgmt.lockedUntil = some u → u ≤ s.now) (hone : serviceLength f.body = 1) (hlen : f.body.length = 81)
    (hacc : (inSession s f).serviceAccepts f = true) (hk : f.key = O.drainFlag) (hi : f.index = keyIndex O.drainFlag)
    (hv : byteField f.body 16 1 = 0) :
    exec (.serviceWrite f) s = .next (seen s
      (s.afterWrite f (writeDone f ((inSession s f).wr O.serviceNonce (byteField f.body 0 8)).flagCleared)).settle) := by
  have hlock' : ∀ u, (inSession s f).mgmt.lockedUntil = some u → u ≤ (inSession s f).now := by
    rwa [inSession_lockedUntil, inSession_now]
  have hvalue : leNat ((f.body.drop 16).take 1) = 0 := hv
  have hlength : ((f.body.drop 16).take 1).length = 1 := by simp [hlen]
  have hindex : f.index < 0xF000 := hi ▸ by decide
  have hcheck : checkWrite ((inSession s f).wr O.serviceNonce (byteField f.body 0 8)) 2 f.key ((f.body.drop 16).take 1).length
      (leNat ((f.body.drop 16).take 1)) = stOk := by
    rw [hk, hlength, hvalue, checkWrite_drainFlag]
    simp
  rw [execServiceWrite_of_asks h hc, serveService_of_accepts _ hlock' hacc (by omega) (by omega) (by omega), hone,
    applyService_of_checked hindex hcheck, hk, anyEffect_drainFlag, hvalue]
  rfl

/-! ### DRAIN_CONTROL (R423) -/

section
variable {s : State} {f : Frame} (h : writes s f = true) (hk : f.key = O.drainControl)
include h hk

/-- DRAIN is accepted only in SERVING. -/
theorem exec_drain_of_writes (hv : valueOf f = 1) :
    exec (.drain f) s = .next (seen s
      (if (inSession s f).rd O.drainState = 0 then writeDone f ((inSession s f).startDrain 5 0xFFFFFFFF)
       else answered f (inSession s f) stState []).settle) := by
  show execDrain f s = _
  rw [execDrain, writeRow_of_writes _ _ h (by simp [hk, hv]), hv, drainControlEffect, if_pos rfl, apply_ite (answer f true), settled_eq_seen]
  rfl

/-- UNDRAIN is accepted only in DRAINED with DRAIN_FLAG clear. -/
theorem exec_undrain_of_writes (hv : valueOf f = 2) :
    exec (.undrain f) s = .next (seen s
      (if (inSession s f).rd O.drainState = 2 ∧ (inSession s f).rd O.drainFlag = 0 then writeDone f ((inSession s f).wr O.drainState 0)
       else answered f (inSession s f) stState []).settle) := by
  show execUndrain f s = _
  rw [execUndrain, writeRow_of_writes _ _ h (by simp [hk, hv]), hv, drainControlEffect, if_neg (by decide), apply_ite (answer f true),
    settled_eq_seen]
  rfl

end

/-- Settles O56: each command of DRAIN_CONTROL is judged by the drain state; a write of DRAIN_FLAG passes its checks only at level SERVICE and with
the value 0, and then clears the flag and the implications and leaves the drain state. -/
theorem drainControlAndDrainFlag : Obligations.DrainControlAndDrainFlag := by
  refine ⟨fun s f h hk => ⟨exec_drain_of_writes h hk, exec_undrain_of_writes h hk⟩,
    fun s f h hc hlock hone hlen hacc hk hi => ?_, fun s level len v hok => ?_, fun s v hv _ => ?_⟩
  · intro t u hzero
    refine ⟨exec_serviceWrite_drainFlag h hc hlock hone hlen hacc hk hi hzero, t.flagCleared_drainState, fun hwf => ?_⟩
    have hclear : u.rd O.drainFlag = 0 := State.flagCleared_drainFlag (State.wf_wr _ _ (inSession_wf f hwf))
    exact ⟨hclear, State.iflags_flagged_clear (by omega)⟩
  · exact service_zero_of_checkWrite_drainFlag hok
  · rw [checkWrite_drainFlag, if_neg (by simp), if_neg (by decide), if_neg (by decide), if_pos hv]

end Sys2Proof.Machine
end

section
/-! O17: who may read and write the objects of the counters and tags (R49, R467), and the writes that only mark or store (R53, R463-R465, R469).
COUNTER_USER_READ moves one number, the level that a read needs: where it is USER, the level has no part in the checks of a read. -/

namespace Sys2Proof.Machine

/-! ### Levels (R63) -/

/-- No vendor diagnostic can be read at level USER (R46). -/
theorem index_of_readLevel_zero {s : State} {k : Nat} (h : readLevel s k = 0) : ¬0xF000 ≤ keyIndex k := fun hv => by
  rw [readLevel, if_pos hv] at h
  exact absurd h (by decide)

/-- Where USER may read an object, the level has no part in what a READ of it is checked for. -/
theorem checkRead_of_readLevel_zero {s : State} {k : Nat} (h : readLevel s k = 0) (level : Nat) : checkRead s level k = checkRead s 0 k := by
  simp only [checkRead, if_neg (index_of_readLevel_zero h), h, Nat.not_lt_zero, if_false]

/-- Where USER may read an object, the level has no part in what a READ_DOMAIN of it is checked for. -/
theorem checkDomain_read_of_readLevel_zero {s : State} {k : Nat} (h : readLevel s k = 0) (level size stop : Nat) :
    checkDomain s level k false size stop = checkDomain s 0 k false size stop := by
  simp only [checkDomain, if_neg (index_of_readLevel_zero h), h, Nat.not_lt_zero, Bool.false_and, Bool.false_eq_true, if_false]

section
variable {s : State} {k : Nat} (hr : (rowOf k).isSome = true) (hsub : keySub k ≠ 0) (hv : ¬0xF000 ≤ keyIndex k)
include hr hsub hv

/-- A READ below the level that its object needs returns LEVEL. -/
theorem checkRead_below_level {level : Nat} (hl : level < readLevel s k) : checkRead s level k = stLevel := by
  obtain ⟨r, hrow⟩ := Option.isSome_iff_exists.mp hr
  simp [checkRead, hv, rowsOf_of_rowOf hr, hsub, hrow, hl]

/-- A READ_DOMAIN below the level that its object needs returns LEVEL. -/
theorem checkDomain_read_below_level {level : Nat} (size stop : Nat) (hl : level < readLevel s k) :
    checkDomain s level k false size stop = stLevel := by
  obtain ⟨r, hrow⟩ := Option.isSome_iff_exists.mp hr
  simp [checkDomain, hv, rowsOf_of_rowOf hr, hsub, hrow, hl]

/-- Outside Walk mode a WRITE below the level that its object needs returns LEVEL. -/
theorem checkWrite_below_level {level : Nat} (len v : Nat) (hw : s.walk = false) (hl : level < writeLevel k) :
    checkWrite s level k len v = stLevel := by
  obtain ⟨r, hrow⟩ := Option.isSome_iff_exists.mp hr
  simp [checkWrite, hv, rowsOf_of_rowOf hr, hsub, hrow, hw, hl]

/-- Outside Walk mode a WRITE_DOMAIN below the level that its object needs returns LEVEL. -/
theorem checkDomain_write_below_level {level : Nat} (size stop : Nat) (hw : s.walk = false) (hl : level < writeLevel k) :
    checkDomain s level k true size stop = stLevel := by
  obtain ⟨r, hrow⟩ := Option.isSome_iff_exists.mp hr
  simp [checkDomain, hv, rowsOf_of_rowOf hr, hsub, hrow, hw, hl]

end

/-- Every write needs OPERATOR at least (R49). -/
theorem writeLevel_pos (k : Nat) : 0 < writeLevel k := by
  unfold writeLevel
  split <;> decide

/-- The level that a read of a counter or tag object needs is told by COUNTER_USER_READ (R467). -/
theorem readLevel_of_counter {s : State} {k : Nat} (hlo : 0xA010 ≤ keyIndex k) (hhi : keyIndex k < 0xA440) :
    readLevel s k = if s.rd O.counterUserRead = 0 then 1 else 0 := by
  simp only [readLevel, if_neg (show ¬0xF000 ≤ keyIndex k by omega), hlo, hhi, true_and]

/-! ### Writes that mark or store -/

/-- A row of its own object that is done with a WRITE answers it OK in the state its effect leads to. -/
theorem done_writeRow_of_writes {s t : State} {f : Frame} {names : Nat → Nat → Bool} {effect : WriteEffect} (h : writes s f = true)
    (hn : names f.key (valueOf f) = true) (he : effect (inSession s f) f f.key (valueOf f) = .done t stOk []) :
    done s (writeRow names effect f s) = .next (seen s (writeDone f t)) := by
  rw [writeRow_of_writes _ _ h hn, he, answer_done, done_eq_seen]
  rfl

/-- An overflow write whose bits the counters of the object have clears the bits written 1 (R464). -/
theorem overflowClearEffect_of_bits (s : State) (f : Frame) {k v : Nat} (h : counterPart k = some (0, 2) → v < 16) :
    overflowClearEffect s f k v = .done (s.wr k (s.rd k - (s.rd k &&& v))) stOk [] := by
  rw [overflowClearEffect, if_neg (fun hc => by have := h hc.1; omega)]

/-- Settles O17: what a read at USER returns follows COUNTER_USER_READ, a write at USER returns LEVEL, and each row of this kind marks or stores
what is written and nothing else. -/
theorem markingAndCounterWrites : Obligations.MarkingAndCounterWrites := by
  refine ⟨fun s k len v size stop r hrow hsub => ⟨fun hlo hhi => ⟨fun hopen => ?_, fun hclosed => ?_⟩, fun hlo hhi hw => ?_⟩, fun s f h => ?_⟩
  · have hlevel : readLevel s k = 0 := by rw [readLevel_of_counter hlo hhi, hopen, if_neg (by decide)]
    exact ⟨(checkRead_of_readLevel_zero hlevel 1).symm, (checkDomain_read_of_readLevel_zero hlevel 1 size stop).symm⟩
  · have hr : (rowOf k).isSome = true := by rw [hrow]; rfl
    have hlevel : 0 < readLevel s k := by rw [readLevel_of_counter hlo hhi, if_pos hclosed]; decide
    exact ⟨checkRead_below_level hr hsub (by omega) hlevel, checkDomain_read_below_level hr hsub (by omega) size stop hlevel⟩
  · have hr : (rowOf k).isSome = true := by rw [hrow]; rfl
    exact ⟨checkWrite_below_level hr hsub (by omega) len v hw (writeLevel_pos k),
      checkDomain_write_below_level hr hsub (by omega) size stop hw (writeLevel_pos k)⟩
  · exact ⟨fun hk => done_writeRow_of_writes h (decide_eq_true hk) rfl,
      fun hk => done_writeRow_of_writes h hk rfl,
      fun hk => done_writeRow_of_writes h (decide_eq_true hk) rfl,
      fun hk => done_writeRow_of_writes h hk rfl,
      fun hk => done_writeRow_of_writes h hk rfl,
      fun hk hbits => done_writeRow_of_writes h hk (overflowClearEffect_of_bits _ f hbits),
      fun hk => done_writeRow_of_writes h (decide_eq_true hk) rfl⟩

end Sys2Proof.Machine
end

section
/-! O10: what READ and READ_DOMAIN answer (R51, R58), and that a read removes, delays and reorders nothing (R474). The course of a request and the
frames that answer it reach only what carries frames: the management, the stored values, the ports, what is put out and the open values. -/

namespace Sys2Proof.Machine

/-! ### What carrying a frame leaves -/

/-- Of the package, only the management, the stored values, the ports, what is put out and the next open value differ. -/
def OnlyCarried (s t : State) : Prop := ∃ m o p u n, t = { s with mgmt := m, objs := o, torus := p, out := u, fresh := n }

namespace OnlyCarried

theorem refl (s : State) : OnlyCarried s s := ⟨_, _, _, _, _, rfl⟩

theorem trans {s t u : State} : OnlyCarried s t → OnlyCarried t u → OnlyCarried s u := by
  rintro ⟨_, _, _, _, _, rfl⟩ ⟨_, _, _, _, _, rfl⟩
  exact ⟨_, _, _, _, _, rfl⟩

theorem each {α : Type} (f : State → α → State) (h : ∀ s a, OnlyCarried s (f s a)) :
    ∀ (l : List α) (s : State), OnlyCarried s (State.each f s l)
  | [], s => refl s
  | a :: l, s => (h s a).trans (each f h l (f s a))

theorem of_sentFrom {s t : State} : SentFrom s t → OnlyCarried s t := by
  rintro ⟨_, _, _, rfl⟩
  exact ⟨_, _, _, _, _, rfl⟩

theorem mgmt (s : State) (m : Mgmt) : OnlyCarried s { s with mgmt := m } := ⟨_, _, _, _, _, rfl⟩

theorem torus (s : State) (p : Torus) : OnlyCarried s { s with torus := p } := ⟨_, _, _, _, _, rfl⟩

theorem free (s : State) : OnlyCarried s s.free.2 := ⟨_, _, _, _, _, rfl⟩

theorem add (s : State) (k n : Nat) : OnlyCarried s (s.add k n) := of_sentFrom (sentFrom_add s k n)

theorem put (s : State) (o : Output) : OnlyCarried s (s.put o) := of_sentFrom (sentFrom_put s o)

/-- The messages, the Batons, the tag records and the order they stand in are as they were. -/
theorem units {s t : State} : OnlyCarried s t → t.queues = s.queues ∧ t.flights = s.flights ∧ t.lanes = s.lanes ∧ t.bents = s.bents := by
  rintro ⟨_, _, _, _, _, rfl⟩
  exact ⟨rfl, rfl, rfl, rfl⟩

end OnlyCarried

/-! ### Packets of the torus -/

theorem onlyCarried_launch (s : State) (h : Hop) (p : Packet) : OnlyCarried s (s.launch h p) :=
  .of_sentFrom (((sentFrom_put s _).trans (sentFrom_setTport _ _ _)).trans (sentFrom_pump _ _))

theorem onlyCarried_flowed (s : State) (p : Packet) : OnlyCarried s (s.flowed p).2 := by
  unfold State.flowed
  dsimp only
  split
  · exact .torus s _
  · exact (OnlyCarried.torus s _).trans (.torus _ _)

theorem onlyCarried_nextHop (s : State) (source dest cls pflags : Nat) (arrived : Option (Nat × Nat)) :
    OnlyCarried s (s.nextHop source dest cls pflags arrived).2 := by
  unfold State.nextHop
  dsimp only
  split
  · split
    · dsimp only
      split
      · exact .add s _ _
      · exact .refl s
    · exact .refl s
    · exact .free s
  · dsimp only
    split
    · exact .add s _ _
    · exact .refl s

theorem onlyCarried_sendPacket (s : State) (p : Packet) : OnlyCarried s (s.sendPacket p) := by
  have hhop := (onlyCarried_flowed s p).trans
    (onlyCarried_nextHop (s.flowed p).2 (s.flowed p).2.node.id (s.flowed p).1.dest (s.flowed p).1.cls (s.flowed p).1.pflags none)
  unfold State.sendPacket
  dsimp only
  split
  · exact hhop.trans (onlyCarried_launch _ _ _)
  · have hlost := hhop.trans (.add _ O.unreachable 1)
    split
    · exact hlost
    · exact hlost.trans (.put _ _)

theorem onlyCarried_sendUnit (s : State) (p : Packet) : OnlyCarried s (s.sendUnit p) := by
  unfold State.sendUnit
  split
  · exact onlyCarried_sendPacket s p
  · split
    · exact (OnlyCarried.torus s _).trans (onlyCarried_sendPacket _ p)
    · exact .torus s _

theorem onlyCarried_emit (s : State) (o : Output) : OnlyCarried s (s.emit o) := by
  unfold State.emit
  dsimp only
  split
  · exact .put s o
  · split
    · exact .put s o
    · refine .trans ?_ (.each _ (fun t x => onlyCarried_sendUnit t _) _ _)
      split
      · exact (OnlyCarried.put s o).trans (.torus _ _)
      · exact .put s o

/-! ### Frames -/

theorem onlyCarried_msi (s : State) (v : Nat) : OnlyCarried s (s.msi v) := ⟨_, _, _, _, _, State.msi_eq s v⟩

/-- A frame of the package's own is recorded, counted and carried by its session. -/
theorem onlyCarried_sent (s : State) (f : Frame) : OnlyCarried s (((s.trace f).add O.framesSent 1).carries f) := by
  refine .trans ((OnlyCarried.mgmt s _).trans (.add (s.trace f) O.framesSent 1)) ?_
  unfold State.carries
  split
  · exact .mgmt _ _
  · exact .refl _

/-- Sending a frame, on whichever carrier, reaches no unit. -/
theorem onlyCarried_send (s : State) (c : Carrier) (toPkg : Nat) (f : Frame) : OnlyCarried s (s.send c toPkg f) := by
  cases c with
  | host =>
    simp only [State.send, State.placeResponse]
    split
    · exact ((OnlyCarried.mgmt s _).trans (onlyCarried_sent _ f)).trans (onlyCarried_msi _ 0)
    · exact .mgmt s _
  | tally => exact (onlyCarried_emit s _).trans (onlyCarried_sent _ f)
  | torus => exact (onlyCarried_emit s _).trans (onlyCarried_sent _ f)

theorem onlyCarried_respond (s : State) (f : Frame) (session status : Nat) (payload : Bytes) :
    OnlyCarried s (s.respond f session status payload) := onlyCarried_send s _ _ _

theorem onlyCarried_answered (f : Frame) (s : State) (status : Nat) (payload : Bytes) : OnlyCarried s (answered f s status payload) :=
  (onlyCarried_respond s f _ _ _).trans (.mgmt _ _)

/-- The segments of an answer are sent one by one (R58). -/
theorem onlyCarried_segs (f : Frame) (s : State) (off : Nat) (content : Bytes) : OnlyCarried s (answer f true (.segs s off content)) :=
  (OnlyCarried.each _ (fun t g => onlyCarried_send t _ _ g) _ s).trans (.mgmt _ _)

theorem onlyCarried_received (s : State) (f : Frame) : OnlyCarried s (received s f) := by
  rw [received, takeFrame_getD_eq]
  exact ((OnlyCarried.mgmt s _).trans (.add _ O.framesReceived 1)).trans (.of_sentFrom (sentFrom_kpc _ _ _ _))

theorem onlyCarried_inSession (s : State) (f : Frame) : OnlyCarried s (inSession s f) := (onlyCarried_received s f).trans (.mgmt _ _)

/-! ### READ and READ_DOMAIN -/

/-- The payload that a read of a numeric object or a text answers with (R51). -/
def State.readPayload (s : State) (r : ObjRow) (k : Nat) : Bytes := if r.type = .vstr then s.readText k else s.readValue k r.type.size

/-- A READ that passes its checks is done with the value of its object, and leaves the state. -/
theorem serveRead_of_checked {s : State} {f : Frame} {level : Nat} {r : ObjRow} (hi : f.index < 0xF000) (hsub : f.sub ≠ 0)
    (hrow : rowOf f.key = some r) (hc : checkRead s level f.key = stOk) : serveRead f s level = .done s stOk (s.readPayload r f.key) := by
  simp only [serveRead, hc, ne_eq, not_true_eq_false, if_false, Nat.not_le.mpr hi, hsub, hrow, State.readPayload]
  split <;> rfl

/-- A READ_DOMAIN of 1 to 65,536 bytes that passes its checks is answered by segments of the content at one instant, and leaves the state. -/
theorem serveReadDomain_of_checked {s : State} {f : Frame} {level : Nat} (hlen : f.body.length = 4) (hlow : 1 ≤ valueOf f)
    (hhigh : valueOf f ≤ 65536) (hc : checkDomain s level f.key false (domSize f.key) (f.offset + valueOf f) = stOk) :
    serveReadDomain f s level = .segs s f.offset (s.readDom f.key f.offset (valueOf f)) := by
  rw [valueOf] at hlow hhigh hc
  have hrange : ¬(leNat f.body = 0 ∨ 65536 < leNat f.body ∨ stOk = stRange) := by
    rintro (h | h | h)
    · omega
    · omega
    · exact absurd h (by decide)
  simp only [serveReadDomain, hc, hlen, hrange, ne_eq, not_true_eq_false, false_and, if_false, show ¬stOk = stState by decide, valueOf]

/-- A READ on an opened session (R51). -/
theorem exec_read_of_asks {s : State} {f : Frame} {r : ObjRow} (hi : f.index < 0xF000) (hsub : f.sub ≠ 0) (hrow : rowOf f.key = some r)
    (h : asks s f cmdRead = true) (hc : checkRead (inSession s f) (levelOf s f) f.key = stOk) :
    exec (.read f) s = .next (seen s (answered f (inSession s f) stOk ((inSession s f).readPayload r f.key))) := by
  show execRead f s = _
  rw [execRead, commandRow_of_asks _ h (not_service (by decide)) (by decide), serveRead_of_checked hi hsub hrow hc, answer_done, done_eq_seen]

/-- A READ on the open session 0x0000 (R57). -/
theorem exec_read_of_open {s : State} {f : Frame} {r : ObjRow} (hi : f.index < 0xF000) (hsub : f.sub ≠ 0) (hrow : rowOf f.key = some r)
    (h : arrives s f cmdRead = true) (h0 : f.session = 0) (hfull : openFull s f = false) (hc : checkRead (received s f) 0 f.key = stOk) :
    exec (.read f) s = .next (seen s ((received s f).respond f 0 stOk ((received s f).readPayload r f.key))) := by
  have hcmd : f.command = cmdRead := by
    simp only [arrives, Bool.and_eq_true, decide_eq_true_eq] at h
    exact h.2
  have hanswer : ∀ t p, answer f false (.done t stOk p) = t.respond f 0 stOk p := fun t p => by
    rw [← h0]
    rfl
  show execRead f s = _
  rw [execRead, commandRow, if_pos hcmd, request_of_open _ h h0 hfull, serveRead_of_checked hi hsub hrow hc, hanswer, done_eq_seen]

/-- A READ_DOMAIN on an opened session (R58). -/
theorem exec_readDomain_of_asks {s : State} {f : Frame} (h : asks s f cmdReadDomain = true) (hlen : f.body.length = 4) (hlow : 1 ≤ valueOf f)
    (hhigh : valueOf f ≤ 65536)
    (hc : checkDomain (inSession s f) (levelOf s f) f.key false (domSize f.key) (f.offset + valueOf f) = stOk) :
    exec (.readDomain f) s
      = .next (seen s (answer f true (.segs (inSession s f) f.offset ((inSession s f).readDom f.key f.offset (valueOf f))))) := by
  show execReadDomain f s = _
  rw [execReadDomain, commandRow_of_asks _ h (not_service (by decide)) (by decide), serveReadDomain_of_checked hlen hlow hhigh hc, done_eq_seen]

/-- Settles O10: each kind of read is answered with the content in the state that received it, and the queues, the flights, the Lanes and the
Bents are as they were. -/
theorem readsAnswerWithTheContent : Obligations.ReadsAnswerWithTheContent := by
  refine ⟨fun s f r hi hsub hrow => ⟨fun h hc => ⟨exec_read_of_asks hi hsub hrow h hc, ?_⟩,
    fun h h0 hfull hc => ⟨exec_read_of_open hi hsub hrow h h0 hfull hc, ?_⟩⟩,
    fun s f h hlen hlow hhigh hc => ⟨exec_readDomain_of_asks h hlen hlow hhigh hc, ?_⟩⟩
  · exact ((onlyCarried_inSession s f).trans (onlyCarried_answered f _ _ _)).units
  · exact ((onlyCarried_received s f).trans (onlyCarried_respond _ f _ _ _)).units
  · exact ((onlyCarried_inSession s f).trans (onlyCarried_segs f _ _ _)).units

end Sys2Proof.Machine
end

section
/-! O1, O4, O5, O6, O7, O8: what every step has in common. A command runs from the front of the queue; it stops, or leaves a state that the partners and
the subscribers have seen. Telling them moves no value but the counters of the traffic, so what R446 asks of a package that drained holds after
every step, and what reads otherwise than before is marked. -/

namespace Sys2Proof.Machine

/-- Settles O1: the front command runs on the state with the rest of the queue. -/
theorem stepRunsFrontCommand : Obligations.StepRunsFrontCommand := fun _ _ _ => rfl

/-- Settles O8: a quiet state is settled. -/
theorem quietStateIsSettled : Obligations.QuietStateIsSettled := fun _ h => settle_of_quiet h

/-! ### What telling the partners changes (R364, R366) -/

/-- Objects that are no counter of flits and lie below the counters of chapter 18. -/
def apartFromTraffic (k : Nat) : Bool := decide (k % 256 ≠ 0x15 ∧ k < 0xA01100)

/-- Every value but the counters of the traffic reads as before. -/
def KeepsValues (s t : State) : Prop := ∀ k, apartFromTraffic k = true → t.rd k = s.rd k

namespace KeepsValues

theorem refl (s : State) : KeepsValues s s := fun _ _ => rfl

theorem trans {s t u : State} (h : KeepsValues s t) (g : KeepsValues t u) : KeepsValues s u := fun k hk => (g k hk).trans (h k hk)

theorem each {α : Type} (f : State → α → State) (h : ∀ s a, KeepsValues s (f s a)) :
    ∀ (l : List α) (s : State), KeepsValues s (State.each f s l)
  | [], s => refl s
  | a :: l, s => (h s a).trans (each f h l (f s a))

theorem put (s : State) (o : Output) : KeepsValues s (s.put o) := fun _ _ => rfl

theorem torus (s : State) (p : Torus) : KeepsValues s { s with torus := p } := fun _ _ => rfl

theorem wr (s : State) {k : Nat} (v : Nat) (h : apartFromTraffic k = false) : KeepsValues s (s.wr k v) :=
  fun _ hj => s.rd_wr_of_ne v (fun he => Bool.noConfusion ((he ▸ hj).symm.trans h))

end KeepsValues

theorem keepsValues_kpc (s : State) (event unit n : Nat) : KeepsValues s (s.kpc event unit n) := by
  have hvalue : ∀ j, apartFromTraffic (O.kpcValue j) = false := fun j => by
    rw [apartFromTraffic, decide_eq_false_iff_not, O.kpcValue]; omega
  have hoverflow : apartFromTraffic O.kpcOverflow = false := by decide
  unfold State.kpc
  split
  · exact .refl s
  · refine .each _ (fun t j => ?_) _ s
    unfold State.bump
    dsimp only
    split
    · split
      · exact .wr t _ (hvalue j)
      · exact (KeepsValues.wr t _ (hvalue j)).trans (.wr _ _ hoverflow)
    · exact .refl t

theorem keepsValues_putFlit (s : State) (n kind vc seq : Nat) (b : Bytes) : KeepsValues s (s.putFlit n kind vc seq b) :=
  (KeepsValues.torus s _).trans (.put _ _)

theorem keepsValues_sendFlit (s : State) (n kind vc : Nat) (b : Bytes) : KeepsValues s (s.sendFlit n kind vc b) := by
  have hsent : apartFromTraffic (O.flitsSent n) = false := by
    rw [apartFromTraffic, decide_eq_false_iff_not, O.flitsSent]; omega
  exact (((KeepsValues.torus s _).trans (keepsValues_putFlit _ _ _ _ _ _)).trans (.wr _ _ hsent)).trans (keepsValues_kpc _ _ _ _)

theorem keepsValues_freeFlits (s : State) (n v k : Nat) : KeepsValues s (s.freeFlits n v k) := by
  unfold State.freeFlits
  dsimp only
  split
  · exact .refl s
  · exact .torus s _

theorem keepsValues_sendNext {s t : State} {n : Nat} (h : s.sendNext n = some t) : KeepsValues s t := by
  unfold State.sendNext at h
  dsimp only at h
  split at h
  · cases h
  · split at h
    · cases h; exact (KeepsValues.torus s _).trans (keepsValues_sendFlit _ _ _ _ _)
    · cases h
    · split at h
      · cases h
      · cases h
        split
        · exact ((KeepsValues.torus s _).trans (keepsValues_sendFlit _ _ _ _ _)).trans (keepsValues_freeFlits _ _ _ _)
        · exact (KeepsValues.torus s _).trans (keepsValues_sendFlit _ _ _ _ _)

theorem keepsValues_pumpTimes (n k : Nat) : ∀ s : State, KeepsValues s (s.pumpTimes n k) := by
  induction k with
  | zero => exact .refl
  | succ k ih =>
    intro s
    simp only [State.pumpTimes]
    cases h : s.sendNext n with
    | none => exact .refl s
    | some t => exact (keepsValues_sendNext h).trans (ih t)

theorem keepsValues_sendIdentity (s : State) (n kind : Nat) : KeepsValues s (s.sendIdentity n kind) := by
  unfold State.sendIdentity
  dsimp only
  split
  · exact ((KeepsValues.put s _).trans (.torus _ _)).trans (keepsValues_pumpTimes _ _ _)
  · exact .put s _

theorem keepsValues_noteTorus (s t : State) : KeepsValues t (noteTorus s t) := by
  unfold noteTorus
  dsimp only
  refine .trans ?_ (.each _ (fun u p => .torus u _) _ _)
  split
  · exact .refl t
  · refine .each _ (fun u n => ?_) _ _
    split
    · exact keepsValues_sendIdentity u n 3
    · exact .refl u

/-! ### What every step leaves -/

/-- Telling the partners and the subscribers keeps the start as the command left it. -/
theorem seen_start (s u : State) : (seen s u).start = u.walkDue.start := by
  obtain ⟨_, _, _, h⟩ := sentFrom_noteTorus s u.walkDue
  rw [seen, noteChanges, h]

theorem noteChanges_rd (s t : State) (k : Nat) : (noteChanges s t).rd k = t.rd k := rfl

/-- Telling the partners and the subscribers keeps every value but the counters of the traffic. -/
theorem seen_rd (s u : State) {k : Nat} (h : apartFromTraffic k = true) : (seen s u).rd k = u.walkDue.rd k := by
  rw [seen, noteChanges_rd, keepsValues_noteTorus s u.walkDue k h]

/-- Every step that answers a next state has told the partners and the subscribers. -/
theorem step_eq_seen {s t : State} (h : step s = .next t) : ∃ s' u, t = seen s' u := by
  unfold step at h
  split at h
  · exact ⟨s, tick s, (Host.Outcome.next.inj h).symm⟩
  · obtain ⟨u, hu⟩ := exec_ends _ _ t h
    exact ⟨_, u, hu⟩

/-! ### Walk mode after a drain (R446) -/

/-- Whether a package that runs is DRAINED with an excluded compute die. -/
def State.drainedAfterLoss (s : State) : Bool :=
  s.ready && decide (s.rd O.drainState = 2) && (natsFrom 0 4).any (fun d => decide (s.rd (O.dieState d) = 2))

theorem State.walkDue_eq (s : State) : s.walkDue = if s.drainedAfterLoss then s.enterWalk 0x0A else s := rfl

theorem mem_natsFrom {a n k : Nat} : k ∈ natsFrom a n ↔ a ≤ k ∧ k < a + n := by
  induction n generalizing a with
  | zero => simp only [natsFrom, List.not_mem_nil, false_iff]; omega
  | succ n ih => simp only [natsFrom, List.mem_cons, ih]; omega

theorem State.drainedAfterLoss_iff (s : State) :
    s.drainedAfterLoss = true ↔ s.start.phase = .ready ∧ s.rd O.drainState = 2 ∧ ∃ d, d < 4 ∧ s.rd (O.dieState d) = 2 := by
  simp only [State.drainedAfterLoss, State.ready, Bool.and_eq_true, decide_eq_true_eq, List.any_eq_true, mem_natsFrom, Nat.zero_le, true_and,
    Nat.zero_add, and_assoc]

theorem State.enterWalk_phase (s : State) (reason : Nat) : (s.enterWalk reason).start.phase = .walk := by
  unfold State.enterWalk
  dsimp only
  split
  · rw [State.wrAll_start, State.wrAll_start]
  · rw [State.wrAll_start]

/-- The reason of Walk mode after a drain reads back: it is no value of an unwritten object. -/
theorem State.enterWalk_drained_reason (s : State) : (s.enterWalk 0x0A).rd O.walkReason = 0x0A := by
  unfold State.enterWalk
  dsimp only [State.wrAll]
  rw [if_neg (by decide), State.rd_wr_of_ne _ _ (by decide), State.rd_wr_listed _ (by decide)]

/-- Settles O4: what every step leaves was seen, and `seen` turns a package that drained after the loss of a die to Walk mode. -/
theorem walkFollowsDrainAfterDieLoss : Obligations.WalkFollowsDrainAfterDieLoss := by
  refine ⟨fun s t _ hstep => ?_, fun s u hphase hdrain hdie => ?_⟩
  · obtain ⟨s', u, rfl⟩ := step_eq_seen hstep
    intro hphase hdrain d hd hdie
    have hkey : apartFromTraffic (O.dieState d) = true := by rw [apartFromTraffic, decide_eq_true_eq, O.dieState]; omega
    rw [seen_start] at hphase
    rw [seen_rd _ _ (by decide)] at hdrain
    rw [seen_rd _ _ hkey] at hdie
    cases hu : u.drainedAfterLoss with
    | true =>
      rw [State.walkDue_eq, if_pos hu, State.enterWalk_phase] at hphase
      cases hphase
    | false =>
      rw [State.walkDue_eq, hu, if_neg Bool.false_ne_true] at hphase hdrain hdie
      rw [u.drainedAfterLoss_iff.mpr ⟨hphase, hdrain, d, hd, hdie⟩] at hu
      cases hu
  · have hwalk : u.walkDue = u.enterWalk 0x0A := by rw [State.walkDue_eq, if_pos (u.drainedAfterLoss_iff.mpr ⟨hphase, hdrain, hdie⟩)]
    rw [seen_start, seen_rd _ _ (by decide), hwalk]
    exact ⟨State.enterWalk_phase u _, State.enterWalk_drained_reason u⟩

/-- Settles O5: at reset the package is off. -/
theorem walkRuleHoldsAtReset : Obligations.WalkRuleHoldsAtReset := fun h => nomatch h

/-! ### What a command leaves of the units -/

theorem State.walkDue_of_not_drained {u : State} (h : u.rd O.drainState ≠ 2) : u.walkDue = u := by
  rw [State.walkDue_eq, if_neg (fun hd => h (u.drainedAfterLoss_iff.mp hd).2.1)]

/-- Settles O7: short of Walk mode, what follows a command tells the partners, which reaches no unit, and marks subscriptions. -/
theorem seenLeavesTheUnits : Obligations.SeenLeavesTheUnits := by
  intro s u h
  obtain ⟨o, b, p, hsent⟩ := sentFrom_noteTorus s u
  rw [seen, State.walkDue_of_not_drained h, noteChanges, hsent]
  refine ⟨rfl, rfl, rfl, rfl, rfl, rfl, rfl, rfl, rfl, rfl, rfl, rfl, rfl, rfl, rfl, rfl, rfl, rfl, rfl, rfl, rfl, rfl, ?_⟩
  simp only [List.map_map]
  rfl

/-! ### Subscriptions (R62) -/

/-- The state with other sessions. -/
def State.withSessions (t : State) (l : List Session) : State := { t with mgmt := { t.mgmt with sessions := l } }

theorem view1_of_sessions (t : State) {l : List Session} (h : l.length = t.mgmt.sessions.length) (i j k : Nat) :
    view1 (t.withSessions l) i j k = view1 t i j k := by
  have hlen : (t.withSessions l).mgmt.sessions.length = t.mgmt.sessions.length := h
  have hfuses : (t.withSessions l).fuses = t.fuses := rfl
  have hdigest : (t.withSessions l).cutDigest = t.cutDigest := rfl
  simp only [view1, hlen, hfuses, hdigest]

theorem view3_of_sessions (t : State) (l : List Session) (k : Nat) : view3 (t.withSessions l) k = view3 t k := by
  have hcore : ∀ c, (t.withSessions l).core c = t.core c := fun _ => rfl
  have hqueue : ∀ q, (t.withSessions l).queue q = t.queue q := fun _ => rfl
  have hfree : ∀ q, (t.withSessions l).queueOccupancy q = t.queueOccupancy q := fun _ => rfl
  have hround : ∀ q, (t.withSessions l).roundSlots q = t.roundSlots q := fun _ => rfl
  have hbent : ∀ b, (t.withSessions l).bent b = t.bent b := fun _ => rfl
  simp only [view3, hcore, hqueue, hfree, hround, hbent]

/-- Of the sessions only their number is part of what an object reads as. -/
theorem viewValue_of_sessions (t : State) {l : List Session} (h : l.length = t.mgmt.sessions.length) (k : Nat) :
    viewValue (t.withSessions l) k = viewValue t k := by
  unfold viewValue
  dsimp only
  split
  case h_2 => exact view1_of_sessions t h _ _ k
  case h_4 => exact view3_of_sessions t l k
  all_goals rfl

theorem domBuilt_of_sessions (t : State) (l : List Session) (k : Nat) :
    (t.withSessions l).domBuilt k = t.domBuilt k := by
  unfold State.domBuilt
  rfl

theorem domSame_of_sessions (s t : State) (l : List Session) (k : Nat) :
    domSame s (t.withSessions l) k = domSame s t k := by
  unfold domSame
  rw [domBuilt_of_sessions]
  rfl

theorem objSame_noteChanges (s t : State) (k : Nat) : objSame s (noteChanges s t) k = objSame s t k := by
  have hnat : (noteChanges s t).readNat k = t.readNat k := by
    have hview : viewValue (noteChanges s t) k = viewValue t k := viewValue_of_sessions t (List.length_map _) k
    rw [State.readNat, State.readNat, hview, noteChanges_rd]
  have hdom : domSame s (noteChanges s t) k = domSame s t k := domSame_of_sessions s t _ k
  rw [objSame, objSame, hnat, hdom, noteChanges_rd]

/-- Settles O6: the marks are set where an object reads otherwise, and setting them changes no object. -/
theorem everyChangeMarksItsSubscriptions : Obligations.EveryChangeMarksItsSubscriptions := by
  intro i s t hexec e he b hb hnot
  obtain ⟨u, rfl⟩ := exec_ends i s t hexec
  rw [seen, objSame_noteChanges] at hnot
  obtain ⟨e', _, rfl⟩ := List.mem_map.mp he
  obtain ⟨b', _, rfl⟩ := List.mem_map.mp hb
  split at hnot
  · rename_i hsame
    rw [hsame] at hnot
    cases hnot
  · rw [if_neg ‹_›]

end Sys2Proof.Machine
end

section
/-! O3: every well-formed command completes, and a core that the package does not have stops the descriptor rows (R14; log 11). A row ends in a next
state, or names a unit and ends in one where the package has the unit. -/

namespace Sys2Proof.Machine

theorem completes_done (s u : State) : Completes (done s u) := ⟨_, rfl⟩

theorem completes_settled (s u : State) : Completes (settled s u) := ⟨_, rfl⟩

/-- A row of a unit completes where the package has the unit. -/
theorem completes_of_unit {p : Prop} [Decidable p] {o : Host.Outcome State Fault Refusal} (h : ¬p) (ho : Completes o) :
    Completes (if p then .fault .noSuchUnit else o) := by
  rw [if_neg h]
  exact ho

theorem completes_unit {n m : Nat} {o : Host.Outcome State Fault Refusal} (h : n < m) (ho : Completes o) :
    Completes (if m ≤ n then .fault .noSuchUnit else o) := completes_of_unit (Nat.not_le.mpr h) ho

theorem completes_ite {p : Prop} [Decidable p] {o q : Host.Outcome State Fault Refusal} (ho : Completes o) (hq : Completes q) :
    Completes (if p then o else q) := by
  split
  · exact ho
  · exact hq

/-- The counters of which a wrap can reach the block have their objects. -/
theorem counterKeys_of_wellFormed {level unit ctr : Nat} (h : (Instr.counterWrap level unit ctr).wellFormed = true) :
    ∃ v o w, counterKeys level unit ctr = some (v, o, w) := by
  simp only [Instr.wellFormed, Bool.or_eq_true, decide_eq_true_eq] at h
  unfold counterKeys
  split
  · exact ⟨_, _, _, rfl⟩
  · split
    · exact ⟨_, _, _, rfl⟩
    · exact ⟨_, _, _, if_pos (by omega)⟩

/-- Every well-formed command completes. -/
theorem completes_of_wellFormed (i : Instr) (s : State) (h : i.wellFormed = true) : Completes (exec i s) := by
  cases i <;> simp only [exec]
  case read | readDomain | writeDomainTimeout | subscribe | unsubscribe | openSession | closeSession | sessionIdleTimeout | serviceLockoutEnd |
      proxyResponse | eventSend | reqPost | rspTake | evtTake | restoreStored | counterClear | coreStart | coreStop | coreReset | coreMemoryWrite
      | coreFpStatusWrite | rngSeedWrite | queueCreate | queueClose | queueReopen | queueDelete | endpointTableWrite | arm | run | stageStop |
      disarm | relayOpen | relayClose | laneOpen | laneClose | laneReopen | laneDelete | allocMap | allocUnmap | vsFetch | resume | resolveCommit
      | resolveAbort | commitParentWrite | reshard | reshardCancel | activate | deactivate | declare | retract | dataStart | dataStop | clearClips
      | flowReset | routeRejoin | timeSet | hostLinkReset | slRetrain | rlcEnableWrite | faultReport | reportSend | pwrEnHigh | pwrEnLow | rstNLow
      | rstNHigh | startStepComplete | falseStart | restart | clearFalseStarts | eraseA | eraseB | verifyA | verifyB | bootImageWrite |
      inputInRange | inputOutOfRange | tripRelease | governorStep | counterFreeze | counterPreset | overflowClear | counterSelect | tagSeed |
      requestDeferred | hostLinkUp | pwrEnRejected | railsOutOfRegulation | implicationExpiry | tallyLinkChange => exact completes_done _ _
  case write | writeDomain | messageAccept | generationNotice | readyToken | fail | commit | abort | query | resumeMessage | commitWaitTimeout |
      decodeSlot | slotDecoded | portEnable | portDisable | portRetrain | clearHold | keepalive | remotePartnerTimeout | unreachableNotice | drain
      | undrain | packageTimeout | domainEnable | domainDisable | dieReset | serviceWrite => exact completes_settled _ _
  case nop | halt | wait | signal | fence | loop | branchFlag | branchX | xop | descriptorRetire | watchdog | moveLocal | moveBent | movePeer |
      moveTensor | mm | chainLoad | chainTransfer | tileClear | tileStore | tileStat | vadd | vsub | vmul | vfma | vmin | vmax | vminnum | vmaxnum
      | vneg | vabs | vcopysign | vcmp | vsel | vlogic | vlaneid | vcvti | vpack | vunpack | vquant | vload | vstore | vexp2 | vlog2 | vrcp |
      vrsqrt | vtanh | vreduce | vnormStats | vsoftmax | vlseUpdate | vsoftmaxApply | vlseFinal | rngCtx | vrand | vdropout | send | recv |
      contribute | probe | chWaitTimeout | ringWaitTimeout | recomputeRun | recomputeForce | dieTrainTimeout | dieTrainRetry | scarfFlit | dieRead
      | dieWrite | readData | writeAck | powerUpComplete | powerDownComplete | powerUpTimeout | lightDetect | lightLoss | helloTimeout |
      holdExpiry | flit | holdBaseRestore | pacerDecide | workItemComplete | stageDeadline | laneSend | batonReceive | vsFetchDone |
      reductionPacket | epochRefusal | rcHopTimeout | ringBlock | ingestFrame | beaconSend | scrubRead | bentTimeout | dieTimeout |
      relayRemoteClose => exact completes_unit (of_decide_eq_true h) (completes_settled _ _)
  case coreWaiting | invalidate | ptpSend | thermalTrip | glitchFiltered | ingestLinkChange =>
    exact completes_unit (of_decide_eq_true h) (completes_done _ _)
  case hello | identity | identityUpdate | nak | claim | dieLinkTestDone =>
    exact completes_unit (of_decide_eq_true (Bool.and_eq_true_iff.mp h).1) (completes_settled _ _)
  case lineNotice => exact completes_unit (of_decide_eq_true (Bool.and_eq_true_iff.mp (Bool.and_eq_true_iff.mp h).1).1) (completes_settled _ _)
  case intMessage => exact completes_unit (of_decide_eq_true (Bool.and_eq_true_iff.mp (Bool.and_eq_true_iff.mp h).1).1) (completes_done _ _)
  case invAck => exact completes_unit (of_decide_eq_true h) (completes_settled _ _)
  case packet => exact completes_unit (of_decide_eq_true h).1 (completes_settled _ _)
  case relayOpenRequest => exact completes_unit (of_decide_eq_true (Bool.and_eq_true_iff.mp h).2) (completes_done _ _)
  case lanePeerOpen => exact completes_unit (of_decide_eq_true h) (completes_done _ _)
  case optimizerLayerUpdate =>
    simp only [Instr.wellFormed, Bool.and_eq_true, decide_eq_true_eq] at h
    exact completes_of_unit (by omega) (completes_settled _ _)
  case rdmaTimeout =>
    simp only [Instr.wellFormed, Bool.and_eq_true, decide_eq_true_eq] at h
    refine completes_of_unit (by omega) ?_
    split
    · exact completes_done _ _
    · exact completes_ite (completes_settled _ _) (completes_done _ _)
  case rateRecovery =>
    simp only [Instr.wellFormed, Bool.and_eq_true, decide_eq_true_eq] at h
    exact completes_of_unit (by omega) (completes_ite (completes_done _ _) (completes_done _ _))
  case slotTransfer =>
    refine completes_ite (completes_done _ _) ?_
    split
    · exact completes_settled _ _
    · exact completes_settled _ _
  case clipNotice => exact completes_ite (completes_done _ _) (completes_ite (completes_settled _ _) (completes_settled _ _))
  case cursorMessage => exact completes_ite (completes_done _ _) (completes_ite (completes_done _ _) (completes_settled _ _))
  case ptpMessage =>
    simp only [Instr.wellFormed, Bool.or_eq_true, decide_eq_true_eq] at h
    exact completes_of_unit (by omega) (completes_ite (completes_done _ _) (completes_done _ _))
  case bootSelAccepted =>
    simp only [Instr.wellFormed, Bool.or_eq_true, decide_eq_true_eq] at h
    exact completes_of_unit (by omega) (completes_done _ _)
  case trainStepTimeout port =>
    simp only [Instr.wellFormed, Bool.or_eq_true, decide_eq_true_eq] at h
    unfold execTrainStepTimeout
    dsimp only
    split
    · exact completes_done _ _
    · exact completes_unit (by omega) (completes_settled _ _)
  case torusTrainingStepDone port _ _ =>
    simp only [Instr.wellFormed, Bool.or_eq_true, decide_eq_true_eq] at h
    unfold execTorusTrainingStepDone
    split
    · exact completes_done _ _
    · exact completes_unit (by omega) (completes_settled _ _)
  case counterWrap level unit ctr =>
    obtain ⟨v, o, w, hkeys⟩ := counterKeys_of_wellFormed h
    rw [execCounterWrap, hkeys]
    exact completes_done _ _

/-- Settles O3: a well-formed command names units that the package has; a descriptor row of a core past the last one stops. -/
theorem onlyMissingUnitsStopACommand : Obligations.OnlyMissingUnitsStopACommand := by
  refine ⟨fun i s h => completes_of_wellFormed i s h, fun s c reads hc i hi => ?_⟩
  have hrow : ∀ u, settledRow c s u = .fault .noSuchUnit := fun u => if_pos hc
  simp only [List.mem_cons, List.not_mem_nil, or_false] at hi
  rcases hi with rfl | rfl | rfl | rfl | rfl | rfl | rfl | rfl | rfl | rfl | rfl | rfl | rfl | rfl | rfl | rfl | rfl | rfl | rfl | rfl | rfl | rfl | rfl
  all_goals exact hrow _

end Sys2Proof.Machine
end

section
/-! O2: an idle step passes one microsecond (log 2). What goes on by itself on an empty queue, and what tells the partners and the subscribers, takes
no time and queues no command. -/

namespace Sys2Proof.Machine

/-- The time and the queue are as they were. -/
structure SameClock (s t : State) : Prop where
  now : t.now = s.now
  pending : t.pending = s.pending

namespace SameClock

theorem refl (s : State) : SameClock s s := ⟨rfl, rfl⟩

theorem trans {s t u : State} (h : SameClock s t) (g : SameClock t u) : SameClock s u := ⟨g.now.trans h.now, g.pending.trans h.pending⟩

/-- The last step of a course keeps the clock, and what leads to it does. -/
theorem last {s t u : State} (g : SameClock t u) (h : SameClock s t) : SameClock s u := h.trans g

theorem each {α : Type} (f : State → α → State) (h : ∀ s a, SameClock s (f s a)) :
    ∀ (l : List α) (s : State), SameClock s (State.each f s l)
  | [], s => refl s
  | a :: l, s => (h s a).trans (each f h l (f s a))

theorem ite {s t u : State} {p : Prop} [Decidable p] (ht : SameClock s t) (hu : SameClock s u) : SameClock s (if p then t else u) := by
  split
  · exact ht
  · exact hu

theorem of_carried {s t : State} : OnlyCarried s t → SameClock s t := by
  rintro ⟨_, _, _, _, _, rfl⟩
  exact ⟨rfl, rfl⟩

theorem of_objs {s t : State} {o : Map Nat} (h : t = { s with objs := o }) : SameClock s t := ⟨State.now_of_objs h, State.pending_of_objs h⟩

theorem wrAll (s : State) (l : List (Nat × Nat)) : SameClock s (s.wrAll l) := of_objs (State.wrAll_objs s l)

end SameClock

/-! ### The clocks and the counters -/

theorem sameClock_tickTime (s : State) : SameClock s s.tickTime := ⟨rfl, rfl⟩

theorem sameClock_tickDie (s : State) (d : Nat) : SameClock s (s.tickDie d) := SameClock.ite (.refl s) ⟨rfl, rfl⟩

theorem sameClock_bump (s : State) (value overflow bit n : Nat) : SameClock s (s.bump value overflow bit n) := .of_objs (State.bump_objs s _ _ _ _)

theorem sameClock_tickCounter (s : State) (k w : Nat) : SameClock s (s.tickCounter k w) := by
  unfold State.tickCounter
  dsimp only
  split
  · exact SameClock.ite (.refl s) (sameClock_bump s _ _ _ _)
  · exact SameClock.ite (.refl s) (sameClock_bump s _ _ _ _)
  · exact SameClock.ite (.refl s) (sameClock_bump s _ _ _ _)
  · exact .refl s

theorem sameClock_tickCounters (s : State) : SameClock s s.tickCounters :=
  SameClock.ite (.refl s) (.each _ (fun t _ => sameClock_tickCounter t _ _) _ s)

theorem sameClock_tickStarve (s : State) : SameClock s s.tickStarve := by
  refine SameClock.each _ (fun t _ => ?_) _ s
  exact SameClock.ite ⟨rfl, rfl⟩ (.refl t)

/-! ### Power (R439, R452) -/

theorem sameClock_completeOne (s : State) (o : Outstanding) (status : Nat) : SameClock s (s.completeOne o status) :=
  .of_carried (((OnlyCarried.mgmt s _).trans (onlyCarried_send _ _ _ _)).trans (.mgmt _ _))

theorem sameClock_complete (s : State) (w : Waits) (status : Nat) : SameClock s (s.complete w status) :=
  .each _ (fun t o => sameClock_completeOne t o status) _ s

theorem sameClock_trainLink (s : State) (n cap : Nat) (single : Bool) : SameClock s (s.trainLink n cap single) := by
  unfold State.trainLink
  dsimp only
  exact SameClock.ite (.refl s) (SameClock.ite ⟨rfl, rfl⟩ ⟨rfl, rfl⟩)

theorem sameClock_trainDie (s : State) (d : Nat) : SameClock s (s.trainDie d) := by
  refine SameClock.each _ (fun t n => ?_) _ s
  exact SameClock.ite (SameClock.last (sameClock_trainLink _ n 8 false) ⟨rfl, rfl⟩) (.refl t)

theorem sameClock_beginUp (s : State) (d : Nat) : SameClock s (s.beginUp d) := by
  unfold State.beginUp
  dsimp only
  exact SameClock.ite (SameClock.last (sameClock_trainDie _ _) ⟨rfl, rfl⟩) ⟨rfl, rfl⟩

theorem sameClock_powerNext : ∀ (n : Nat) (s : State), SameClock s (s.powerNext n)
  | 0, s => .refl s
  | n + 1, s => by
    have ih := sameClock_powerNext n
    unfold State.powerNext
    split
    · exact .refl s
    · next d r _ =>
      have hnext : SameClock s ({ s with start := { s.start with upQueue := r } } : State) := ⟨rfl, rfl⟩
      dsimp only
      refine SameClock.ite (hnext.trans (ih _)) (SameClock.ite (SameClock.ite (.refl s) ?_) (SameClock.ite ?_ (.refl s)))
      · exact (hnext.trans (sameClock_complete _ _ _)).trans (ih _)
      · exact hnext.trans (sameClock_beginUp _ _)

/-! ### Walk mode and the start (R446, R461) -/

theorem sameClock_endWaits (s : State) : SameClock s s.endWaits := by
  refine .each _ (fun t o => ?_) _ s
  split
  · exact sameClock_completeOne t o _
  · exact sameClock_completeOne t o _
  · exact .refl t

theorem sameClock_setRing (s : State) (d link : Nat) (down : Bool) : SameClock s (s.setRing d link down) := by
  unfold State.setRing
  dsimp only
  exact SameClock.ite (.refl s) ⟨rfl, rfl⟩

theorem sameClock_portGone (s : State) (n : Nat) : SameClock s (s.portGone n) := by
  unfold State.portGone
  dsimp only
  have hring : SameClock s (if 1 < s.dimSize (n / 2) then (s.wr (O.partnerId n) 0xFFFF).setRing (n / 2) (s.portLink n) true
      else s.wr (O.partnerId n) 0xFFFF) :=
    SameClock.ite (SameClock.last (sameClock_setRing _ _ _ _) ⟨rfl, rfl⟩) ⟨rfl, rfl⟩
  exact SameClock.ite (hring.trans ⟨rfl, rfl⟩) hring

theorem sameClock_domainsOff (s : State) : SameClock s (State.each (fun (t : State) (d : Nat) =>
    if d = domHostOptics ∨ d = domAlwaysOn then t
    else (t.wr (O.domainState d) (if t.domain d = domExcluded then domExcluded else domOff)).wr (O.domainPending d) 0) s allDomains) := by
  refine SameClock.each _ (fun t d => ?_) _ s
  exact SameClock.ite (.refl t) ⟨rfl, rfl⟩

theorem sameClock_darken (s : State) : SameClock s s.darken := by
  have hdomains := ((sameClock_endWaits s).trans (.each State.portGone sameClock_portGone (natsFrom 0 6) _)).trans (sameClock_domainsOff _)
  unfold State.darken
  constructor <;> dsimp only
  · rw [State.wrAll_now]
    exact hdomains.now
  · rw [State.wrAll_pending]
    exact hdomains.pending

theorem sameClock_start (s : State) (r : Start) : SameClock s { s with start := r } := ⟨rfl, rfl⟩

theorem sameClock_enterWalk (s : State) (reason : Nat) : SameClock s (s.enterWalk reason) := by
  unfold State.enterWalk
  dsimp only
  have hwalk := fun r l => ((sameClock_darken s).trans (sameClock_start s.darken r)).trans (.wrAll _ l)
  exact SameClock.ite (SameClock.last (.wrAll _ _) (hwalk _ _)) (hwalk _ _)

theorem sameClock_walkDue (s : State) : SameClock s s.walkDue := SameClock.ite (sameClock_enterWalk s _) (.refl s)

theorem sameClock_enterStartStep_two (s : State) : SameClock s (s.enterStartStep 2) := by
  unfold State.enterStartStep
  dsimp only
  rw [if_pos rfl]
  exact SameClock.ite ⟨rfl, rfl⟩ (SameClock.last (sameClock_enterWalk _ _) ⟨rfl, rfl⟩)

theorem sameClock_beginStart (s : State) (failed : Option Nat) : SameClock s (s.beginStart 2 failed) := by
  unfold State.beginStart
  dsimp only
  have hmark : SameClock s (if s.mgmt.restoreMark then
      { s with objs := s.objs.keep (fun k => !isRestored k), mgmt := { s.mgmt with restoreMark := false } } else s) :=
    SameClock.ite ⟨rfl, rfl⟩ (.refl s)
  exact SameClock.last (sameClock_enterStartStep_two _) (SameClock.last (.wrAll _ _) ⟨hmark.now, hmark.pending⟩)

theorem sameClock_restartOver (s : State) : SameClock s s.restartOver := SameClock.ite (sameClock_beginStart s none) (.refl s)

/-! ### Reads that waited for a pause (R319) -/

theorem sameClock_startRead {s t : State} {k : Nat} (h : s.startRead k = some t) : SameClock s t := by
  unfold State.startRead at h
  dsimp only at h
  split at h
  · cases h
  · split at h
    · cases h
    · cases h
      exact ⟨rfl, rfl⟩

theorem sameClock_startReads (k : Nat) : ∀ (n : Nat) (s : State), SameClock s (s.startReads k n)
  | 0, s => .refl s
  | n + 1, s => by
    unfold State.startReads
    split
    · exact .refl s
    · next h => exact (sameClock_startRead h).trans (sameClock_startReads k n _)

theorem sameClock_startAll (s : State) : SameClock s s.startAll := .each _ (fun t k => sameClock_startReads k 16 t) _ s

theorem sameClock_endPauses (s : State) : SameClock s s.endPauses :=
  SameClock.ite (SameClock.last (sameClock_startAll _) ⟨rfl, rfl⟩) (.refl s)

/-! ### The step -/

/-- One microsecond passes, and nothing that goes on by itself takes time. -/
theorem sameClock_tick (s : State) : SameClock { s with now := s.now + 1 } (tick s) := by
  have hclocks : SameClock { s with now := s.now + 1 } (if ({ s with now := s.now + 1 } : State).served then
      (State.each (fun (u : State) (d : Nat) => u.tickDie d) ({ s with now := s.now + 1 } : State).tickTime (natsFrom 0 4)).tickCounters.tickStarve
    else { s with now := s.now + 1 }) := by
    refine SameClock.ite ?_ (.refl _)
    exact (((sameClock_tickTime _).trans (.each _ sameClock_tickDie _ _)).trans (sameClock_tickCounters _)).trans (sameClock_tickStarve _)
  exact ((hclocks.trans (sameClock_powerNext _ _)).trans (sameClock_restartOver _)).trans (sameClock_endPauses _)

theorem sameClock_noteChanges (s t : State) : SameClock t (noteChanges s t) := ⟨rfl, rfl⟩

theorem sameClock_seen (s u : State) : SameClock u (seen s u) :=
  ((sameClock_walkDue u).trans (.of_carried (.of_sentFrom (sentFrom_noteTorus s u.walkDue)))).trans (sameClock_noteChanges s _)

/-- Settles O2: on an empty queue the step is the tick, seen. -/
theorem idleStepPassesOneMicrosecond : Obligations.IdleStepPassesOneMicrosecond := by
  intro s hempty
  have hclock := (sameClock_tick s).trans (sameClock_seen s (tick s))
  refine ⟨seen s (tick s), ?_, hclock.now, hclock.pending.trans hempty⟩
  rw [step, hempty, idle, done_eq_seen]

end Sys2Proof.Machine
end

section
/-! O60: the machine after reset, field by field (R6, R437, R444, R455; logs 6 and 7). Nothing is listed, so every unit reads as one that was never used
and every value as the default of its table. -/

namespace Sys2Proof.Machine

/-- After reset every object reads its default. -/
theorem reset_rd (k : Nat) : State.reset.rd k = objDefault k := rfl

/-- Settles O60: what no entry lists reads as unused. -/
theorem resetIsAsDelivered : Obligations.ResetIsAsDelivered :=
  ⟨rfl, rfl, rfl, rfl, fun _ => rfl, fun _ => rfl, fun _ => rfl, by decide +kernel, by decide, by decide, by decide +kernel, by decide, reset_rd⟩

end Sys2Proof.Machine
end

section
/-! O12, O13, O14, O15, O16: the management transport (chapter 03). A request that the package takes is answered with what its command comes to in the state
that received it, whose sessions, transfers and time are those of the state before. -/

namespace Sys2Proof.Machine

/-! ### What receiving a request keeps -/

section
variable {s : State} {f : Frame} {cmd : Nat}

theorem take_of_arrives (h : arrives s f cmd = true) : (takeFrame s f).isSome = true := by
  simp only [arrives, Bool.and_eq_true] at h
  exact h.1.1.1.1.1.2

theorem arrives_of_asks (h : asks s f cmd = true) : arrives s f cmd = true := by
  simp only [asks, Bool.and_eq_true] at h
  exact h.1.1

theorem take_of_asks (h : asks s f cmd = true) : (takeFrame s f).isSome = true := take_of_arrives (arrives_of_asks h)

theorem received_now (s : State) (f : Frame) : (received s f).now = s.now := inSession_now s f

/-- The session that a request names is found with the time of the request as that of its last frame (R57). -/
theorem State.session?_modSession (s : State) (i : Nat) (g : Session → Session) (hg : ∀ e, (g e).id = e.id) :
    (s.modSession i g).session? i = (s.session? i).map g := by
  have hid : (fun e : Session => decide (e.id = i)) ∘ (fun e => if e.id = i then g e else e) = fun e => decide (e.id = i) := by
    funext e
    by_cases he : e.id = i <;> simp [he, hg]
  simp only [State.session?, State.modSession, List.find?_map, hid]
  cases h : s.mgmt.sessions.find? (fun e => decide (e.id = i)) with
  | none => rfl
  | some e =>
    have he : e.id = i := by simpa using List.find?_some h
    simp only [Option.map_some, he, if_true]

theorem inSession_session? {e : Session} (h : (takeFrame s f).isSome = true) (he : s.session? f.session = some e) :
    (inSession s f).session? f.session = some { e with lastFrame := s.now } := by
  have hreceived : (received s f).session? f.session = some e := by simpa only [State.session?, received_sessions s f h] using he
  rw [inSession, State.session?_modSession _ _ (fun e => { e with lastFrame := s.now }) (fun _ => rfl), hreceived]
  rfl

theorem inSession_transfers (h : (takeFrame s f).isSome = true) : (inSession s f).mgmt.transfers = s.mgmt.transfers :=
  received_transfers s f h

end

/-! ### SERVICE_WRITE (R64) -/

/-- A payload that meets not every condition of R64, without a lockout, is a failure. -/
theorem serveService_of_refused {s : State} {f : Frame} (level : Nat) (hlock : ∀ u, s.mgmt.lockedUntil = some u → u ≤ s.now)
    (hacc : s.serviceAccepts f = false) : serveService f s level = .done s.serviceFails stLevel [] := by
  have hopen : s.mgmt.lockedUntil.elim false (fun u => decide (s.now < u)) = false := by
    cases hu : s.mgmt.lockedUntil with
    | none => rfl
    | some u => exact decide_eq_false (Nat.not_lt.mpr (hlock u hu))
  simp only [serveService, hopen, hacc, Bool.not_false, Bool.false_eq_true, if_false, if_true]

/-- Settles O15: an accepted service write advances the nonce and applies its value, any other is a failure; the end of the lockout clears it. -/
theorem serviceWritesAndLockout : Obligations.ServiceWritesAndLockout := by
  have hlocked : ∀ {s : State} (f : Frame), (∀ u, s.mgmt.lockedUntil = some u → u ≤ s.now) →
      ∀ u, (inSession s f).mgmt.lockedUntil = some u → u ≤ (inSession s f).now := fun f h u hu => by
    rw [inSession_lockedUntil] at hu
    rw [inSession_now]
    exact h u hu
  refine ⟨fun s f ha hc hlock _ hlow hhigh hlen hacc => ⟨fun hi hcheck => ?_, fun hi => ?_⟩, fun s f ha hc hlock hacc => ?_, fun s u hu hnow => ?_⟩
  · rw [execServiceWrite_of_asks ha hc, serveService_of_accepts _ (hlocked f hlock) hacc hlen hlow hhigh, applyService_of_checked hi hcheck]
  · rw [execServiceWrite_of_asks ha hc, serveService_of_accepts _ (hlocked f hlock) hacc hlen hlow hhigh, applyService, if_pos hi]
    rfl
  · rw [execServiceWrite_of_asks ha hc, serveService_of_refused _ (hlocked f hlock) hacc]
    rfl
  · show execServiceLockoutEnd s = _
    simp only [execServiceLockoutEnd, serviceLockoutEnd, hu, hnow, if_true, done_eq_seen]

/-! ### WRITE_DOMAIN (R59) -/

theorem execWriteDomain_of_asks {s : State} {f : Frame} (h : asks s f cmdWriteDomain = true) :
    exec (.writeDomain f) s
      = .next (seen s (answer f true (serveWriteDomain anyDomainEffect f (inSession s f) (levelOf s f))).settle) := by
  show execWriteDomain f s = _
  rw [execWriteDomain, commandRow_of_asks _ h (not_service (by decide)) (by decide), settled_eq_seen]

theorem asks_of_writesWhole {s : State} {f : Frame} (h : writesWhole s f = true) : asks s f cmdWriteDomain = true := by
  simp only [writesWhole, Bool.and_eq_true] at h
  exact h.1.1.1.1

/-- The DOMAIN objects of chapter 11 have no rule of their own: a write stores its bytes. -/
theorem anyDomainEffect_of_reduction (s : State) {k : Nat} (off : Nat) (bs : Bytes) (hlo : 0x5000 ≤ keyIndex k) (hhi : keyIndex k < 0x6000) :
    anyDomainEffect s k off bs = .done (storeBytes s k off bs) stOk [] := by
  have hbent : ∀ o, isBentObj o k = false := fun o => by
    simp only [isBentObj, inBentBlock, Bool.and_eq_false_iff, decide_eq_false_iff_not]; omega
  have hne : ∀ o, ¬(0x5000 ≤ keyIndex o ∧ keyIndex o < 0x6000) → k ≠ o := fun o ho he => ho (he ▸ ⟨hlo, hhi⟩)
  have hboot : isBootImage k = false := by
    simp only [isBootImage, Bool.or_eq_false_iff, decide_eq_false_iff_not]
    exact ⟨hne _ (by decide), hne _ (by decide)⟩
  simp only [anyDomainEffect, hbent, hboot, hne O.allocRequest (by decide), hne O.clipList (by decide),
    show ¬(keyIndex k = 0x8013 ∨ keyIndex k = 0x8014) by omega, Bool.false_eq_true, if_false]

/-- A first frame that is not the last is kept, and nothing is answered. -/
theorem serveWriteDomain_first (effect : DomainEffect) {s : State} {f : Frame} (level : Nat) (hl : f.isLast = false)
    (hnew : s.mgmt.transfers.all (fun x => !(decide (x.session = f.session) && decide (x.seq = f.seq))) = true) :
    serveWriteDomain effect f s level = .silent { s with mgmt := { s.mgmt with transfers := s.mgmt.transfers ++
      [{ session := f.session, seq := f.seq, carrier := f.carrier, source := f.source, station := f.ether.src, flags := f.flags,
         key := f.key, began := s.now, parts := [(f.offset, f.body)], stop := none }] } } := by
  have hfind : s.mgmt.transfers.find? (fun x => decide (x.session = f.session) && decide (x.seq = f.seq)) = none := by
    rw [List.find?_eq_none]
    intro x hx
    have := List.all_eq_true.mp hnew x hx
    simpa [Decidable.imp_iff_not_or] using this
  simp only [serveWriteDomain, dropTransfer_none hnew, hfind, Option.getD_none, ne_eq, not_true_eq_false, hl, Bool.false_eq_true, if_false,
    List.nil_append]

theorem answer_silent (f : Frame) (t : State) : answer f true (.silent t) = t := rfl

/-- Settles O12: a whole transfer has the effect of its object, a first part is kept, a transfer that has run out of time is answered STATE. -/
theorem writeDomainAppliesWholeTransfers : Obligations.WriteDomainAppliesWholeTransfers := by
  refine ⟨fun s f h => ⟨?_, fun hlo hhi => ?_⟩, fun s f ha hl hnew => ?_, fun s x hx hdue => ?_⟩
  · rw [execWriteDomain_of_asks (asks_of_writesWhole h), serveWriteDomain_of_writesWhole _ h]
  · rw [execWriteDomain_of_asks (asks_of_writesWhole h), serveWriteDomain_of_writesWhole _ h, anyDomainEffect_of_reduction _ _ _ hlo hhi]
    rfl
  · have htransfers := inSession_transfers (take_of_asks ha)
    rw [execWriteDomain_of_asks ha, serveWriteDomain_first _ _ hl (by rw [htransfers]; exact hnew), answer_silent, htransfers]
    simp only [inSession_now]
  · show execWriteDomainTimeout x.session x.seq s = _
    have helapsed : s.elapsed x.began 100000 = true := decide_eq_true hdue
    simp only [execWriteDomainTimeout, writeDomainTimeout, hx, helapsed, Bool.not_true, Bool.false_eq_true, if_false, done_eq_seen]

/-! ### Sessions (R57) -/

/-- OPEN_SESSION of a level, with room for the session. -/
theorem request_of_openSession {s : State} {f : Frame} (serve : State → Nat → Served) (h : arrives s f cmdOpenSession = true) (h0 : f.session = 0)
    (hfull : openFull s f = false) : request s f serve = answer f false (serveOpen (received s f) f) := by
  have hcmd : f.command = cmdOpenSession := by
    simp only [arrives, Bool.and_eq_true, decide_eq_true_eq] at h
    exact h.2
  rw [request_of_arrives serve h, dispatch_of_arrives serve h (not_service (by decide)), if_pos h0, openRequest,
    received_openFull s f f (take_of_arrives h), hfull, if_neg Bool.false_ne_true, if_pos hcmd]

/-- Settles O13: an id is granted at the level that asker and carrier allow; a session closes on its command and when it has been idle. -/
theorem sessionsOpenAndClose : Obligations.SessionsOpenAndClose := by
  refine ⟨fun s f h h0 hlen hlevel hfull hroom => ?_, fun s f h => ?_, fun s id e he hidle => ?_⟩
  · have hcmd : f.command = cmdOpenSession := by
      simp only [arrives, Bool.and_eq_true, decide_eq_true_eq] at h
      exact h.2
    have hsessions := received_sessions s f (take_of_arrives h)
    rw [valueOf] at hlevel
    show execOpenSession f s = _
    rw [execOpenSession, commandRow, if_pos hcmd, request_of_openSession _ h h0 hfull, serveOpen, if_neg (not_not_intro hlen),
      if_neg (Nat.not_lt.mpr hlevel), if_neg (by rw [hsessions]; omega), done_eq_seen]
    simp only [answer, State.free, received_now, valueOf]
  · show execCloseSession f s = _
    rw [execCloseSession, commandRow_of_asks _ h (not_service (by decide)) (by decide), serveClose, answer_done, done_eq_seen]
  · show execSessionIdleTimeout id s = _
    have helapsed : s.elapsed e.lastFrame (s.rd O.sessionIdleLimit * 1000000) = true := decide_eq_true hidle
    simp only [execSessionIdleTimeout, sessionIdle, he, helapsed, if_true, done_eq_seen]

/-! ### Subscriptions and events (R62) -/

/-- An object may be followed where a READ finds it, or finds it a DOMAIN. -/
theorem readable_of_mem {st : Nat} (h : st ∈ [stOk, stType]) : ¬(st ≠ stOk ∧ st ≠ stType) := by
  simp only [List.mem_cons, List.not_mem_nil, or_false] at h
  exact fun hn => h.elim hn.1 hn.2

section
variable {s : State} {f : Frame}

theorem execSubscribe_of_asks {e : Session} (h : asks s f cmdSubscribe = true) (he : s.session? f.session = some e)
    (hread : checkRead (inSession s f) (levelOf s f) f.key ∈ [stOk, stType]) (hnew : ∀ b ∈ e.subs, b.key ≠ f.key) (hroom : e.subs.length < 256) :
    exec (.subscribe f) s = .next (seen s (answered f
      ((inSession s f).modSession f.session (fun x => { x with subs := x.subs ++ [⟨f.key, false, none⟩] })) stOk [])) := by
  have hfind := inSession_session? (take_of_asks h) he
  have hany : e.subs.any (fun b => decide (b.key = f.key)) = false := by
    rw [List.any_eq_false]
    exact fun b hb => by simpa using hnew b hb
  show execSubscribe f s = _
  rw [execSubscribe, commandRow_of_asks _ h (not_service (by decide)) (by decide), done_eq_seen]
  simp only [serveSubscribe, readable_of_mem hread, hfind, hany, Nat.not_le.mpr hroom, Bool.false_eq_true, if_false, answer_done,
    State.session?_id he]

theorem execUnsubscribe_of_asks (h : asks s f cmdUnsubscribe = true)
    (hread : checkRead (inSession s f) (levelOf s f) f.key ∈ [stOk, stType]) :
    exec (.unsubscribe f) s = .next (seen s (answered f
      ((inSession s f).modSession f.session (fun x => { x with subs := x.subs.filter (fun b => decide (b.key ≠ f.key)) })) stOk [])) := by
  show execUnsubscribe f s = _
  rw [execUnsubscribe, commandRow_of_asks _ h (not_service (by decide)) (by decide), done_eq_seen]
  simp only [serveUnsubscribe, readable_of_mem hread, if_false, answer_done]

end

/-- The event of a changed object is due: its subscription is marked, a millisecond has passed, no write of the session waits for its answer. -/
theorem eventSend_of_due {s : State} {id k : Nat} {e : Session} {b : Sub} (he : s.session? id = some e)
    (hb : e.subs.find? (fun b => decide (b.key = k)) = some b) (hdirty : b.dirty = true) (hlast : ∀ t, b.lastSent = some t → t + 1000 ≤ s.now)
    (hserved : s.served = true) (hanswered : s.writeUnanswered id = false) :
    eventSend id k s =
      (let sent := e.subs.map (fun x => if x.key = k then { x with dirty := false, lastSent := some s.now } else x)
       if e.carrier = .host then
         if 64 ≤ e.queue.length then
           (s.modSession id (fun x => { x with subs := sent, count := x.count + 1, overflow := true })).add O.eventsDropped 1
         else State.refillEvents (s.modSession id (fun x => { x with subs := sent, count := x.count + 1, queue := x.queue ++ [eventFrame s e k] })) 1
       else (s.modSession id (fun x => { x with subs := sent, count := x.count + 1 })).send e.carrier e.source (eventFrame s e k)) := by
  have helapsed : b.lastSent.elim true (fun t => s.elapsed t 1000) = true := by
    cases ht : b.lastSent with
    | none => rfl
    | some t => exact decide_eq_true (hlast t ht)
  simp only [eventSend, he, hb, hdirty, helapsed, hserved, hanswered, Bool.not_true, Bool.or_self, Bool.false_eq_true, if_false]

/-- Settles O14: a subscription is added and removed by its command, and an event that is due goes out by the carrier of its session. -/
theorem subscriptionsAndEvents : Obligations.SubscriptionsAndEvents := by
  refine ⟨fun s f e => execSubscribe_of_asks, fun s f => execUnsubscribe_of_asks, fun s id index sub e b he hb hdirty hlast hserved hanswered => ?_⟩
  have hevent := eventSend_of_due he hb hdirty hlast hserved hanswered
  have hexec : exec (.eventSend id index sub) s = done s (eventSend id (index * 256 + sub) s) := rfl
  refine ⟨fun hc => ?_, fun hc hfull => ?_, fun hc hroom => ?_⟩
  · rw [hexec, hevent, done_eq_seen]
    simp only [hc, if_false]
  · rw [hexec, hevent, done_eq_seen]
    simp only [hc, hfull, if_true]
  · rw [hexec, hevent, done_eq_seen]
    simp only [hc, Nat.not_le.mpr hroom, if_true, if_false]

/-! ### The host window and the way of a proxied request (R55, R56, R60) -/

/-- A frame that the host posts in a free slot stands in it. -/
theorem reqPost_one {s : State} {f : Frame} {mask : Nat} (hreach : s.hostReaches = true) (hcarrier : f.carrier = .host) (hslot : f.slot < 16)
    (hmask : mask.testBit f.slot = true) (hfree : ∀ p ∈ s.mgmt.requests, p.1 ≠ f.slot) :
    reqPost [f] mask s = { s with mgmt := { s.mgmt with requests := s.mgmt.requests ++ [(f.slot, f)] } } := by
  have hall : s.mgmt.requests.all (fun p => decide (p.1 ≠ f.slot)) = true := List.all_eq_true.mpr (fun p hp => decide_eq_true (hfree p hp))
  simp only [reqPost, hreach, Bool.not_true, Bool.false_eq_true, if_false, State.each, hcarrier, hslot, hmask, hall, decide_true,
    Bool.and_self, if_true]

/-- A response that ends a proxied request goes back on the carrier it entered by. -/
theorem proxyResponse_of_proxied {s : State} {f : Frame} {p : Proxy} (hready : s.start.phase = .ready) (hcarrier : f.carrier = .torus)
    (hintact : f.intact = true) (hversion : f.version = 1) (hkind : f.kind = 2) (hstatus : f.status ≠ stDeferred) (hcmd : f.command ≠ cmdOpenSession)
    (hp : s.mgmt.proxies.find? (fun p => decide (p.seq = f.seq) && decide (p.dest = f.source) && decide (p.session = f.session)) = some p) :
    proxyResponse f s =
      (let t := (s.trace f).add O.framesReceived 1
       ({ t with mgmt := { t.mgmt with proxies := t.mgmt.proxies.erase p } } : State).send p.carrier p.source
        (Frame.seal { f with carrier := p.carrier, dest := p.source, ether := { Ether.none with src := p.station } })) := by
  have hrun : s.ready = true := decide_eq_true hready
  have hfind : ((s.trace f).add O.framesReceived 1).mgmt.proxies.find? (fun p => decide (p.seq = f.seq) && decide (p.dest = f.source) &&
      (decide (p.session = f.session) || decide (f.command = cmdOpenSession))) = some p := by
    rw [State.add_mgmt, show (s.trace f).mgmt.proxies = s.mgmt.proxies from rfl]
    simpa only [hcmd, decide_false, Bool.or_false] using hp
  have hanswer : f.kind = 2 ∨ f.kind = 3 ∨ f.kind = 5 := .inl hkind
  have hmore : (decide (f.status = stDeferred ∧ f.kind = 2) || decide (f.kind = 5 ∧ f.isLast = false)) = false := by simp [hstatus, hkind]
  simp only [proxyResponse, hrun, hcarrier, hintact, hversion, hanswer, hfind, hmore, ne_eq, not_true_eq_false, decide_false, Bool.not_true,
    Bool.or_self, Bool.false_eq_true, if_false, if_true]

/-- Settles O16: slots fill and free as the host posts and takes, a proxied response returns, and a request past its 10 ms is DEFERRED. -/
theorem hostWindowAndProxy : Obligations.HostWindowAndProxy := by
  refine ⟨fun s f mask hreach hcarrier hslot hmask hfree => ?_, fun s mask hreach => ⟨?_, ?_⟩,
    fun s f p hready hcarrier hintact hversion hkind hstatus hcmd hp => ?_, fun s o ho hdue => ?_⟩
  · show execReqPost [f] mask s = _
    rw [execReqPost, reqPost_one hreach hcarrier hslot hmask hfree, done_eq_seen]
  · show execRspTake mask s = _
    simp only [execRspTake, rspTake, hreach, Bool.not_true, Bool.false_eq_true, if_false, done_eq_seen]
  · show execEvtTake mask s = _
    simp only [execEvtTake, evtTake, hreach, Bool.not_true, Bool.false_eq_true, if_false, done_eq_seen]
  · show execProxyResponse f s = _
    rw [execProxyResponse, proxyResponse_of_proxied hready hcarrier hintact hversion hkind hstatus hcmd hp, done_eq_seen]
  · show execRequestDeferred o.session o.seq s = _
    have helapsed : s.elapsed o.taken 10000 = true := decide_eq_true hdue
    simp only [execRequestDeferred, requestDeferred, ho, helapsed, Bool.not_true, Bool.false_eq_true, if_false, done_eq_seen]

end Sys2Proof.Machine
end

section
/-! O9, O18 to O24: issue, the counters, the cores and the control descriptors (chapters 05 and 18). -/

namespace Sys2Proof.Machine

/-- Settles O9: issue changes cores and counters only, and of its own core what it says. -/
theorem issueKeepsEverythingElse : Obligations.IssueKeepsEverythingElse := by
  intro s c op next hr
  have ho : (s.core c).state ≠ .off := by
    intro h; rw [Core.runs, h] at hr; exact absurd hr (by decide)
  obtain ⟨i, flags, v, hc⟩ := issued_core s c op next ho
  have hf := issued_frame s c op next
  refine ⟨fun j hj => issued_core_other s hj, ?_⟩
  rw [hc]
  generalize issued s c op next = t at hf
  rw [hf]
  simp

/-! ### Counters -/

/-- Settles O18: a counter wraps where it counts, and stays as it is where it does not. -/
theorem counterWrapSetsItsOverflowBit : Obligations.CounterWrapSetsItsOverflowBit := by
  intro s level unit ctr value overflow select hk
  have hex : exec (.counterWrap level unit ctr) s = .next (seen s (s.counterWraps value overflow select ctr)) := by
    show execCounterWrap level unit ctr s = _
    rw [execCounterWrap, hk]
    exact done_eq_seen s _
  refine ⟨fun hfree hsel hserved hbent => ?_, fun h => ?_⟩
  · have hon : (counterBent value).elim false (fun b => !s.bentOn b) = false := by
      cases hb : counterBent value with
      | none => rfl
      | some b => simp only [Option.elim_some, hbent b hb, Bool.not_true]
    rw [hex, State.counterWraps, if_neg (by simp [hfree, hsel, hserved, hon])]
    rfl
  · rw [hex, State.counterWraps, if_pos (h.imp_right Or.inl)]

/-! ### Writes to the objects of a core -/

/-- A request leaves every core. -/
@[simp] theorem inSession_core (s : State) (f : Frame) (c : Nat) : (inSession s f).core c = s.core c := by
  obtain ⟨m, o, p, u, n, h⟩ := onlyCarried_inSession s f
  rw [h]
  rfl

/-- A write of CORE_CONTROL to a core that no slot paces. -/
theorem coreControl_of_writes {s u : State} {f : Frame} {names : Nat → Nat → Bool} (h : writes s f = true)
    (hn : names f.key (valueOf f) = true)
    (he : coreControlEffect (inSession s f) f f.key (valueOf f) = .done u stOk []) :
    done s (writeRow names coreControlEffect f s) = .next (seen s (writeDone f u)) := done_writeRow_of_writes h hn he

/-- Settles O19: the three writes of CORE_CONTROL, each by its branch of the effect. -/
theorem coreControlCommands : Obligations.CoreControlCommands := by
  intro s f h hobj t c k hp
  have hk : t.core c = k := inSession_core s f c
  have hruns : ∀ {v : Nat}, k.runs = true → k.state = .running ∨ k.state = .waiting := fun hr => by
    simpa [Core.runs] using hr
  refine ⟨fun hv hst hal hlt => ?_, fun hv hr hne => ?_, fun hv hr hnil hpend => ?_, fun hv hoff => ?_⟩
  · show execCoreStart f s = _
    refine coreControl_of_writes h (by simp [hobj, hv]) ?_
    have hbad : ¬(t.rd (O.coreEntry (c / 64) (c % 64)) % 64 ≠ 0 ∨ 0x80000 ≤ t.rd (O.coreEntry (c / 64) (c % 64))) := by omega
    simp only [coreControlEffect, hv, if_true, State.startCore, State.modCore]
    rw [if_neg (by rw [hp]; decide), if_neg hbad, if_pos (by rw [hk]; exact hst), hk]
  · show execCoreStop f s = _
    refine coreControl_of_writes h (by simp [hobj, hv]) ?_
    have hin : k.inflight.isEmpty = false := by cases hl : k.inflight <;> simp_all
    have hstop : t.stopCore c = t.setCore c { k with state := .stopping, waitDue := none } := by
      rw [State.stopCore, State.modCore, hk, State.finishStop, core_setCore _ _ _ (ne_off_of_state (by simp))]
      simp only [hin, Bool.not_false, if_true]
    rw [coreControlEffect, if_neg (by rw [hp]; decide), if_neg (by omega), if_pos hv, hk, if_pos (hruns (v := 0) hr), hstop]
  · show execCoreStop f s = _
    refine coreControl_of_writes h (by simp [hobj, hv]) ?_
    have hstop : t.stopCore c = (t.setCore c { k with state := .stopping, waitDue := none }).enterHalted c 0xFF := by
      rw [State.stopCore, State.modCore, hk, State.finishStop, core_setCore _ _ _ (ne_off_of_state (by simp))]
      simp only [hnil, hpend, List.isEmpty_nil, Bool.not_true, Bool.false_eq_true, if_false, if_true]
    rw [coreControlEffect, if_neg (by rw [hp]; decide), if_neg (by omega), if_pos hv, hk, if_pos (hruns (v := 0) hr), hstop]
  · show execCoreReset f s = _
    refine coreControl_of_writes h (by simp [hobj, hv]) ?_
    rw [coreControlEffect, if_neg (by rw [hp]; decide), if_neg (by omega), if_neg (by omega), if_pos hv, hk, if_neg hoff]
    rfl

/-- Settles O20: the three writes have the effect of their rows. -/
theorem coreMemoryStatusAndSeedWrites : Obligations.CoreMemoryStatusAndSeedWrites := by
  refine ⟨?_, ?_⟩
  · intro s f h hobj c k hact hoff
    show execCoreMemoryWrite f s = _
    have hk : (inSession s f).core c = k := inSession_core s f c
    rw [execCoreMemoryWrite, domainRow_of_writesWhole _ _ h hobj, coreMemoryEffect, State.modCore]
    rw [hk, if_neg (by rw [hact]; simpa using hoff)]
    rfl
  intro s f h t c k
  refine ⟨fun hobj hoff hv => ?_, fun hobj hsub hjob hall => ?_⟩
  · show execCoreFpStatusWrite f s = _
    refine done_writeRow_of_writes h hobj ?_
    rw [fpStatusEffect, State.coreOff, State.modCore, inSession_core, if_neg (by simpa using hoff), if_neg (by omega)]
  · show execRngSeedWrite f s = _
    refine done_writeRow_of_writes h (by simp [hobj, hsub]) ?_
    have hany : (natsFrom (64 * keyBent f.key) 64).any (fun c => ((inSession s f).core c).active) = false := by
      rw [List.any_eq_false]
      intro c hc
      rw [inSession_core, hall c hc]
      decide
    rw [seedEffect, if_neg (by rw [hany]; simpa using hjob)]

/-! ### Control descriptors -/

/-- A control row that does not jump, in a row of its own. -/
theorem settledRow_control {s : State} {c op : Nat} {invalid : Core → Bytes → Bool} {xs : Bytes → List Nat}
    (effect : State → Core → Bytes → State)
    (h : issues s c op ⟨invalid (s.core c) (nextDesc s c), xs (nextDesc s c), [], 0, ((s.core c).dptr : Int) + 64⟩ = true) :
    settledRow c s (s.control c op invalid xs noJump effect)
      = .next (seen s (effect (issued s c op ((s.core c).dptr + 64)) (s.core c) (nextDesc s c)).settle) := by
  rw [control_plain effect h, settledRow_eq_seen _ _ (core_of_issues h)]

/-- Settles O21: each control descriptor that does not jump has its effect in the state in which it is issued. -/
theorem controlDescriptorsWithoutJump : Obligations.ControlDescriptorsWithoutJump := by
  refine ⟨fun s c => ⟨fun h => ?_, fun h => ?_, fun h => ?_, fun h => ?_⟩, fun s c => ⟨fun h => ?_, fun h => ?_⟩⟩
  · exact settledRow_control (fun t _ _ => t) h
  · exact settledRow_control (fun t _ _ => t) h
  · exact settledRow_control (fun t _ _ => t) h
  · exact settledRow_control _ h
  · have hex : exec (.signal c) s
        = .next (seen s ((issued s c 0x03 ((s.core c).dptr + 64)).signal c (nextDesc s c)).settle) :=
      settledRow_control (invalid := fun _ d => sigInvalid c d) (xs := noXs) (fun t _ d => t.signal c d) h
    refine ⟨fun ht => ?_, fun ht ha => ?_, fun ht ha => ?_⟩
    · rw [hex, State.signal, if_pos ht]
    · rw [hex, State.signal, if_neg ht, issued_core_other s ht, if_pos ha]
    · rw [hex, State.signal, if_neg ht, issued_core_other s ht, ha]
      rfl
  · exact settledRow_control (invalid := fun _ d => !zeroBytes d 9 64) (xs := noXs)
      (fun t _ d => (t.retireHead c).enterHalted c (byteField d 8 1)) h

/-- A control row that may jump, in a row of its own. -/
theorem settledRow_jump {s : State} {c op : Nat} {invalid : Core → Bytes → Bool} {xs : Bytes → List Nat} {jumps : Core → Bytes → Bool}
    (effect : State → Core → Bytes → State)
    (h : issues s c op ⟨invalid (s.core c) (nextDesc s c), xs (nextDesc s c), [], 0, if jumps (s.core c) (nextDesc s c) then
        jumpTo (s.core c).dptr (nextDesc s c) else ((s.core c).dptr : Int) + 64⟩ = true) :
    settledRow c s (s.control c op invalid xs jumps effect)
      = .next (seen s (effect (if jumps (s.core c) (nextDesc s c) then
            (issued s c op (if jumps (s.core c) (nextDesc s c) then
              jumpTo (s.core c).dptr (nextDesc s c) else ((s.core c).dptr : Int) + 64).toNat).pc c 0x09 1
          else issued s c op (if jumps (s.core c) (nextDesc s c) then
              jumpTo (s.core c).dptr (nextDesc s c) else ((s.core c).dptr : Int) + 64).toNat)
          (s.core c) (nextDesc s c)).settle) := by
  rw [control_of_issues effect h, settledRow_eq_seen _ _ (core_of_issues h)]

/-- Settles O22: each jump in both outcomes. -/
theorem jumpDescriptors : Obligations.JumpDescriptors := by
  intro s c
  refine ⟨fun h => ?_, fun h => ?_, fun h => ?_⟩
  · show execLoop c s = _
    rw [execLoop]
    refine (settledRow_jump _ ?_).trans ?_
    · exact h
    · rfl
  · show execBranchFlag c s = _
    rw [execBranchFlag]
    refine (settledRow_jump _ ?_).trans ?_
    · exact h
    dsimp only
    cases hj : flagCond (s.core c).flags (nextDesc s c) with
    | true => rfl
    | false => rfl
  · show execBranchX c s = _
    rw [execBranchX]
    refine (settledRow_jump _ ?_).trans ?_
    · exact h
    · rfl

/-! ### Faults, retirement and timers -/

/-- A reserved opcode faults the core at whichever row it is met. -/
theorem issue_of_reserved {s : State} {c op : Nat} {plan : State → Nat → Bytes → Plan} {effect : State → Core → Bytes → State}
    (hr : (s.core c).runs = true) (hp : (s.core c).pending = none) (hi : (s.core c).inflight = [])
    (ho : opReserved (dOp (nextDesc s c)) = true) (hw : (s.core c).waitMet = true) :
    s.issue c op plan effect = s.faultNext c 0x01 (nextDesc s c) := by
  have hd : (s.core c).mem.bytes 0#8 (s.core c).dptr 64 = nextDesc s c := rfl
  simp [State.issue, hd, hr, hp, hi, ho, hw]

/-- Settles O23: the five rows all issue through the one operation. -/
theorem reservedOpcodeFaultsTheCore : Obligations.ReservedOpcodeFaultsTheCore := by
  intro s c hc hr hp hi ho hw i hin
  simp only [List.mem_cons, List.not_mem_nil, or_false] at hin
  have row : ∀ (op : Nat) (plan : State → Nat → Bytes → Plan) (effect : State → Core → Bytes → State),
      settledRow c s (s.issue c op plan effect) = .next (seen s ((s.faultNext c 0x01 (nextDesc s c)).settle)) := fun op plan effect => by
    rw [issue_of_reserved hr hp hi ho hw, settledRow_eq_seen _ _ hc]
  rcases hin with rfl | rfl | rfl | rfl | rfl
  · show execNop c s = _
    rw [execNop, State.control, row]
  · show execMm c s = _
    rw [execMm, row]
  · show execVadd c s = _
    rw [execVadd, State.vRegister, State.vIssue, row]
  · show execMoveLocal c s = _
    rw [execMoveLocal, State.mvIssue, row]
  · show execSend c s = _
    rw [execSend, State.chIssue, row]

/-- The head that is complete, no channel descriptor, returns no credit and carries no tag retires. -/
theorem retireHead_plain {s : State} {c : Nat} {i : Issued} {r : List Issued} (h : (s.core c).inflight = i :: r)
    (hs : i.stage = .complete) (ho : dOp i.desc < 0x70) (hcr : i.credit = []) (ht : i.tag = none) :
    s.retireHead c = (((s.modCore c (fun k => { k with inflight := r, retired := k.retired + 1 })).setFlags c (dSignal i.desc)).pc c 0x03
      1).finishStop c := by
  have h0 : dOp i.desc ≠ 0x70 := by omega
  have h1 : dOp i.desc ≠ 0x71 := by omega
  have h2 : dOp i.desc ≠ 0x72 := by omega
  rw [State.retireHead, h]
  simp [hs, hcr, ht, h0, h1, h2, State.each]

/-- Settles O24: retirement and each timer by its own condition. -/
theorem retirementAndCoreTimers : Obligations.RetirementAndCoreTimers := by
  refine ⟨fun s c i r hc _ _ => ?_, fun s c i r hc h hs ho hcr ht => ?_, fun s c hc hs hw => ?_,
    fun s c pos i hc hi hdue hring => ⟨fun hex => ?_, fun hall => ?_⟩, fun s c due x r hc hs hd hnow ha hm => ?_,
    fun s c pos hc hf => ?_⟩
  · show execDescriptorRetire c s = _
    rw [execDescriptorRetire, settledRow_eq_seen _ _ hc]
  · show execDescriptorRetire c s = _
    rw [execDescriptorRetire, retireHead_plain h hs ho hcr ht, settledRow_eq_seen _ _ hc]
  · show execCoreWaiting c s = _
    rw [execCoreWaiting, coreRow, if_neg (by omega), done_eq_seen, State.coreWaiting, if_pos ⟨hs, hw⟩]
    simp only [List.isEmpty_iff]
  · show execWatchdog c pos s = _
    have hnot : ((s.core c).inflight.take (pos + 1)).all (fun i => decide (i.stage = .complete)) = false := by
      rw [List.all_eq_false]
      obtain ⟨j, hj, hst⟩ := hex
      exact ⟨j, hj, by simpa using hst⟩
    rw [execWatchdog, settledRow_eq_seen _ _ hc, State.watchdog, hi]
    simp [hring, show ¬s.now ≤ i.due by omega, hnot]
  · show execWatchdog c pos s = _
    have hcomplete : ((s.core c).inflight.take (pos + 1)).all (fun i => decide (i.stage = .complete)) = true := by
      rw [List.all_eq_true]
      exact fun j hj => by simpa using hall j hj
    rw [execWatchdog, settledRow_eq_seen _ _ hc, State.watchdog, hi]
    simp only [hring, show ¬s.now ≤ i.due by omega, hcomplete, Option.isSome_none, Bool.false_eq_true, or_self, if_false, if_true]
  · show execChWaitTimeout c s = _
    rw [execChWaitTimeout, settledRow_eq_seen _ _ hc, State.chWaitTimeout]
    simp only [hs, hd, ha]
    rw [if_neg (by rw [hm]; simp; omega)]
    rfl
  · show execRingWaitTimeout c s = _
    rw [execRingWaitTimeout, settledRow_eq_seen _ _ hc, State.ringWaitTimeout, hf]

end Sys2Proof.Machine
end

section
/-! SUPPORT. The descriptor that an idle package has just issued: what is known of it, and that its package is idle again once it is complete
(R99-R102). -/

namespace Sys2Proof.Machine

/-! ### What counters leave -/

/-- Every object below the performance counters and the tag registers reads the same. -/
def KeepsLow (s t : State) : Prop := ∀ k, k < 0xA01100 → t.rd k = s.rd k

namespace KeepsLow

theorem refl (s : State) : KeepsLow s s := fun _ _ => rfl

theorem trans {s t u : State} (h : KeepsLow s t) (g : KeepsLow t u) : KeepsLow s u := fun k hk => (g k hk).trans (h k hk)

theorem values {s t : State} (h : KeepsLow s t) : KeepsValues s t := fun k hk => by
  rw [apartFromTraffic, decide_eq_true_eq] at hk
  exact h k hk.2

theorem each {α : Type} (f : State → α → State) (h : ∀ s a, KeepsLow s (f s a)) : ∀ (l : List α) (s : State), KeepsLow s (State.each f s l)
  | [], s => refl s
  | a :: r, s => (h s a).trans (each f h r (f s a))

theorem wr (s : State) {k : Nat} (v : Nat) (h : 0xA01100 ≤ k) : KeepsLow s (s.wr k v) :=
  fun _ hj => s.rd_wr_of_ne v (by omega)

/-- A counter's step writes its value and its overflow object only. -/
theorem bump (s : State) {value overflow : Nat} (bit n : Nat) (hv : 0xA01100 ≤ value) (ho : 0xA01100 ≤ overflow) :
    KeepsLow s (s.bump value overflow bit n) := by
  unfold State.bump
  dsimp only
  split
  · exact .wr s _ hv
  · exact (KeepsLow.wr s _ hv).trans (.wr _ _ ho)

/-- An event of a core is counted in the counters only. -/
theorem pc (s : State) (c event n : Nat) : KeepsLow s (s.pc c event n) := by
  unfold State.pc
  split
  · exact .refl s
  · refine .each _ (fun t k => ?_) _ s
    split
    · exact .bump t _ _ (by rw [O.pcValue]; omega) (by rw [O.pcOverflow]; omega)
    · exact .refl t

/-- An event of a Bent is counted in the counters only. -/
theorem bpc (s : State) (b event n : Nat) : KeepsLow s (s.bpc b event n) := by
  unfold State.bpc
  split
  · exact .refl s
  · refine .each _ (fun t k => ?_) _ s
    split
    · exact .bump t _ _ (by rw [O.bpcValue]; omega) (by rw [O.bpcOverflow]; omega)
    · exact .refl t

/-- Changing cores changes no object. -/
theorem setCore (s : State) (c : Nat) (k : Core) : KeepsLow s (s.setCore c k) := fun _ _ => rfl

/-- Tag sampling changes counters only. -/
theorem tagAt (s : State) (c : Nat) (d : Bytes) (a : Nat) : KeepsLow s (s.tagAt c d a).1 := by
  simp only [State.tagAt]
  split
  · exact .refl s
  · split
    · exact .setCore s _ _
    · split
      · exact (KeepsLow.setCore s _ _).trans (.wr _ _ (by rw [O.tagsMissed]; omega))
      · exact (KeepsLow.setCore s _ _).trans (.pc _ _ _ _)

/-- Issue changes counters only. -/
theorem issued (s : State) (c op next : Nat) : KeepsLow s (issued s c op next) :=
  (KeepsLow.tagAt s c _ _).trans ((KeepsLow.setCore _ _ _).trans (.pc _ _ _ _))

end KeepsLow

theorem keepsValues_pc (s : State) (c event n : Nat) : KeepsValues s (s.pc c event n) := (KeepsLow.pc s c event n).values

theorem keepsValues_bpc (s : State) (b event n : Nat) : KeepsValues s (s.bpc b event n) := (KeepsLow.bpc s b event n).values

theorem keepsValues_issued (s : State) (c op next : Nat) : KeepsValues s (issued s c op next) := (KeepsLow.issued s c op next).values

/-! ### The descriptor just issued -/

/-- What issue says of the descriptor that it puts in flight. -/
structure JustIssued (s : State) (c op : Nat) (t : State) (i : Issued) : Prop where
  stage : i.stage = if opUnit op = 0 ∨ opUnit op = 2 then .complete else .queued
  addr : i.addr = (s.core c).dptr
  desc : i.desc = nextDesc s c
  x : i.x = (s.core c).x
  rng : i.rng = (s.core c).rng
  seed : i.seed = t.rd (O.rngSeed (c / 64))
  shadow : i.shadow = none
  credit : i.credit = []
  ring : i.ring = none
  reads : i.reads = []
  asked : i.asked = none
  came : i.came = []
  paid : i.paid = false
  sample : i.sample = none

/-- The descriptor at DPTR is the last in flight once it has issued. -/
theorem issued_last {s : State} {c : Nat} (op next : Nat) (hc : c < 3072) (ho : (s.core c).state ≠ .off) :
    ∃ i, ((issued s c op next).core c).inflight = (s.core c).inflight ++ [i] ∧ JustIssued s c op (issued s c op next) i := by
  obtain ⟨v, hv'⟩ := tagAt_core s c (nextDesc s c) (s.core c).dptr ho
  have hseed : apartFromTraffic (O.rngSeed (c / 64)) = true := by
    rw [apartFromTraffic, decide_eq_true_eq, O.rngSeed]; omega
  have hrd : (issued s c op next).rd (O.rngSeed (c / 64))
      = (s.tagAt c (nextDesc s c) (s.core c).dptr).1.rd (O.rngSeed (c / 64)) :=
    ((KeepsLow.setCore _ c _).trans (.pc _ c 0x02 1)).values _ hseed
  have hcore : ∀ k : Core, k.state = .running → k ≠ Core.off := fun k hk => ne_off_of_state (by rw [hk]; decide)
  have key : ∀ u : State, u.rd (O.rngSeed (c / 64)) = (s.tagAt c (nextDesc s c) (s.core c).dptr).1.rd (O.rngSeed (c / 64)) →
      ∃ i, ((issued s c op next).core c).inflight = (s.core c).inflight ++ [i] ∧ JustIssued s c op u i := by
    intro u hu
    simp only [issued]
    rw [core_pc, State.modCore, core_setCore _ _ _ (hcore _ rfl), hv']
    exact ⟨_, rfl, rfl, rfl, rfl, rfl, rfl, hu.symm, rfl, rfl, rfl, rfl, rfl, rfl, rfl, rfl⟩
  exact key _ hrd

/-! ### A descriptor alone -/

/-- One core has a descriptor in flight after complete ones, and every other core is idle. -/
structure RunsLast (t : State) (c : Nat) (l : List Issued) (i : Issued) : Prop where
  near : t.near c = true
  on : (t.core c).state ≠ .off
  inflight : (t.core c).inflight = l ++ [i]
  done : l.all (fun j => decide (j.stage = .complete)) = true

/-- Changing the last of a list changes it alone. -/
theorem modNth_last (f : Issued → Issued) (i : Issued) : ∀ l : List Issued, modNth f l.length (l ++ [i]) = l ++ [f i]
  | [] => rfl
  | j :: r => by rw [List.cons_append, List.length_cons, modNth, modNth_last f i r]; rfl

namespace RunsLast

variable {s t : State} {c : Nat} {l : List Issued} {i : Issued}

/-- In an idle package the descriptor that issues is alone. -/
theorem issued {op next : Nat} (hi : s.unitsIdle = true) (ho : (s.core c).state ≠ .off)
    (hl : ((issued s c op next).core c).inflight = (s.core c).inflight ++ [i]) :
    RunsLast (issued s c op next) c (s.core c).inflight i where
  near := near_issued hi ho
  on := by
    obtain ⟨_, _, _, h⟩ := issued_core s c op next ho
    rw [h]
    exact nofun
  inflight := hl
  done := idle_core hi c

theorem of_cores (h : RunsLast s c l i) (hc : t.cores = s.cores) : RunsLast t c l i := by
  have hcore : ∀ k, t.core k = s.core k := fun k => by rw [State.core, State.core, hc]
  exact ⟨by rw [near_of_cores hc]; exact h.near, by rw [hcore]; exact h.on, by rw [hcore]; exact h.inflight, h.done⟩

/-- A change of the core's own registers and memory. -/
theorem modCore (h : RunsLast s c l i) {g : Core → Core} (hs : (g (s.core c)).state = (s.core c).state)
    {j : Issued} (hi : (g (s.core c)).inflight = l ++ [j]) : RunsLast (s.modCore c g) c l j := by
  have hk : g (s.core c) ≠ Core.off := ne_off_of_state (by rw [hs]; exact h.on)
  have hcore : (s.modCore c g).core c = g (s.core c) := core_setCore s c _ hk
  exact ⟨near_setCore h.near hk, by rw [hcore, hs]; exact h.on, by rw [hcore]; exact hi, h.done⟩

/-- A change of another core that leaves what it has in flight. -/
theorem modCore_other (h : RunsLast s c l i) {p : Nat} (hp : p ≠ c) {g : Core → Core}
    (hi : (g (s.core p)).inflight = (s.core p).inflight) : RunsLast (s.modCore p g) c l i := by
  have hcore : (s.modCore p g).core c = s.core c := core_modCore_other s g (Ne.symm hp)
  have hidle : (g (s.core p)).idle = true := by rw [Core.idle, hi]; exact idle_other h.near hp
  exact ⟨near_setCore_other h.near hp hidle, by rw [hcore]; exact h.on, by rw [hcore]; exact h.inflight, h.done⟩

theorem modIssued (h : RunsLast s c l i) (f : Issued → Issued) : RunsLast (s.modIssued c l.length f) c l (f i) :=
  h.modCore rfl (by show modNth f l.length (s.core c).inflight = _; rw [h.inflight, modNth_last])

theorem add (h : RunsLast s c l i) (k n : Nat) : RunsLast (s.add k n) c l i := h.of_cores (s.add_cores k n)

theorem pc (h : RunsLast s c l i) (k e n : Nat) : RunsLast (s.pc k e n) c l i := h.of_cores (s.pc_cores k e n)

theorem bpc (h : RunsLast s c l i) (k e n : Nat) : RunsLast (s.bpc k e n) c l i := h.of_cores (s.bpc_cores k e n)

/-- Bytes written at an address of the core. -/
theorem writeLocal (h : RunsLast s c l i) (a : Nat) (bs : Bytes) : RunsLast (s.writeLocal c a bs) c l i := by
  unfold State.writeLocal
  split
  · exact h.of_cores rfl
  · exact h.modCore rfl h.inflight

/-- The package is idle once the descriptor is complete. -/
theorem idle_of_complete (h : RunsLast s c l i) (hi : i.stage = .complete) : s.unitsIdle = true := by
  refine idle_of_near h.near ?_
  rw [Core.idle, h.inflight, List.all_append, h.done]
  simp [hi]

/-- The package is idle once the descriptor's effects are complete. -/
theorem finish_idle (h : RunsLast s c l i) : (s.finish c l.length).unitsIdle = true := (h.modIssued _).idle_of_complete rfl

/-- Where the descriptor's run leaves the package idle, carrying on is that run. -/
theorem settle (h : RunsLast s c l i) (hq : i.stage = .queued) {op : Nat} (hop : dOp i.desc = op)
    (hunit : opUnit op = 1 ∨ opUnit op = 3 ∨ opUnit op = 4) (hr : s.runAt c l.length (opUnit op) i = some t) (ht : t.unitsIdle = true) :
    s.settle = t.settle := settle_run hunit h.near h.inflight h.done hq (by rw [hop]) hr ht

/-- Where the descriptor's run completes it, carrying on is that run. -/
theorem settle_finish (h : RunsLast s c l i) (hq : i.stage = .queued) {op : Nat} (hop : dOp i.desc = op)
    (hunit : opUnit op = 1 ∨ opUnit op = 3 ∨ opUnit op = 4) (hr : s.runAt c l.length (opUnit op) i = some (t.finish c l.length)) {j : Issued}
    (ht : RunsLast t c l j) : s.settle = (t.finish c l.length).settle := h.settle hq hop hunit hr ht.finish_idle

/-- Where the descriptor begins and then waits, carrying on is its beginning. -/
theorem settle_waits (h : RunsLast s c l i) (hq : i.stage = .queued) {op : Nat} (hop : dOp i.desc = op)
    (hunit : opUnit op = 1 ∨ opUnit op = 3 ∨ opUnit op = 4) (hr : s.runAt c l.length (opUnit op) i = some t) {j : Issued}
    (ht : RunsLast t c l j) (hj : j.stage = .begun) (hd : j.desc = i.desc)
    (hstuck : j.passes = false → t.runAt c l.length (opUnit op) j = none) : s.settle = t.settle :=
  settle_begun hunit h.near h.inflight h.done hq (by rw [hop]) hr ht.near ht.inflight hj (by rw [hd, hop]) hstuck

end RunsLast

end Sys2Proof.Machine
end

section
/-! O30 to O34: the vector engine (chapter 07). -/

namespace Sys2Proof.Machine

/-! ### Rows of the vector engine -/

/-- A row that issues through the one operation of the vector engine says what its operation leaves. -/
theorem vectorRow_of_exec {row : Nat → Instr} {op : Nat} {u : VUse} {bad : Bytes → Bool} {fault : Core → Bytes → Nat}
    {run : State → Nat → VIn → VOut} {store : State → Nat → VIn → State}
    (h : ∀ c s, exec (row c) s = settledRow c s (s.vIssue c op u bad fault (fun t v => run t c v) (fun t v => store t c v))) :
    VectorRow row op u bad fault run store := by
  intro s c k d t v hi
  rw [h, State.vIssue, issue_of_issues, settledRow_eq_seen _ _ (core_of_issues hi)]
  · dsimp only
    rw [next_toNat]
  · exact hi

/-- A row that reads and writes registers only. -/
theorem registerRow_of_exec {row : Nat → Instr} {op : Nat} {u : VUse} {bad : Bytes → Bool} {run : VIn → VOut}
    (h : ∀ c s, exec (row c) s = settledRow c s (s.vRegister c op u bad run)) : RegisterRow row op u bad run := by
  unfold RegisterRow
  refine vectorRow_of_exec fun c s => ?_
  rw [h, State.vRegister]

/-- Settles O30: each row is one operation over the shared issue. -/
theorem vectorElementwiseRows : Obligations.VectorElementwiseRows :=
  ⟨registerRow_of_exec fun _ _ => rfl, registerRow_of_exec fun _ _ => rfl, registerRow_of_exec fun _ _ => rfl,
    registerRow_of_exec fun _ _ => rfl, registerRow_of_exec fun _ _ => rfl, registerRow_of_exec fun _ _ => rfl,
    registerRow_of_exec fun _ _ => rfl, registerRow_of_exec fun _ _ => rfl, registerRow_of_exec fun _ _ => rfl,
    registerRow_of_exec fun _ _ => rfl, registerRow_of_exec fun _ _ => rfl, registerRow_of_exec fun _ _ => rfl,
    registerRow_of_exec fun _ _ => rfl, registerRow_of_exec fun _ _ => rfl, registerRow_of_exec fun _ _ => rfl,
    registerRow_of_exec fun _ _ => rfl, registerRow_of_exec fun _ _ => rfl, registerRow_of_exec fun _ _ => rfl,
    registerRow_of_exec fun _ _ => rfl⟩

/-- Settles O31: a load reads and a store writes by the run and the store of its row. -/
theorem vectorLoadAndStore : Obligations.VectorLoadAndStore :=
  ⟨vectorRow_of_exec fun _ _ => rfl, vectorRow_of_exec fun _ _ => rfl⟩

/-- Settles O32: the rows of registers, and RNG_CTX by its own issue. -/
theorem vectorFunctionAndRandomRows : Obligations.VectorFunctionAndRandomRows := by
  refine ⟨fun p hp => ?_, registerRow_of_exec fun _ _ => rfl, registerRow_of_exec fun _ _ => rfl, registerRow_of_exec fun _ _ => rfl,
    registerRow_of_exec fun _ _ => rfl, registerRow_of_exec fun _ _ => rfl, registerRow_of_exec fun _ _ => rfl, fun s c => ?_,
    registerRow_of_exec fun _ _ => rfl, registerRow_of_exec fun _ _ => rfl⟩
  · simp only [List.mem_cons, List.not_mem_nil, or_false] at hp
    rcases hp with rfl | rfl | rfl | rfl | rfl
    · exact registerRow_of_exec fun _ _ => rfl
    · exact registerRow_of_exec fun _ _ => rfl
    · exact registerRow_of_exec fun _ _ => rfl
    · exact registerRow_of_exec fun _ _ => rfl
    · exact registerRow_of_exec fun _ _ => rfl
  · intro k d x h
    show execRngCtx c s = _
    rw [execRngCtx, issue_of_issues _ h, settledRow_eq_seen _ _ (core_of_issues h)]
    dsimp only
    rw [next_toNat]

/-! ### Lanes -/

/-- A digit of packed digits. -/
theorem packDigits_digit (w : Nat) : ∀ (l : List Nat) (i : Nat), (∀ d ∈ l, d < 2 ^ w) →
    packDigits w l / 2 ^ (w * i) % 2 ^ w = l.getD i 0
  | [], i, _ => by simp [packDigits]
  | d :: r, 0, h => by
    have hd := h d (List.mem_cons_self ..)
    simp [packDigits, Nat.add_mul_mod_self_left, Nat.mod_eq_of_lt hd]
  | d :: r, i + 1, h => by
    have hd := h d (List.mem_cons_self ..)
    rw [packDigits, Nat.mul_succ, Nat.add_comm (w * i) w, Nat.pow_add, ← Nat.div_div_eq_div_mul, Nat.add_mul_div_left _ _ (Nat.two_pow_pos w),
      Nat.div_eq_of_lt hd, Nat.zero_add, packDigits_digit w r i (fun e he => h e (List.mem_cons_of_mem _ he))]
    rfl

/-- Packed digits are below the power of their number. -/
theorem packDigits_lt (w : Nat) : ∀ (l : List Nat), (∀ d ∈ l, d < 2 ^ w) → packDigits w l < 2 ^ (w * l.length)
  | [], _ => by simp [packDigits]
  | d :: r, h => by
    have hd := h d (List.mem_cons_self ..)
    have hr := packDigits_lt w r (fun e he => h e (List.mem_cons_of_mem _ he))
    rw [packDigits, List.length_cons, Nat.mul_succ, Nat.pow_add]
    calc d + 2 ^ w * packDigits w r < 2 ^ w * (packDigits w r + 1) := by rw [Nat.mul_succ]; omega
      _ ≤ 2 ^ w * 2 ^ (w * r.length) := Nat.mul_le_mul_left _ hr
      _ = 2 ^ (w * r.length) * 2 ^ w := Nat.mul_comm ..

/-- A lane of a register made of 64 lanes. -/
theorem vLane_ofLanes {ls : List W32} (hl : ls.length = 64) (l : Nat) : vLane (ofLanes ls) l = ls.getD l 0#32 := by
  have hdigits : ∀ d ∈ ls.map BitVec.toNat, d < 2 ^ 32 := by
    intro d hd
    obtain ⟨x, _, rfl⟩ := List.mem_map.mp hd
    exact x.isLt
  have hlt : packDigits 32 (ls.map BitVec.toNat) < 2 ^ 2048 := by
    have := packDigits_lt 32 _ hdigits
    rw [List.length_map, hl] at this
    exact this
  apply BitVec.eq_of_toNat_eq
  rw [vLane, ofLanes, BitVec.extractLsb'_toNat, BitVec.toNat_ofNat, Nat.mod_eq_of_lt hlt, Nat.shiftRight_eq_div_pow,
    packDigits_digit 32 _ l hdigits, List.getD_eq_getElem?_getD, List.getElem?_map, List.getD_eq_getElem?_getD]
  cases ls[l]? <;> rfl

/-! ### What the result of a vector descriptor leaves in its core -/

/-- The core that has taken the result of a vector descriptor. -/
def Core.applied (k : Core) (d : Bytes) (o : VOut) : Core :=
  let m := k.vr (vWmask d % 32)
  let masked := fun (r : Nat) (ls : List W32) =>
    if (vWmask d).testBit 7 then ls.mapIdx (fun l v => if vLane m l = 0#32 then vLane (k.vr r) l else v) else ls
  let n := k.raise o.flags
  let n := match o.dst with
    | some ls => n.setV (vDst d % 32) (ofLanes (masked (vDst d % 32) ls))
    | none => n
  let n := match o.dst2 with
    | some ls => n.setV (vDst2 d % 32) (ofLanes (masked (vDst2 d % 32) ls))
    | none => n
  match o.x with
  | some v => if selUse (vXdst d) then n.setX (selReg (vXdst d)) (BitVec.ofNat 64 v) else n
  | none => n

theorem vApply_eq (s : State) (c : Nat) (d : Bytes) (o : VOut) :
    s.vApply c d o = ((s.setCore c ((s.core c).applied d o)).add (O.vxRowsEmpty (c / 64) (c % 64)) o.empty).add
      (O.vxRowsNan (c / 64) (c % 64)) o.nan := rfl

/-- A result in registers changes neither the state of the core nor what is in flight. -/
theorem Core.applied_keeps (k : Core) (d : Bytes) (o : VOut) : (k.applied d o).state = k.state ∧ (k.applied d o).inflight = k.inflight := by
  obtain ⟨dst, dst2, flags, x, e, n⟩ := o
  cases x with
  | none => cases dst <;> cases dst2 <;> exact ⟨rfl, rfl⟩
  | some v =>
    by_cases hx : selUse (vXdst d)
    · simp only [Core.applied, hx, if_true]
      cases dst <;> cases dst2 <;> exact ⟨rfl, rfl⟩
    · simp only [Core.applied, hx, Bool.false_eq_true, if_false]
      cases dst <;> cases dst2 <;> exact ⟨rfl, rfl⟩

/-- DST alone is written with the masked lanes. -/
theorem Core.applied_vr {k : Core} {d : Bytes} {o : VOut} {ls : List W32} (h : o.dst = some ls) (h2 : o.dst2 = none)
    (hv : k.v.wf (fun _ => 0#2048) = true) :
    (k.applied d o).vr (vDst d % 32) = ofLanes (if (vWmask d).testBit 7 then
      ls.mapIdx (fun l v => if vLane (k.vr (vWmask d % 32)) l = 0#32 then vLane (k.vr (vDst d % 32)) l else v) else ls) := by
  have hset : ∀ w, (k.v.set 0#2048 (vDst d % 32) w).get 0#2048 (vDst d % 32) = w := fun w => Map.get_set_same k.v (fun _ => 0#2048) _ w hv
  obtain ⟨dst, dst2, flags, x, e, n⟩ := o
  obtain rfl : dst = some ls := h
  obtain rfl : dst2 = none := h2
  cases x with
  | none => exact hset _
  | some w =>
    by_cases hx : selUse (vXdst d)
    · simp only [Core.applied, hx, if_true]
      exact hset _
    · simp only [Core.applied, hx, Bool.false_eq_true, if_false]
      exact hset _

/-- The core that has taken a result is the one applied. -/
theorem vApply_core {s : State} {c : Nat} (d : Bytes) (o : VOut) (h : (s.core c).state ≠ .off) :
    (s.vApply c d o).core c = (s.core c).applied d o := by
  rw [vApply_eq]
  exact core_setCore s c _ (ne_off_of_state (by rw [((s.core c).applied_keeps d o).1]; exact h))

/-- Settles O33: the lanes of DST are the masked lanes of the result. -/
theorem maskedLanesKeepTheirContents : Obligations.MaskedLanesKeepTheirContents := by
  intro s c d o ls l hmask hl hlen hdst hdst2 hruns hv m new
  have hon : (s.core c).state ≠ .off := by
    intro h; rw [Core.runs, h] at hruns; exact absurd hruns (by decide)
  have hnew : new = if m = 0#32 then vLane ((s.core c).vr (vDst d % 32)) l else ls[l] := by
    show vLane (((s.vApply c d o).core c).vr (vDst d % 32)) l = _
    rw [vApply_core d o hon, Core.applied_vr hdst hdst2 hv, if_pos hmask, vLane_ofLanes (by rw [List.length_mapIdx, hlen]),
      List.getD_eq_getElem?_getD, List.getElem?_mapIdx, List.getElem?_eq_getElem (by omega)]
    rfl
  refine ⟨fun h => ?_, fun h => ?_⟩
  · rw [hnew, if_pos h]
  · rw [hnew, if_neg h, List.getElem?_eq_getElem (by omega)]

/-! ### INT32 lanes -/

/-- A vector descriptor that has issued in a quiet package, and whose result its core has taken, leaves the package quiet. -/
theorem quiet_vApply {s : State} {c op next : Nat} (d : Bytes) (o : VOut) (hc : c < 3072) (hq : s.quiet = true) (hon : (s.core c).state ≠ .off)
    (hop : opUnit op = 2) : ((issued s c op next).vApply c d o).quiet = true := by
  have hidle : s.unitsIdle = true := by
    simp only [State.quiet, Bool.and_eq_true] at hq
    exact hq.1.1.1.1.1.1.1.1
  obtain ⟨i, hl, hj⟩ := issued_last op next hc hon
  have hlast := RunsLast.issued hidle hon hl
  have hunits : ((issued s c op next).vApply c d o).unitsIdle = true := by
    have hset := hlast.modCore (g := fun k => k.applied d o) (((issued s c op next).core c).applied_keeps d o).1
      ((((issued s c op next).core c).applied_keeps d o).2.trans hl)
    exact ((hset.add _ _).add _ _).idle_of_complete (by rw [hj.stage, hop]; decide)
  have hrd : ∀ k, apartFromTraffic k = true → (k < 0x300000 ∨ 0x3C0000 ≤ k) → ((issued s c op next).vApply c d o).rd k = s.rd k := by
    intro k hk hb
    have h1 : k ≠ O.vxRowsEmpty (c / 64) (c % 64) := by rw [O.vxRowsEmpty]; omega
    have h2 : k ≠ O.vxRowsNan (c / 64) (c % 64) := by rw [O.vxRowsNan]; omega
    rw [vApply_eq, State.add, State.rd_wr_of_ne _ _ h2, State.add, State.rd_wr_of_ne _ _ h1]
    exact keepsValues_issued s c op next k hk
  have hstep := hrd O.stepState (by decide) (by decide)
  have hdrain := hrd O.drainState (by decide) (by decide)
  have hslot : ∀ i ∈ natsFrom 0 32, ((issued s c op next).vApply c d o).rd (O.rcSlot i) = s.rd (O.rcSlot i) := fun i hi => by
    have := mem_natsFrom.mp hi
    refine hrd _ ?_ (by rw [O.rcSlot]; omega)
    rw [apartFromTraffic, decide_eq_true_eq, O.rcSlot]; omega
  have hstage : ∀ i ∈ allSlots, ((issued s c op next).vApply c d o).stage i = s.stage i := fun i hi => by
    have := mem_natsFrom.mp hi
    refine hrd _ ?_ (by rw [O.stageState]; omega)
    rw [apartFromTraffic, decide_eq_true_eq, O.stageState]; omega
  have hframe : ((issued s c op next).vApply c d o).commit = s.commit ∧ ((issued s c op next).vApply c d o).data = s.data := by
    rw [vApply_eq, State.add_commit, State.add_commit, State.setCore_commit, State.add_data, State.add_data, State.setCore_data, issued_frame]
    exact ⟨rfl, rfl⟩
  simp only [State.quiet, Bool.and_eq_true, List.all_eq_true] at hq ⊢
  obtain ⟨⟨⟨⟨⟨⟨⟨⟨_, h1⟩, h2⟩, h3⟩, h4⟩, h5⟩, h6⟩, h7⟩, h8⟩ := hq
  rw [hframe.1, hframe.2, hstep, hdrain]
  refine ⟨⟨⟨⟨⟨⟨⟨⟨hunits, fun i hi => ?_⟩, h2⟩, h3⟩, h4⟩, h5⟩, fun i hi => ?_⟩, h7⟩, h8⟩
  · rw [hslot i hi]; exact h1 i hi
  · rw [hstage i hi]; exact h6 i hi

theorem length_natsFrom : ∀ n a : Nat, (natsFrom a n).length = n
  | 0, _ => rfl
  | n + 1, a => congrArg Nat.succ (length_natsFrom n (a + 1))

/-- A number in its place. -/
theorem natsFrom_get : ∀ (n a l : Nat), l < n → (natsFrom a n)[l]? = some (a + l)
  | 0, _, l, h => absurd h (Nat.not_lt_zero l)
  | n + 1, a, 0, _ => rfl
  | n + 1, a, l + 1, h => by
    rw [natsFrom, List.getElem?_cons_succ, natsFrom_get n (a + 1) l (by omega)]
    congr 1
    omega

/-- A lane of a result in INT32. -/
theorem perType_int32 {v : VIn} (f : W32 → W32 → W32 → W32 × Nat) (i : W32 → W32 → W32 → W32) (b : Nat → Nat → Nat → Nat × Nat)
    (h : vType v.d = 1) : ∃ ls, (perType v f i b).dst = some ls ∧ (perType v f i b).dst2 = none ∧ ls.length = 64
      ∧ ∀ l < 64, ls.getD l 0#32 = i (v.a.getD l 0#32) (v.b.getD l 0#32) (v.c.getD l 0#32) := by
  rw [perType, h]
  refine ⟨_, rfl, rfl, ?_, fun l hl => ?_⟩
  · rw [List.length_map, List.length_map, length_natsFrom]
  · rw [List.getD_eq_getElem?_getD, List.getElem?_map, List.getElem?_map, natsFrom_get 64 0 l hl]
    simp only [Option.map_some, Option.getD_some, Nat.zero_add]

/-- An INT32 row of two operands without a mask. -/
theorem int32_lane {row : Nat → Instr} {op : Nat} {f : W32 → W32 → W32 → W32 × Nat} {i : W32 → W32 → W32 → W32}
    {g : Nat → Nat → Nat → Nat × Nat} (hrow : RegisterRow row op (.elementwise true true false [0, 1, 2] 1) vOk (fun v => perType v f i g))
    (hop : opUnit op = 2) {s : State} {c l : Nat} (hl : l < 64) (ht : vType (nextDesc s c) = 1) (hm : (vWmask (nextDesc s c)).testBit 7 = false)
    (hi : issues s c op ⟨(VUse.elementwise true true false [0, 1, 2] 1).invalid (nextDesc s c) || vOk (nextDesc s c), vXs (nextDesc s c),
      (((VUse.elementwise true true false [0, 1, 2] 1).operands (nextDesc s c)).filter (fun o => decide (opdKind o = 2))).map opdTile,
      if (s.core c).emptyTile ((VUse.elementwise true true false [0, 1, 2] 1).operands (nextDesc s c)) then 0x01 else 0,
      ((s.core c).dptr : Int) + 64⟩ = true)
    (hq : s.quiet = true) (hv : (s.core c).v.wf (fun _ => 0#2048) = true) :
    ∃ t, exec (row c) s = .next t ∧ vLane ((t.core c).vr (vDst (nextDesc s c) % 32)) l
      = i (((s.core c).operand (nextDesc s c) (vOpd (nextDesc s c) 0)).getD l 0#32)
          (((s.core c).operand (nextDesc s c) (vOpd (nextDesc s c) 1)).getD l 0#32) 0#32 := by
  have hc := core_of_issues hi
  have hon := on_of_issues hi
  have hex := hrow s c hi
  dsimp only at hex
  generalize hvin : VIn.mk _ _ _ _ _ _ = v at hex
  have hu := quiet_vApply (next := (s.core c).dptr + 64) (nextDesc s c) (perType v f i g) hc hq hon hop
  generalize hut : (issued s c op ((s.core c).dptr + 64)).vApply c (nextDesc s c) (perType v f i g) = u at hex hu
  refine ⟨_, hex, ?_⟩
  rw [settle_of_quiet hu]
  have hdrain : u.rd O.drainState ≠ 2 := by
    simp only [State.quiet, Bool.and_eq_true, decide_eq_true_eq] at hu
    rw [hu.1.2]
    decide
  have hcores : (seen s u).cores = u.cores := (seenLeavesTheUnits s u hdrain).2.2.2.2.2.2.1
  obtain ⟨j, flags, tag, hcore⟩ := issued_core s c op ((s.core c).dptr + 64) hon
  have hvr : ((issued s c op ((s.core c).dptr + 64)).core c).v = (s.core c).v := by rw [hcore]
  obtain ⟨ls, hdst, hdst2, hlen, hls⟩ := perType_int32 f i g (v := v) (by rw [← hvin]; exact ht)
  have hlane : (u.core c).vr (vDst (nextDesc s c) % 32) = ofLanes ls := by
    rw [← hut, vApply_core _ _ (by rw [hcore]; exact nofun), Core.applied_vr hdst hdst2 (by rw [hvr]; exact hv), if_neg (by rw [hm]; exact nofun)]
  rw [State.core, hcores]
  show vLane ((u.core c).vr (vDst (nextDesc s c) % 32)) l = _
  rw [hlane, vLane_ofLanes hlen, hls l hl, ← hvin]
  rfl

/-- Settles O34: each of the three rows works lane by lane in INT32, which is arithmetic modulo 2^32. -/
theorem integerLanesWrap : Obligations.IntegerLanesWrap := by
  intro s c l hl k d a b u p hp ht hm hi hq hv
  simp only [List.mem_cons, List.not_mem_nil, or_false] at hp
  obtain ⟨hadd, hsub, hmul, _⟩ := vectorElementwiseRows
  rcases hp with rfl | rfl | rfl
  · exact int32_lane hadd (by decide) hl ht hm hi hq hv
  · exact int32_lane hsub (by decide) hl ht hm hi hq hv
  · exact int32_lane hmul (by decide) hl ht hm hi hq hv

end Sys2Proof.Machine
end

section
/-! O25 to O28: the matrix descriptors, the chain waits and the local moves (chapters 05 and 06). -/

namespace Sys2Proof.Machine

/-! ### Descriptors that run at once -/

/-- A unit's descriptor that has issued in an idle package: what it is, and that it is alone. -/
theorem issues_alone {s : State} {c op : Nat} {p : Plan} (hi : s.unitsIdle = true) (h : issues s c op p = true) (next : Nat) :
    ∃ i, RunsLast (issued s c op next) c (s.core c).inflight i ∧ JustIssued s c op (issued s c op next) i ∧ dOp i.desc = op := by
  obtain ⟨i, hl, hj⟩ := issued_last op next (core_of_issues h) (on_of_issues h)
  exact ⟨i, .issued hi (on_of_issues h) hl, hj, by rw [hj.desc]; exact op_of_issues h⟩

/-- A row of a unit ends in what its descriptor's state settles to. -/
theorem settledRow_issue {s : State} {c op : Nat} {plan : State → Nat → Bytes → Plan} {next : Nat}
    (h : issues s c op (plan s c (nextDesc s c)) = true) (hn : (plan s c (nextDesc s c)).next = (next : Int)) :
    settledRow c s (s.issue c op plan (fun t _ _ => t)) = .next (seen s (issued s c op next).settle) := by
  rw [issue_of_issues _ h, hn, settledRow_eq_seen _ _ (core_of_issues h)]
  rfl

/-- The stage of a descriptor that a unit is to run. -/
theorem JustIssued.queued {s t : State} {c op : Nat} {i : Issued} (h : JustIssued s c op t i)
    (hu : opUnit op = 1 ∨ opUnit op = 3 ∨ opUnit op = 4) : i.stage = .queued := by
  rw [h.stage, if_neg (by omega)]

/-- Issue leaves the registers, the memory, the tiles and the chain buffer of the core. -/
theorem issued_own {s : State} {c : Nat} (op next : Nat) (h : (s.core c).state ≠ .off) :
    ((issued s c op next).core c).tiles = (s.core c).tiles ∧ ((issued s c op next).core c).mem = (s.core c).mem
      ∧ ((issued s c op next).core c).chain = (s.core c).chain ∧ ((issued s c op next).core c).state = .running := by
  obtain ⟨i, flags, v, hc⟩ := issued_core s c op next h
  rw [hc]
  exact ⟨rfl, rfl, rfl, rfl⟩

/-! ### MM -/

/-- Changing a core twice is changing it once. -/
theorem modCore_modCore (s : State) (c : Nat) (f g : Core → Core) (h : f (s.core c) ≠ Core.off) :
    (s.modCore c f).modCore c g = s.modCore c (fun k => g (f k)) := by
  have hcore : (s.modCore c f).core c = f (s.core c) := core_setCore s c _ h
  rw [State.modCore, hcore]
  exact setCore_setCore s c _ _ h

theorem modNth_modNth (f g : Issued → Issued) : ∀ (n : Nat) (l : List Issued), modNth g n (modNth f n l) = modNth (fun i => g (f i)) n l
  | _, [] => by simp only [modNth]
  | 0, _ :: _ => rfl
  | n + 1, a :: r => congrArg (a :: ·) (modNth_modNth f g n r)

/-- Changing a descriptor twice is changing it once. -/
theorem modIssued_modIssued {s : State} {c n : Nat} (f g : Issued → Issued) (h : (s.core c).state ≠ .off) :
    (s.modIssued c n f).modIssued c n g = s.modIssued c n (fun i => g (f i)) := by
  rw [State.modIssued, State.modIssued, modCore_modCore _ _ _ _ (ne_off_of_state h), State.modIssued]
  simp only [modNth_modNth]

/-- The state after the passes of an MM that is not selected for recompute. -/
def State.passed (s : State) (c n : Nat) (d : Bytes) (r : Tile × Nat × Bool × Nat) (shadow : Tile) : State :=
  ((((((s.modCore c (fun k => k.setTile (mmTile d) r.1)).add (O.mxRetries (c / 64) (c % 64)) r.2.1).add
    (O.mxRangeLow (c / 64) (c % 64)) r.2.2.2).add (O.mxSaturated (c / 64) (c % 64)) r.2.2.1.toNat).pc c 0x0B (mmMacs d * (r.2.1 + 1))).pc c
    0x12 r.2.1).modIssued c n (fun i => { i with stage := .begun, shadow := some shadow, sample := none })

/-- Without recompute the passes of an MM that sends its tile nowhere are done. -/
theorem mmPasses_plain {s : State} {c n : Nat} {i : Issued} (start : Tile) (hc : c < 3072) (hr : s.rd O.recomputeN = 0)
    (ho : mmChainOut i.desc = false) :
    s.mmPasses c n i start = .done (s.passed c n i.desc (mmRun i.x ⟨(s.core c).mem, (s.bent (c / 64)).mem⟩ i.desc start) start) := by
  have hsel : ∀ u : State, u.rd O.recomputeN = 0 → u.selectSample c = (none, u) := fun u hu => by
    rw [State.selectSample]; simp only [hu, if_true]
  have hadd : ∀ (u : State) (off v : Nat), off < 0x40 → u.rd O.recomputeN = 0 → (u.add ((0x3000 + off + 0x40 * (c / 64)) * 256 + (0x01 + c % 64)) v).rd
      O.recomputeN = 0 := fun u off v hoff hu => by
    rw [State.add, State.rd_wr_of_ne _ _ (by rw [O.recomputeN]; omega), hu]
  have hpc : ∀ (u : State) (e v : Nat), u.rd O.recomputeN = 0 → (u.pc c e v).rd O.recomputeN = 0 := fun u e v hu => by
    rw [keepsValues_pc u c e v _ (by decide), hu]
  simp only [State.mmPasses]
  rw [hsel]
  · simp only [ho, Bool.false_eq_true, if_false]
    rfl
  · exact hpc _ _ _ (hpc _ _ _ (hadd _ 0x16 _ (by omega) (hadd _ 0x14 _ (by omega) (hadd _ 0x15 _ (by omega) hr))))

/-- After the passes the MM is alone still. -/
theorem RunsLast.passed {s : State} {c : Nat} {l : List Issued} {i : Issued} (h : RunsLast s c l i) (d : Bytes) (r : Tile × Nat × Bool × Nat)
    (shadow : Tile) : RunsLast (s.passed c l.length d r shadow) c l { i with stage := .begun, shadow := some shadow, sample := none } :=
  ((((((h.modCore (g := fun k => k.setTile (mmTile d) r.1) rfl h.inflight).add _ _).add _ _).add _ _).pc _ _ _).pc _ _ _).modIssued _

/-- An MM without chains runs its passes on its tile, or on the empty one with ZERO, and keeps its own tile as its shadow. -/
theorem runMm_plain {s : State} {c : Nat} {l : List Issued} {i : Issued} (h : RunsLast s c l i) (hc : c < 3072) (hr : s.rd O.recomputeN = 0)
    (hin : mmChainIn i.desc = false) (ho : mmChainOut i.desc = false) :
    s.runMm c l.length i = .done (s.passed c l.length i.desc (mmRun i.x ⟨(s.core c).mem, (s.bent (c / 64)).mem⟩ i.desc
      (if mmZero i.desc then Tile.empty else (s.core c).tile (mmTile i.desc))) ((s.core c).tile (mmTile i.desc))) := by
  rw [State.runMm, if_neg (by rw [hin]; exact nofun)]
  by_cases hz : mmZero i.desc
  · rw [if_pos hz, if_pos hz, mmPasses_plain _ hc hr ho]
    dsimp only
    rw [State.passed, modIssued_modIssued]
    · rfl
    · exact (((((h.modCore (g := fun k => k.setTile (mmTile i.desc) _) rfl h.inflight).add _ _).add _ _).add _ _).pc _ _ _).pc _ _ _ |>.on
  · rw [if_neg hz, if_neg hz, mmPasses_plain _ hc hr ho]

/-- MM where it is issued: without chains it runs its passes, and with CHAIN_IN it waits for its buffer. -/
theorem mm_runs {s : State} {c : Nat} (hi : s.unitsIdle = true) {p : Plan} (h : issues s c 0x10 p = true) (next : Nat) :
    (mmChainIn (nextDesc s c) = false → mmChainOut (nextDesc s c) = false → s.rd O.recomputeN = 0 →
      (issued s c 0x10 next).settle = (((issued s c 0x10 next).passed c (s.core c).inflight.length (nextDesc s c)
        (mmRun (s.core c).x ⟨(s.core c).mem, (s.bent (c / 64)).mem⟩ (nextDesc s c)
          (if mmZero (nextDesc s c) then Tile.empty else (s.core c).tile (mmTile (nextDesc s c))))
        ((s.core c).tile (mmTile (nextDesc s c)))).finish c (s.core c).inflight.length).settle)
    ∧ (mmChainIn (nextDesc s c) = true → (s.core c).chain = none →
      (issued s c 0x10 next).settle
        = ((issued s c 0x10 next).modIssued c (s.core c).inflight.length (fun i => { i with stage := .begun })).settle) := by
  obtain ⟨i, hl, hj, hop⟩ := issues_alone hi h next
  obtain ⟨htiles, hmem, hchain, -⟩ := issued_own 0x10 next (on_of_issues h)
  have hq := hj.queued (by decide)
  have hat : (issued s c 0x10 next).runAt c (s.core c).inflight.length (opUnit 0x10) i
      = match (issued s c 0x10 next).runMm c (s.core c).inflight.length i with
        | .done t => some (t.finish c (s.core c).inflight.length)
        | .begun t => some t
        | .faults t code => some (t.faultIssued c (s.core c).inflight.length code)
        | .waits => none := by
    simp only [State.runAt, State.runMatrix, hop, hq, show opUnit 0x10 = 1 by decide, if_true, reduceCtorEq, if_false] <;> rfl
  refine ⟨fun hin hout hr => ?_, fun hin hnone => ?_⟩
  · refine hl.settle_finish hq hop (by decide) ?_ (hl.passed _ _ _)
    have hbents : (issued s c 0x10 next).bent (c / 64) = s.bent (c / 64) := by rw [State.bent, issued_frame]; rfl
    have htile : ∀ n, ((issued s c 0x10 next).core c).tile n = (s.core c).tile n := fun n => by rw [Core.tile, htiles]; rfl
    rw [hat, runMm_plain hl (core_of_issues h) ((keepsValues_issued s c 0x10 next _ (by decide)).trans hr) (by rw [hj.desc]; exact hin)
      (by rw [hj.desc]; exact hout), hj.desc, hj.x, hmem, hbents, htile]
  · refine hl.settle_waits hq hop (by decide) ?_ (hl.modIssued _) rfl rfl (fun _ => ?_)
    · rw [hat, State.runMm, if_pos (by rw [hj.desc]; exact hin), hchain, hnone]
    · simp only [State.runAt, show opUnit 0x10 = 1 by decide, if_true]

/-! ### The tile descriptors -/

/-- Clearing tiles leaves a core's state and what it has in flight. -/
theorem clearTiles_keeps (m : Nat) : ∀ (l : List Nat) (k : Core),
    (l.foldl (fun k t => if m.testBit t then k.setTile t Tile.empty else k) k).state = k.state
      ∧ (l.foldl (fun k t => if m.testBit t then k.setTile t Tile.empty else k) k).inflight = k.inflight
  | [], _ => ⟨rfl, rfl⟩
  | t :: r, k => by
    rw [List.foldl_cons]
    split
    · exact clearTiles_keeps m r (k.setTile t Tile.empty)
    · exact clearTiles_keeps m r k

/-- Bytes written at addresses of the core leave its descriptor alone. -/
theorem RunsLast.writes {c : Nat} {l : List Issued} {i : Issued} : ∀ (ws : List (Nat × Bytes)) {s : State}, RunsLast s c l i →
    RunsLast (ws.foldl (fun (u : State) p => u.writeLocal c p.1 p.2) s) c l i
  | [], _, h => h
  | p :: r, _, h => RunsLast.writes r (h.writeLocal p.1 p.2)

/-- A matrix descriptor whose run is done is complete. -/
theorem runAt_matrix {s t : State} {c pos : Nat} {i : Issued} (hq : i.stage = .queued) (h : s.runMatrix c pos i = .done t) :
    s.runAt c pos 1 i = some (t.finish c pos) := by
  simp only [State.runAt, if_true, hq, reduceCtorEq, if_false, h]

theorem runMatrix_tileClear {s : State} {c pos : Nat} {i : Issued} (h : dOp i.desc = 0x18) :
    s.runMatrix c pos i = .done (s.modCore c (fun k => (natsFrom 0 4).foldl
      (fun k t => if (byteField i.desc 8 1).testBit t then k.setTile t Tile.empty else k) k)) := by
  rw [State.runMatrix, if_neg (by rw [h]; decide), if_pos h]

theorem runMatrix_tileStore {s : State} {c pos : Nat} {i : Issued} (h : dOp i.desc = 0x19) :
    s.runMatrix c pos i = .done
      (((tsRun i.rng i.seed i.x (s.core c).mem i.desc ((s.core c).tile (byteField i.desc 13 1 % 4))).1.foldl
        (fun (t : State) p => t.writeLocal c p.1 p.2) s).modCore c
        (fun k => k.raise (tsRun i.rng i.seed i.x (s.core c).mem i.desc ((s.core c).tile (byteField i.desc 13 1 % 4))).2)) := by
  rw [State.runMatrix, if_neg (by rw [h]; decide), if_neg (by rw [h]; decide), if_pos h]

theorem runMatrix_tileStat {s : State} {c pos : Nat} {i : Issued} (h : dOp i.desc = 0x1A) :
    s.runMatrix c pos i = .done (s.modCore c (fun n => n.setX (selReg (byteField i.desc 9 1))
      (BitVec.ofNat 64 ((s.core c).tile (byteField i.desc 8 1 % 4)).status))) := by
  rw [State.runMatrix, if_neg (by rw [h]; decide), if_neg (by rw [h]; decide), if_neg (by rw [h]; decide)]
  rfl

/-- Settles O25: each matrix descriptor is alone when it has issued, and what it settles to is its run. -/
theorem matrixDescriptors : Obligations.MatrixDescriptors := by
  intro s c hi k d b n t next
  refine ⟨fun h => ?_, fun h => ?_, fun h => ?_, fun h => ?_⟩
  · have hex : exec (.mm c) s = .next (seen s (issued s c 0x10 (k.dptr + 64)).settle) := by
      show execMm c s = _
      rw [execMm]
      exact settledRow_issue h rfl
    obtain ⟨hrun, hwait⟩ := mm_runs hi h (k.dptr + 64)
    refine ⟨fun hin hout hr => ?_, fun hin hnone => ?_⟩
    · rw [hex, hrun hin hout hr]
      rfl
    · rw [hex, hwait hin hnone]
  · obtain ⟨i, hl, hj, hop⟩ := issues_alone hi h (k.dptr + 64)
    have hex : exec (.tileClear c) s = .next (seen s (t 0x18).settle) := by
      show execTileClear c s = _
      rw [execTileClear]
      exact settledRow_issue h rfl
    have hkeep := clearTiles_keeps (byteField d 8 1) (natsFrom 0 4) ((t 0x18).core c)
    have hafter := hl.modCore (g := fun k => (natsFrom 0 4).foldl (fun k t => if (byteField d 8 1).testBit t then k.setTile t Tile.empty else k) k)
      hkeep.1 (hkeep.2.trans hl.inflight)
    rw [hex, hl.settle_finish (hj.queued (by decide)) hop (by decide) (runAt_matrix (hj.queued (by decide)) ?_) hafter]
    rw [runMatrix_tileClear hop, hj.desc]
  · obtain ⟨i, hl, hj, hop⟩ := issues_alone hi h (k.dptr + 64)
    have hex : exec (.tileStore c) s = .next (seen s (t 0x19).settle) := by
      show execTileStore c s = _
      rw [execTileStore]
      exact settledRow_issue h rfl
    obtain ⟨htiles, hmem, -, -⟩ := issued_own 0x19 (k.dptr + 64) (on_of_issues h)
    have htile : ((t 0x19).core c).tile (byteField d 13 1 % 4) = k.tile (byteField d 13 1 % 4) := by rw [Core.tile, htiles]; rfl
    intro r
    have hafter := (hl.writes r.1).modCore (g := fun k => k.raise r.2) rfl (hl.writes r.1).inflight
    rw [hex, hl.settle_finish (hj.queued (by decide)) hop (by decide) (runAt_matrix (hj.queued (by decide)) ?_) hafter]
    rw [runMatrix_tileStore hop, hj.desc, hj.rng, hj.seed, hj.x, hmem]
    exact congrArg (fun x => Ran.done (State.modCore (List.foldl _ _ (tsRun _ _ _ _ _ x).1) c (fun k => k.raise (tsRun _ _ _ _ _ x).2))) htile
  · obtain ⟨i, hl, hj, hop⟩ := issues_alone hi h (k.dptr + 64)
    have hex : exec (.tileStat c) s = .next (seen s (t 0x1A).settle) := by
      show execTileStat c s = _
      rw [execTileStat]
      exact settledRow_issue h rfl
    obtain ⟨htiles, -, -, -⟩ := issued_own 0x1A (k.dptr + 64) (on_of_issues h)
    have htile : ((t 0x1A).core c).tile (byteField d 8 1 % 4) = k.tile (byteField d 8 1 % 4) := by rw [Core.tile, htiles]; rfl
    have hafter := hl.modCore (g := fun n => n.setX (selReg (byteField d 9 1)) (BitVec.ofNat 64 (k.tile (byteField d 8 1 % 4)).status)) rfl
      hl.inflight
    rw [hex, hl.settle_finish (hj.queued (by decide)) hop (by decide) (runAt_matrix (hj.queued (by decide)) ?_) hafter]
    rw [runMatrix_tileStat hop, hj.desc]
    exact congrArg (fun x : Tile => Ran.done (State.modCore _ c (fun n => n.setX _ (BitVec.ofNat 64 x.status)))) htile

/-- Settles O26: the two rows go by the chain buffers of the core and of the next one. -/
theorem chainLoadAndTransfer : Obligations.ChainLoadAndTransfer := by
  intro s c pos i hc hi n
  refine ⟨fun v hw hv ht => ?_, fun hw hon hnone => ?_, fun hw hoff => ?_⟩
  · show execChainLoad c s = _
    rw [execChainLoad, settledRow_eq_seen _ _ hc, State.chainLoad, hw]
    simp only [hi, hv, State.mmLoad, ht, Bool.false_eq_true, if_false]
  · show execChainTransfer c s = _
    rw [execChainTransfer, settledRow_eq_seen _ _ hc, State.chainTransfer, hw]
    simp only [hi]
    rw [State.chainOut, if_neg hon, if_neg (by rw [hnone]; exact nofun)]
    rfl
  · show execChainTransfer c s = _
    rw [execChainTransfer, settledRow_eq_seen _ _ hc, State.chainTransfer, hw]
    simp only [hi]
    rw [State.chainOut, if_pos hoff]
    rfl

/-! ### Local moves -/

/-- One row written at a local destination. -/
def State.putRow (s : State) (c peer a : Nat) (bs : Bytes) : State :=
  if peer = c then s.writeLocal c a bs else s.modCore peer (fun k => { k with mem := k.mem.setBytes 0#8 a bs })

theorem putRows_nil (s : State) (c peer dst stride : Nat) : s.putRows c peer dst stride [] = s := rfl

theorem putRows_cons (s : State) (c peer dst stride : Nat) (bs : Bytes) (r : List Bytes) :
    s.putRows c peer dst stride (bs :: r) = (s.putRow c peer dst bs).putRows c peer (dst + stride) stride r := rfl

theorem RunsLast.putRows {c : Nat} {l : List Issued} {i : Issued} (peer stride : Nat) : ∀ (rows : List Bytes) (dst : Nat) {s : State},
    RunsLast s c l i → RunsLast (s.putRows c peer dst stride rows) c l i
  | [], _, _, h => h
  | bs :: r, dst, s, h => by
    rw [putRows_cons]
    refine RunsLast.putRows peer stride r (dst + stride) ?_
    unfold State.putRow
    split
    · exact h.writeLocal _ _
    · exact h.modCore_other (by assumption) rfl

/-- A move whose run is done is complete. -/
theorem runAt_move {s t : State} {c pos : Nat} {i : Issued} (h : s.runMove c pos i = .done t) : s.runAt c pos 3 i = some (t.finish c pos) := by
  simp only [State.runAt, show ¬(3 : Nat) = 1 by decide, if_false, if_true, h]

/-- A local move copies its rows to a core that is not off. -/
theorem runMove_local {s : State} {c pos peer : Nat} {i : Issued} (h : dOp i.desc ≠ 0x63)
    (hp : peer = if dOp i.desc = 0x62 then c / 64 * 64 + mvPeer i.desc else c) (hon : (s.core peer).state ≠ .off) :
    s.runMove c pos i = .done ((s.putRows c peer (mvDst i.x i.desc) (mvDstStride i.desc)
      ((mvRowsAt (mvSrc i.x i.desc) (mvSrcStride i.desc) i.desc).map (fun r => s.readLocal c r (mvRow i.desc)))).pc c 0x0E
        (mvRow i.desc * mvRows i.desc)) := by
  rw [State.runMove, if_neg h]
  dsimp only
  rw [← hp, if_neg hon]

/-- A local move that has issued and whose destination's core is not off copies its rows at once. -/
theorem move_runs {s : State} {c op : Nat} {p : Plan} (hi : s.unitsIdle = true) (h : issues s c op p = true) (next peer : Nat)
    (hop : op = 0x60 ∨ op = 0x61 ∨ op = 0x62) (hpeer : peer = if op = 0x62 then c / 64 * 64 + mvPeer (nextDesc s c) else c)
    (hon : ((issued s c op next).core peer).state ≠ .off) :
    (issued s c op next).settle = ((((issued s c op next).putRows c peer (mvDst (s.core c).x (nextDesc s c)) (mvDstStride (nextDesc s c))
      ((mvRowsAt (mvSrc (s.core c).x (nextDesc s c)) (mvSrcStride (nextDesc s c)) (nextDesc s c)).map
        (fun r => (issued s c op next).readLocal c r (mvRow (nextDesc s c))))).pc c 0x0E (mvRow (nextDesc s c) * mvRows (nextDesc s c))).finish c
      (s.core c).inflight.length).settle := by
  obtain ⟨i, hl, hj, hopd⟩ := issues_alone hi h next
  have hunit : opUnit op = 3 := by rcases hop with rfl | rfl | rfl <;> decide
  refine hl.settle_finish (hj.queued (by omega)) hopd (by omega) ?_ ((hl.putRows peer _ _ _).pc _ _ _)
  rw [hunit]
  refine runAt_move ?_
  rw [runMove_local (by omega) (by rw [hopd, hj.desc]; exact hpeer) hon, hj.desc, hj.x]

/-- Settles O27: each local move runs at once where it issues. -/
theorem localMovesCopyTheirRows : Obligations.LocalMovesCopyTheirRows := by
  intro s c hi k d n t plan rows copied
  have row : ∀ {op : Nat}, issues s c op (plan op) = true →
      settledRow c s (s.mvIssue c op (fun t _ _ => t)) = .next (seen s (issued s c op (k.dptr + 64)).settle) := fun h => by
    rw [State.mvIssue]
    exact settledRow_issue h rfl
  have hrun : ∀ {op : Nat}, issues s c op (plan op) = true → ((t op).core c).state ≠ .off := fun h => by
    rw [(issued_own _ _ (on_of_issues h)).2.2.2]
    exact nofun
  refine ⟨fun h => ?_, fun h => ?_, fun h => ?_⟩
  · show execMoveLocal c s = _
    rw [execMoveLocal, row h, move_runs hi h _ c (by decide) rfl (hrun h)]
  · show execMoveBent c s = _
    rw [execMoveBent, row h, move_runs hi h _ c (by decide) rfl (hrun h)]
  · show execMovePeer c s = _
    have hpeer : ((t 0x62).core (c / 64 * 64 + mvPeer d)).state ≠ .off := by
      by_cases hc : c / 64 * 64 + mvPeer d = c
      · rw [hc]
        exact hrun h
      · rw [issued_core_other _ hc]
        have hf : s.mvFault c 0x62 d = 0 := by
          simp only [issues, Bool.and_eq_true, decide_eq_true_eq] at h
          exact h.1.1.2
        intro hoff
        rw [State.mvFault] at hf
        simp [hoff] at hf
    rw [execMovePeer, row h, move_runs hi h _ (c / 64 * 64 + mvPeer d) (by decide) rfl hpeer]

/-! ### What a local move leaves -/

/-- A byte read outside the bytes written is as before. -/
theorem bytes_setBytes_other (m : Map Byte) {a b : Nat} {bs : Bytes} (h : ¬(b ≤ a ∧ a < b + bs.length)) :
    (m.setBytes 0#8 b bs).bytes 0#8 a 1 = m.bytes 0#8 a 1 := by
  simp only [Map.bytes, Map.get_setBytes_other m 0#8 b a bs (by omega)]

/-- The cores and the Bents of a package are listed in order and without those that read as absent. -/
def State.unitsListed (s : State) : Prop := s.cores.wf (fun _ => Core.off) = true ∧ s.bents.wf (fun _ => Bent.empty) = true

theorem core_modCore_of_wf {s : State} {c : Nat} (g : Core → Core) (h : s.unitsListed) : (s.modCore c g).core c = g (s.core c) :=
  Map.get_set_same s.cores (fun _ => Core.off) c _ h.1

/-- One row leaves the units listed. -/
theorem putRow_listed {s : State} {c peer a : Nat} {bs : Bytes} (h : s.unitsListed) : (s.putRow c peer a bs).unitsListed := by
  have hcores : ∀ (p : Nat) (k : Core), (s.setCore p k).unitsListed := fun p k => ⟨Map.wf_set s.cores (fun _ => Core.off) p k h.1, h.2⟩
  unfold State.putRow State.writeLocal
  split
  · split
    · exact ⟨h.1, Map.wf_set s.bents (fun _ => Bent.empty) _ _ h.2⟩
    · exact hcores _ _
  · exact hcores _ _

/-- One row at an own address leaves every byte outside it. -/
theorem putRow_readLocal {s : State} {c a b : Nat} {bs : Bytes} (h : s.unitsListed) (ha : ¬(b ≤ a ∧ a < b + bs.length)) :
    (s.putRow c c b bs).readLocal c a 1 = s.readLocal c a 1 := by
  have hbent : ∀ k, (s.setBent (c / 64) k).bent (c / 64) = k := fun k => Map.get_set_same s.bents (fun _ => Bent.empty) _ k h.2
  rw [State.putRow, if_pos rfl, State.writeLocal, State.readLocal, State.readLocal]
  by_cases hr : inBent a 1
  · rw [if_pos hr, if_pos hr]
    by_cases hw : inBent b bs.length
    · rw [if_pos hw, hbent]
      simp only [inBent, Bool.and_eq_true, decide_eq_true_eq] at hr hw
      exact bytes_setBytes_other _ (by omega)
    · rw [if_neg hw]
      rfl
  · rw [if_neg hr, if_neg hr]
    by_cases hw : inBent b bs.length
    · rw [if_pos hw]
      rfl
    · rw [if_neg hw, core_modCore_of_wf _ h]
      exact bytes_setBytes_other _ ha

/-- One row at a peer leaves every byte outside it there, and every other core. -/
theorem putRow_peer {s : State} {c peer a b : Nat} {bs : Bytes} (hp : peer ≠ c) (h : s.unitsListed) (ha : ¬(b ≤ a ∧ a < b + bs.length)) :
    ((s.putRow c peer b bs).core peer).mem.bytes 0#8 a 1 = (s.core peer).mem.bytes 0#8 a 1 ∧ (s.putRow c peer b bs).core c = s.core c := by
  rw [State.putRow, if_neg hp]
  refine ⟨?_, core_modCore_other s _ (Ne.symm hp)⟩
  rw [core_modCore_of_wf _ h]
  exact bytes_setBytes_other _ ha

/-- A byte outside all rows is outside the first and outside the rest. -/
theorem outside_cons {dst stride a : Nat} {bs : Bytes} {r : List Bytes}
    (h : ∀ i b, (bs :: r)[i]? = some b → ¬(dst + i * stride ≤ a ∧ a < dst + i * stride + b.length)) :
    ¬(dst ≤ a ∧ a < dst + bs.length)
      ∧ ∀ i b, r[i]? = some b → ¬(dst + stride + i * stride ≤ a ∧ a < dst + stride + i * stride + b.length) := by
  refine ⟨?_, fun i b hi => ?_⟩
  · have := h 0 bs rfl
    rwa [Nat.zero_mul, Nat.add_zero] at this
  · have := h (i + 1) b hi
    rwa [show dst + (i + 1) * stride = dst + stride + i * stride by rw [Nat.succ_mul]; omega] at this

/-- Settles O28: by induction on the rows, each of which leaves what lies outside it. -/
theorem localMovesKeepOtherBytes : Obligations.LocalMovesKeepOtherBytes := by
  intro s c peer dst stride rows a hout hcores hbents
  have hlisted : s.unitsListed := ⟨hcores, hbents⟩
  clear hcores hbents
  induction rows generalizing s dst with
  | nil => exact ⟨fun _ => rfl, fun _ => ⟨rfl, rfl⟩⟩
  | cons bs r ih =>
    obtain ⟨hfirst, hrest⟩ := outside_cons hout
    obtain ⟨hown, hpeer⟩ := ih (s.putRow c peer dst bs) (dst + stride) hrest (putRow_listed hlisted)
    rw [putRows_cons]
    refine ⟨fun h => ?_, fun h => ?_⟩
    · subst h
      rw [hown rfl, putRow_readLocal hlisted hfirst]
    · obtain ⟨hmem, hcore⟩ := hpeer h
      obtain ⟨hmem', hcore'⟩ := putRow_peer h hlisted hfirst
      exact ⟨hmem.trans hmem', hcore.trans hcore'⟩

end Sys2Proof.Machine
end

section
/-! O29: MOVE_TENSOR (chapters 05, 10, 12, 15 and 16). -/

namespace Sys2Proof.Machine

/-- What each step of a list leaves, all leave. -/
theorem each_keeps {α β : Type} (part : State → β) {f : State → α → State} (h : ∀ t a, part (f t a) = part t) :
    ∀ (l : List α) (s : State), part (State.each f s l) = part s
  | [], _ => rfl
  | a :: r, s => (each_keeps part h r (f s a)).trans (h s a)

/-! ### Reads of the own die -/

theorem touch_cores (s : State) (b f : Nat) : (s.touch b f).cores = s.cores := by
  unfold State.touch
  dsimp only
  split
  · rfl
  · rfl

theorem touch_frames (s : State) (b f : Nat) : (s.touch b f).frames = s.frames := by
  unfold State.touch
  dsimp only
  split
  · rfl
  · rfl

theorem countReads_cores (s : State) (b : Nat) (fs : List Nat) : (s.countReads b fs).cores = s.cores := by
  refine each_keeps State.cores (fun t f => ?_) fs s
  split
  · rw [touch_cores, State.bpc_cores, State.add_cores]
  · rw [State.bpc_cores, State.add_cores]

theorem countReads_frames (s : State) (b : Nat) (fs : List Nat) : (s.countReads b fs).frames = s.frames := by
  refine each_keeps State.frames (fun t f => ?_) fs s
  split
  · rw [touch_frames, State.bpc_frames, State.add_frames]
  · rw [State.bpc_frames, State.add_frames]

theorem countHbm_cores (s : State) (event b : Nat) (l : List (Nat × Nat × Nat)) : (s.countHbm event b l).cores = s.cores := by
  rw [State.countHbm, State.bpc_cores]
  exact each_keeps State.cores (fun t x => t.kpc_cores _ _ _) l s

theorem countHbm_frames (s : State) (event b : Nat) (l : List (Nat × Nat × Nat)) : (s.countHbm event b l).frames = s.frames := by
  rw [State.countHbm, State.bpc_frames]
  exact each_keeps State.frames (fun t x => t.kpc_frames _ _ _) l s

/-- Blocks of the own die are asked of no other. -/
theorem askReads_own {c : Nat} : ∀ (l : List (Nat × Nat × Nat)) (s : State), (∀ x ∈ l, homeOf (16 * x.2.1 + x.1 % 16) = c / 768) →
    s.askReads c l = (s, [])
  | [], _, _ => rfl
  | x :: r, s, h => by
    rw [State.askReads, State.wantRead]
    simp only [h x (List.mem_cons_self ..), if_true]
    rw [askReads_own r s (fun y hy => h y (List.mem_cons_of_mem _ hy))]

/-- Blocks that are not poisoned and whose first reads pass are verified. -/
theorem verify_sound : ∀ (l : List (Nat × Nat × Nat)) (s : State), (∀ x ∈ l, (s.frame x.2.1).poison.contains (x.1 % 16) = false) →
    s.verify [] l = (s, true)
  | [], _, _ => rfl
  | (b, f, pool) :: r, s, h => by
    have hb : s.blockFault [] f b = none := by
      rw [State.blockFault, if_neg (by rw [h _ (List.mem_cons_self ..)]; exact nofun)]
      rfl
    simp only [State.verify, hb]
    exact verify_sound r s (fun x hx => h x (List.mem_cons_of_mem _ hx))

/-- The blocks of a tensor read, with their frames and pools. -/
def State.readList (s : State) (c : Nat) (i : Issued) : List (Nat × Nat × Nat) :=
  (distinct (mvBlocks (mvSrc i.x i.desc) (mvSrcStride i.desc) i.desc)).filterMap
    (fun b => (s.resolve (s.itemOf c) (b / 16)).map (fun f => (b, f, (s.page (b / 16)).pool)))

/-- Whether a block is one of a ring that has not landed (R310). -/
def State.unlanded (s : State) (b : Nat) : Bool :=
  match s.ringKeyOf b with
  | some (n, false, k) => !((s.slot n).landed.contains k)
  | _ => false

/-- The state in which the blocks of a tensor read are counted. -/
def State.readCounted (s : State) (c : Nat) (l : List (Nat × Nat × Nat)) : State :=
  (s.countReads (c / 64) (distinct (l.map (fun x => x.2.1)))).countHbm 0x03 (c / 64) (l.filter (fun x => !(s.isResident (c / 64) x.2.1)))

theorem readCounted_cores (s : State) (c : Nat) (l : List (Nat × Nat × Nat)) : (s.readCounted c l).cores = s.cores := by
  rw [State.readCounted, countHbm_cores, countReads_cores]

theorem readCounted_frames (s : State) (c : Nat) (l : List (Nat × Nat × Nat)) : (s.readCounted c l).frames = s.frames := by
  rw [State.readCounted, countHbm_frames, countReads_frames]

/-- The blocks of a tensor read (R109). -/
def Issued.readBlocks (i : Issued) : List Nat := distinct (mvBlocks (mvSrc i.x i.desc) (mvSrcStride i.desc) i.desc)

/-- The course of a tensor read that has asked nothing yet. -/
theorem runTensorRead_fresh {s : State} {c pos : Nat} {i : Issued} (ha : i.asked = none) :
    s.runTensorRead c pos i =
      if i.readBlocks.any s.unlanded then
        (if i.ring.isSome then .waits else .begun (s.modIssued c pos (fun i =>
          { i with stage := .begun, ring := some (i.due - s.now), due := s.now + s.rd (O.chWaitLimit (c / 64)) })))
      else if !(i.readBlocks.all (fun b => s.mapped (b / 16))) then .faults s 0x04
      else
        let cold := (s.readList c i).filter (fun x => !(s.isResident (c / 64) x.2.1))
        let near := cold.filter (fun x => decide (homeOf (16 * x.2.1 + x.1 % 16) = c / 768))
        let t := (s.countReads (c / 64) (distinct ((s.readList c i).map (fun x => x.2.1)))).countHbm 0x03 (c / 64) near
        if (t.askReads c cold).2.isEmpty then (t.askReads c cold).1.endTensorRead c i (s.readList c i)
        else .begun (((t.askReads c cold).1.bpc (c / 64) 0x05 (4096 * (t.askReads c cold).2.length)).modIssued c pos (fun i =>
          { i with stage := .begun, asked := some (t.askReads c cold).2, came := (t.askReads c cold).2,
                   due := i.ring.elim i.due (fun r => s.now + r), ring := none })) := by
  unfold State.runTensorRead
  rw [ha]
  rfl

/-- A tensor read whose blocks have landed goes on with what it has asked. -/
theorem runTensorRead_landed {s : State} {c pos : Nat} {i : Issued}
    (hb : ∀ b ∈ i.readBlocks, s.mapped (b / 16) = true ∧ s.ringKeyOf b = none)
    (ha : i.asked = none) (hr : i.reads.all (fun r => (s.readList c i).all (fun x => decide (r.block ≠ x.1))) = true)
    (hx : ∀ x ∈ s.readList c i, homeOf (16 * x.2.1 + x.1 % 16) = c / 768 ∧ (s.frame x.2.1).poison.contains (x.1 % 16) = false) :
    s.runTensorRead c pos i = .done
      (((((s.readCounted c (s.readList c i)).bpc (c / 64) 0x0B (s.readList c i).length)).putRows c c (mvDst i.x i.desc) (mvDstStride i.desc)
        ((mvRowsAt (mvSrc i.x i.desc) (mvSrcStride i.desc) i.desc).map (fun r =>
          ((s.readCounted c (s.readList c i)).bpc (c / 64) 0x0B (s.readList c i).length).tensorBytes
            ((s.readCounted c (s.readList c i)).itemOf c) r (mvRow i.desc)))).pc c 0x0E (mvRow i.desc * mvRows i.desc)) := by
  have hland : i.readBlocks.any s.unlanded = false := by
    rw [List.any_eq_false]
    intro b hm
    rw [State.unlanded, (hb b hm).2]
    exact nofun
  have hmap : i.readBlocks.all (fun b => s.mapped (b / 16)) = true := List.all_eq_true.mpr fun b hm => (hb b hm).1
  have hnear : ((s.readList c i).filter (fun x => !(s.isResident (c / 64) x.2.1))).filter
      (fun x => decide (homeOf (16 * x.2.1 + x.1 % 16) = c / 768)) = (s.readList c i).filter (fun x => !(s.isResident (c / 64) x.2.1)) :=
    List.filter_eq_self.mpr fun x hm => by simpa using (hx x (List.mem_filter.mp hm).1).1
  have hask := askReads_own (c := c) ((s.readList c i).filter (fun x => !(s.isResident (c / 64) x.2.1))) (s.readCounted c (s.readList c i))
    (fun x hm => (hx x (List.mem_filter.mp hm).1).1)
  have hfirst : (s.readCounted c (s.readList c i)).firstFails c i (s.readList c i) = [] := by
    rw [State.firstFails, List.filterMap_eq_nil_iff]
    intro x hm
    rw [List.find?_eq_none.mpr]
    · rfl
    · intro r hrm
      simpa using List.all_eq_true.mp (List.all_eq_true.mp hr r hrm) x hm
  have hver := verify_sound (s.readList c i) ((s.readCounted c (s.readList c i)).bpc (c / 64) 0x0B (s.readList c i).length) (fun x hm => by
    rw [State.frame, State.bpc_frames, readCounted_frames]
    exact (hx x hm).2)
  rw [runTensorRead_fresh ha, if_neg (by rw [hland]; exact nofun), if_neg (by rw [hmap]; exact nofun)]
  dsimp only
  rw [hnear, show ((s.countReads _ _).countHbm _ _ _) = s.readCounted c (s.readList c i) from rfl, hask]
  simp only [List.isEmpty_nil, if_true, State.endTensorRead, hfirst, hver, Bool.not_true, Bool.false_eq_true, if_false]

/-- A tensor read of a ring block that has not landed waits, with the limit of a ring wait (R310). -/
theorem runTensorRead_unlanded {s : State} {c pos : Nat} {i : Issued} (ha : i.asked = none) (h : i.readBlocks.any s.unlanded = true) :
    s.runTensorRead c pos i = if i.ring.isSome then .waits else .begun (s.modIssued c pos (fun i =>
      { i with stage := .begun, ring := some (i.due - s.now), due := s.now + s.rd (O.chWaitLimit (c / 64)) })) := by
  rw [runTensorRead_fresh ha, if_pos h]

/-! ### Writes -/

/-- One core has a descriptor in flight after so many complete ones, and every other core is idle. -/
def Alone (s : State) (c n : Nat) (i : Issued) : Prop := ∃ l : List Issued, l.length = n ∧ RunsLast s c l i

theorem RunsLast.alone {s : State} {c : Nat} {l : List Issued} {i : Issued} (h : RunsLast s c l i) : Alone s c l.length i := ⟨l, rfl, h⟩

namespace Alone

variable {s t : State} {c n : Nat} {i : Issued}

theorem of_cores (h : Alone s c n i) (hc : t.cores = s.cores) : Alone t c n i := by
  obtain ⟨l, hl, hr⟩ := h
  exact ⟨l, hl, hr.of_cores hc⟩

/-- The answer for a block leaves a descriptor that has asked nothing. -/
theorem moveServed (h : Alone s c n i) (hi : i.asked = none) (k block : Nat) : Alone (s.moveServed k block) c n i := by
  obtain ⟨l, hl, hr⟩ := h
  let f : Issued → Issued := fun i => { i with asked := i.asked.map (dropFirst (fun b => decide (b = block))) }
  have hstage : ∀ m : List Issued, m.all (fun j => decide (j.stage = .complete)) = true →
      (m.map f).all (fun j => decide (j.stage = .complete)) = true := fun m hm => by
    rw [List.all_map]
    exact hm
  by_cases hk : k = c
  · subst hk
    have hne : ({ s.core k with inflight := (s.core k).inflight.map f } : Core) ≠ Core.off := ne_off_of_state hr.on
    have hcore : (s.moveServed k block).core k = { s.core k with inflight := (s.core k).inflight.map f } := core_setCore s k _ hne
    refine ⟨l.map f, by rw [List.length_map, hl], near_setCore hr.near hne, by rw [hcore]; exact hr.on, ?_, hstage l hr.done⟩
    rw [hcore]
    dsimp only
    rw [hr.inflight, List.map_append, List.map_singleton, show f i = i by show ({ i with asked := i.asked.map _ } : Issued) = i; rw [hi, Option.map_none, ← hi]]
  · have hcore : (s.moveServed k block).core c = s.core c := core_modCore_other s _ (Ne.symm hk)
    exact ⟨l, hl, near_setCore_other hr.near hk (hstage _ (idle_other hr.near hk)), by rw [hcore]; exact hr.on, by rw [hcore]; exact hr.inflight,
      hr.done⟩

theorem each {α : Type} {f : State → α → State} (h : ∀ s a, Alone s c n i → Alone (f s a) c n i) :
    ∀ (l : List α) {s : State}, Alone s c n i → Alone (State.each f s l) c n i
  | [], _, hs => hs
  | a :: r, _, hs => each h r (h _ a hs)

end Alone

theorem askHome_cores (s : State) (d : Nat) (o : DieOp) : (s.askHome d o).cores = s.cores := by
  unfold State.askHome
  dsimp only
  split
  · split <;> rfl
  · split <;> rfl

theorem askLater_cores (s : State) (d h : Nat) (writes : Bool) : (s.askLater d h writes).cores = s.cores := by
  unfold State.askLater
  dsimp only
  split
  · rfl
  · rw [askHome_cores]
    rfl

theorem dropResident_cores (s : State) (f except : Nat) : (s.dropResident f except).cores = s.cores := by
  refine each_keeps State.cores (fun t e => ?_) _ s
  split <;> rfl

theorem writeResident_cores (s : State) (b f off : Nat) (bs : Bytes) : (s.writeResident b f off bs).cores = s.cores := by
  unfold State.writeResident
  dsimp only
  split
  · split <;> rfl
  · rfl

theorem sendInvalidates_cores (s : State) (h block : Nat) (l : List Nat) :
    (State.each (fun (t : State) (d : Nat) => t.sendDie ⟨.invalidate, h, d, block, none⟩) s l).cores = s.cores :=
  each_keeps State.cores (fun t d => show (t.sendDie ⟨.invalidate, h, d, block, none⟩).cores = t.cores from rfl) l s

theorem blockWritten_cores (s : State) (writer block : Nat) : (s.blockWritten writer block).cores = s.cores := by
  unfold State.blockWritten
  dsimp only
  split
  · rfl
  · exact sendInvalidates_cores s _ _ _

theorem writeFrameBy_cores (s : State) (writer f off : Nat) (bs : Bytes) : (s.writeFrameBy writer f off bs).cores = s.cores := by
  unfold State.writeFrameBy
  dsimp only
  rw [State.setFrame_cores, State.kpc_cores]
  exact each_keeps State.cores (fun t b => blockWritten_cores t _ _) _ s

namespace Alone

variable {s : State} {c n : Nat} {i : Issued}

theorem opDone (h : Alone s c n i) (hi : i.asked = none) (d block : Nat) (write : Bool) : Alone (s.opDone d block write) c n i := by
  unfold State.opDone
  dsimp only
  refine of_cores ?_ (askLater_cores _ _ _ _)
  split
  · refine Alone.moveServed ?_ hi _ _
    exact h.of_cores rfl
  · exact h.of_cores rfl

theorem homeWritten (h : Alone s c n i) (hi : i.asked = none) (d block : Nat) : Alone (s.homeWritten d block) c n i := by
  unfold State.homeWritten
  split
  · exact h.opDone hi _ _ _
  · exact h.of_cores rfl

theorem homeWrite (h : Alone s c n i) (hi : i.asked = none) (d block : Nat) (m : Map Byte) : Alone (s.homeWrite d block m) c n i := by
  unfold State.homeWrite
  split
  · exact h.of_cores rfl
  · dsimp only
    split
    · exact (h.of_cores (by rw [State.setCache_cores, State.kpc_cores, dropResident_cores, State.setFrame_cores])).homeWritten hi _ _
    · refine h.of_cores ((sendInvalidates_cores _ _ _ _).trans ?_)
      rw [State.setCache_cores, State.kpc_cores, dropResident_cores, State.setFrame_cores]

/-- A block that the page mover writes leaves the descriptor alone. -/
theorem moveBlock (h : Alone s c n i) (hi : i.asked = none) (k : Nat) (p : Nat × Bytes) : Alone (s.moveBlock k p) c n i := by
  unfold State.moveBlock
  dsimp only
  have ht := h.of_cores (t := (s.dropResident (s.page (p.1 / 16)).frame (k / 64)).writeResident (k / 64) (s.page (p.1 / 16)).frame
    (4096 * (p.1 % 16)) p.2) (by rw [writeResident_cores, dropResident_cores])
  generalize (s.dropResident (s.page (p.1 / 16)).frame (k / 64)).writeResident (k / 64) (s.page (p.1 / 16)).frame
    (4096 * (p.1 % 16)) p.2 = u at ht
  split
  · exact ht.of_cores (writeFrameBy_cores u _ _ _ _)
  · split
    · refine Alone.homeWrite ?_ hi _ _ _
      exact ht.of_cores rfl
    · exact ht.of_cores (askHome_cores u _ _)

end Alone

/-- The blocks that a tensor write names (R109). -/
def Issued.writeBlocks (i : Issued) : List Nat := mvBlocks (mvDst i.x i.desc) (mvDstStride i.desc) i.desc

/-- The state in which a tensor write has given its blocks to the dies. -/
def State.blocksMoved (s : State) (c : Nat) (i : Issued) : State :=
  (State.each (fun (t : State) (p : Nat × Bytes) => t.moveBlock c p) s (s.movedBlocks c i)).bpc (c / 64) 0x05 (4096 * i.writeBlocks.length)

theorem Alone.blocksMoved {s : State} {c n : Nat} {i : Issued} (h : Alone s c n i) (hi : i.asked = none) : Alone (s.blocksMoved c i) c n i :=
  (Alone.each (fun _ p hs => hs.moveBlock hi c p) _ h).of_cores (State.bpc_cores _ _ _ _)

/-- A tensor write of writable blocks waits for what is left open. -/
theorem runTensorWrite_fresh {s : State} {c pos : Nat} {i : Issued} (ha : i.asked = none)
    (h : ∀ b ∈ i.writeBlocks, s.mapped (b / 16) = true ∧ s.blockWritable b = true) :
    s.runTensorWrite c pos i = if ((s.blocksMoved c i).openWrites c).isEmpty then .done ((s.blocksMoved c i).endTensorWrite c i)
      else .begun ((s.blocksMoved c i).modIssued c pos (fun j =>
        { j with stage := .begun, asked := some ((s.blocksMoved c i).openWrites c) })) := by
  have hmap : i.writeBlocks.all (fun b => s.mapped (b / 16)) = true := List.all_eq_true.mpr fun b hm => (h b hm).1
  have hwr : i.writeBlocks.all s.blockWritable = true := List.all_eq_true.mpr fun b hm => (h b hm).2
  unfold State.runTensorWrite
  rw [ha]
  show (if !(i.writeBlocks.all (fun b => s.mapped (b / 16))) then _ else if !(i.writeBlocks.all s.blockWritable) then _ else _) = _
  rw [if_neg (by rw [hmap]; exact nofun), if_neg (by rw [hwr]; exact nofun)]
  rfl

/-! ### Writes that no other die sees -/

/-- What writing a block of the own die that no other die holds leaves: cores, page table, dies, and all but counters. -/
structure MovedPlainly (s t : State) : Prop where
  cores : t.cores = s.cores
  pages : t.pages = s.pages
  dies : t.dies = s.dies
  values : KeepsValues s t

theorem MovedPlainly.trans {s t u : State} (h : MovedPlainly s t) (g : MovedPlainly t u) : MovedPlainly s u :=
  ⟨g.cores.trans h.cores, g.pages.trans h.pages, g.dies.trans h.dies, h.values.trans g.values⟩

theorem MovedPlainly.page {s t : State} (h : MovedPlainly s t) (p : Nat) : t.page p = s.page p := by rw [State.page, State.page, h.pages]

theorem MovedPlainly.cache {s t : State} (h : MovedPlainly s t) (d : Nat) : t.cache d = s.cache d := by rw [State.cache, State.cache, h.dies]

theorem MovedPlainly.plainWrite {s t : State} (h : MovedPlainly s t) (d b : Nat) :
    t.plainWrite d (16 * (t.page (b / 16)).frame + b % 16) = s.plainWrite d (16 * (s.page (b / 16)).frame + b % 16) := by
  rw [State.plainWrite, State.plainWrite, State.blockBusy, State.blockBusy, h.page, h.cache, h.dies]

theorem movedPlainly_dropResident (s : State) (f except : Nat) : MovedPlainly s (s.dropResident f except) := by
  refine ⟨dropResident_cores s f except, each_keeps State.pages (fun t e => ?_) _ s, each_keeps State.dies (fun t e => ?_) _ s,
    KeepsValues.each _ (fun t e => ?_) _ s⟩
  · split <;> rfl
  · split <;> rfl
  · split
    · exact fun _ _ => rfl
    · exact .refl t

theorem movedPlainly_writeResident (s : State) (b f off : Nat) (bs : Bytes) : MovedPlainly s (s.writeResident b f off bs) := by
  unfold State.writeResident
  dsimp only
  split
  · split
    · exact ⟨rfl, rfl, rfl, fun _ _ => rfl⟩
    · exact ⟨rfl, rfl, rfl, .refl s⟩
  · exact ⟨rfl, rfl, rfl, .refl s⟩

/-- One whole block of a frame. -/
theorem movedPlainly_writeFrameBy {s : State} {d f n : Nat} {bs : Bytes} (hl : bs.length = 4096) (h : s.plainWrite d (16 * f + n) = true) :
    MovedPlainly s (s.writeFrameBy d f (4096 * n) bs) := by
  simp only [State.plainWrite, Bool.and_eq_true, decide_eq_true_eq] at h
  have hone : natsFrom (4096 * n / 4096) ((4096 * n + bs.length + 4095) / 4096 - 4096 * n / 4096) = [n] := by
    rw [hl, show 4096 * n / 4096 = n by omega, show (4096 * n + 4096 + 4095) / 4096 - n = 1 by omega]
    rfl
  have hid : s.blockWritten d (16 * f + n) = s := by
    have hgone : (maskDies 0).filter (fun x => decide (x ≠ d)) = [] := rfl
    rw [State.blockWritten]
    simp only [h.1.1, h.1.2, hgone, List.isEmpty_nil, if_true]
  unfold State.writeFrameBy
  dsimp only
  rw [hone]
  simp only [State.each, hid]
  refine ⟨s.kpc_cores _ _ _, s.kpc_pages _ _ _, s.kpc_dies _ _ _, ?_⟩
  exact (keepsValues_kpc s _ _ _).trans fun _ _ => rfl

theorem movedPlainly_moveBlock {s : State} {c : Nat} {p : Nat × Bytes} (hl : p.2.length = 4096)
    (h : s.plainWrite (c / 768) (16 * (s.page (p.1 / 16)).frame + p.1 % 16) = true) : MovedPlainly s (s.moveBlock c p) := by
  have hu := (movedPlainly_dropResident s (s.page (p.1 / 16)).frame (c / 64)).trans
    (movedPlainly_writeResident _ (c / 64) (s.page (p.1 / 16)).frame (4096 * (p.1 % 16)) p.2)
  unfold State.moveBlock
  dsimp only
  rw [if_pos h]
  refine hu.trans (movedPlainly_writeFrameBy hl ?_)
  have := hu.plainWrite (c / 768) p.1
  rwa [h, hu.page] at this

theorem movedPlainly_each {c : Nat} : ∀ (l : List (Nat × Bytes)) (s : State),
    (∀ p ∈ l, p.2.length = 4096 ∧ s.plainWrite (c / 768) (16 * (s.page (p.1 / 16)).frame + p.1 % 16) = true) →
    MovedPlainly s (State.each (fun (t : State) (p : Nat × Bytes) => t.moveBlock c p) s l)
  | [], s, _ => ⟨rfl, rfl, rfl, .refl s⟩
  | p :: r, s, h => by
    obtain ⟨hl, hp⟩ := h p (List.mem_cons_self ..)
    have hone := movedPlainly_moveBlock hl hp
    exact hone.trans (movedPlainly_each r _ fun q hq => by
      obtain ⟨hql, hqp⟩ := h q (List.mem_cons_of_mem _ hq)
      exact ⟨hql, by rw [hone.plainWrite]; exact hqp⟩)

theorem Map.length_bytes (m : Map Byte) (d : Byte) : ∀ (n a : Nat), (m.bytes d a n).length = n
  | 0, _ => rfl
  | n + 1, a => congrArg Nat.succ (Map.length_bytes m d n (a + 1))

theorem length_readLocal (s : State) (c a n : Nat) : (s.readLocal c a n).length = n := by
  unfold State.readLocal
  split
  · exact Map.length_bytes _ _ _ _
  · exact Map.length_bytes _ _ _ _

/-- A write moves blocks that it names, each whole. -/
theorem mem_movedBlocks {s : State} {c : Nat} {i : Issued} {p : Nat × Bytes} (h : p ∈ s.movedBlocks c i) :
    p.1 ∈ i.writeBlocks ∧ p.2.length = 4096 := by
  simp only [State.movedBlocks, List.mem_flatMap, List.mem_map] at h
  obtain ⟨r, hr, n, hn, rfl⟩ := h
  refine ⟨?_, length_readLocal s c _ _⟩
  have hrow := (List.of_mem_zip hr).1
  have := mem_natsFrom.mp hn
  rw [Issued.writeBlocks, mvBlocks, List.mem_flatMap]
  exact ⟨r.1, hrow, mem_natsFrom.mpr (by omega)⟩

/-- The blocks of rows in tensor memory are below 2^36. -/
theorem block_lt_of_inTensor {a stride b : Nat} {d : Bytes} (h : rowsIn inTensor a stride d = true) (hb : b ∈ mvBlocks a stride d) : b < 2 ^ 36 := by
  rw [mvBlocks, List.mem_flatMap] at hb
  obtain ⟨r, hr, hb⟩ := hb
  have hin := List.all_eq_true.mp h r hr
  rw [inTensor, decide_eq_true_eq] at hin
  have := mem_natsFrom.mp hb
  omega

/-- A write to tensor memory that has no fault has its rows there. -/
theorem tensorRows_of_mvFault {s : State} {c : Nat} {d : Bytes} (h : s.mvFault c 0x63 d = 0) (hd : mvDir d = 1) :
    rowsIn inTensor (mvDst (s.core c).x d) (mvDstStride d) d = true := by
  cases hr : rowsIn inTensor (mvDst (s.core c).x d) (mvDstStride d) d with
  | true => rfl
  | false =>
    rw [State.mvFault] at h
    simp [hd, hr] at h

/-- Which ring a block belongs to is a matter of the plan. -/
theorem ringKeyOf_of_keeps {s t : State} (h : KeepsValues s t) {b : Nat} (hb : b < 2 ^ 36) : t.ringKeyOf b = s.ringKeyOf b := by
  have hslot : (b / 16 - pacerPage) / 0x1000000 < 16 := by rw [pacerPage]; omega
  have key : ∀ base sub, base + 16 ≤ 0xA010 → sub < 256 → sub ≠ 0x15 →
      t.rd ((base + (b / 16 - pacerPage) / 0x1000000) * 256 + sub) = s.rd ((base + (b / 16 - pacerPage) / 0x1000000) * 256 + sub) :=
    fun base sub hbase hsub hne => h _ (by rw [apartFromTraffic, decide_eq_true_eq]; omega)
  have hshare := key 0x4000 0x07 (by decide) (by decide) (by decide)
  have hf := key 0x4310 0x06 (by decide) (by decide) (by decide)
  have hb' := key 0x4310 0x07 (by decide) (by decide) (by decide)
  have htok : t.rd O.pipeMaxTokens = s.rd O.pipeMaxTokens := h _ (by decide)
  generalize hi : (b / 16 - pacerPage) / 0x1000000 = i at *
  have hslices : t.ringSlices i = s.ringSlices i := hshare
  have hhas : t.hasRing i = s.hasRing i := by rw [State.hasRing, State.hasRing, hslices]
  have hbytes : ∀ kind, t.ringBytesOf i kind = s.ringBytesOf i kind := fun kind => by
    rw [State.ringBytesOf, State.ringBytesOf]
    exact congr (congrArg (fun x y => if kind = 1 then x else y) hf) hb'
  have hhop : ∀ kind, t.hopPages i kind = s.hopPages i kind := fun kind => by
    rw [State.hopPages, State.hopPages, State.pagesFor, State.pagesFor, State.sliceTokens, State.sliceTokens, hbytes, htok]
    rw [show t.rd (O.seqShare i) = s.rd (O.seqShare i) from hshare]
  have harea : ∀ kind, t.areaPages i kind = s.areaPages i kind := fun kind => by
    rw [State.areaPages, State.areaPages, hslices, hhop]
  rw [State.ringKeyOf, State.ringKeyOf]
  dsimp only
  rw [hi, hhas, harea, hhop]

/-- The end of a write of blocks of no ring by a Bent of no slot. -/
theorem endTensorWrite_plain {s : State} {c : Nat} {i : Issued} (hc : c < 3072) (hr : ∀ b ∈ i.writeBlocks, b < 2 ^ 36 ∧ s.ringKeyOf b = none)
    (hs : s.bentSlot (c / 64) = 0xFF) :
    s.endTensorWrite c i = (s.bpc (c / 64) 0x0B i.writeBlocks.length).pc c 0x0E (mvRow i.desc * mvRows i.desc) := by
  generalize hu : (s.bpc (c / 64) 0x0B i.writeBlocks.length).pc c 0x0E (mvRow i.desc * mvRows i.desc) = u
  have hk : KeepsValues s u := hu ▸ (keepsValues_bpc s _ _ _).trans (keepsValues_pc _ _ _ _)
  have hslot : u.bentSlot (c / 64) = 0xFF := by
    rw [State.bentSlot, hk _ (by rw [apartFromTraffic, decide_eq_true_eq, O.pacerStage]; omega)]
    exact hs
  have hid : State.each (fun (t : State) (b : Nat) => match t.ringKeyOf b with
      | some (n, true, k) => t.sendRing n k
      | _ => t) u i.writeBlocks = u := each_id _ u fun b hb => by
    obtain ⟨hlt, hnone⟩ := hr b hb
    rw [ringKeyOf_of_keeps hk hlt, hnone]
  rw [Issued.writeBlocks] at hu hid
  unfold State.endTensorWrite
  dsimp only
  rw [hu]
  refine Eq.trans ?_ hid
  refine if_neg ?_
  erw [hid]
  rw [hslot]
  exact nofun

/-! ### A descriptor that begins while others are served -/

/-- Where the sweep leads to a state in which nothing goes on, and less is left to do, carrying on is that sweep. -/
theorem settle_of_sweep {t u : State} (hs : t.sweep = u) (hu : u.sweep = u) (hd : u.undone < t.undone) : t.settle = u.settle := by
  have hlast : ∀ n, u.sweeps (n + 1) = u := fun n => by
    rw [State.sweeps]
    simp only [hu, Nat.lt_irrefl, if_false]
  have hfirst : t.sweeps (t.undone + 1) = u := by
    obtain ⟨n, hn⟩ : ∃ n, t.undone = n + 1 := ⟨t.undone - 1, by omega⟩
    rw [State.sweeps]
    simp only [hs, hd, if_true]
    rw [hn, hlast]
  rw [State.settle, State.settle, hfirst, hlast]

/-- A move that begins and then waits: carrying on is its beginning, whatever the cores that it served are. -/
theorem settle_moveBegun {t u : State} {c n : Nat} {i j : Issued} (ht : Alone t c n i) (hq : i.stage = .queued)
    (hop : opUnit (dOp i.desc) = 3) (hr : t.runAt c n 3 i = some u) (hu : Alone u c n j) (hj : j.stage = .begun)
    (hjo : opUnit (dOp j.desc) = 3) (hstuck : u.runAt c n 3 j = none) : t.settle = u.settle := by
  obtain ⟨l, rfl, hl⟩ := ht
  obtain ⟨m, hm, hml⟩ := hu
  have hone : ∀ w, w ≠ 3 → holderAt w (t.core c).inflight 0 = none := fun w hw => by
    rw [hl.inflight, holder_last w i l 0 hl.done, hop, if_neg (fun h => hw h.1.symm)]
  have hpass : i.passes = false := by rw [Issued.passes, hq]
  have hholder : holderAt 3 (t.core c).inflight 0 = some l.length := by
    rw [hl.inflight, holder_last 3 i l 0 hl.done, if_pos ⟨hop, hpass⟩, Nat.zero_add]
  have hget : (t.core c).inflight[l.length]? = some i := by rw [hl.inflight, List.getElem?_concat_length]
  have hstay : ∀ w k, u.runUnit c w k = u := fun w k => by
    have hh := holder_last w j m 0 hml.done
    rw [← hml.inflight, Nat.zero_add] at hh
    by_cases h : opUnit (dOp j.desc) = w ∧ j.passes = false
    · rw [if_pos h] at hh
      obtain rfl : w = 3 := h.1.symm.trans hjo
      exact runUnit_stuck k hh (by rw [hml.inflight, List.getElem?_concat_length]) (by rw [hm]; exact hstuck)
    · exact runUnit_none k (by rw [hh, if_neg h])
  have hrun : ((t.runUnit c 1 9).runUnit c 3 9).runUnit c 4 9 = u := by
    rw [runUnit_none _ (hone 1 (by decide)), show (9 : Nat) = 8 + 1 from rfl, runUnit_succ hholder hget hr, hstay, hstay]
  have hsweep : ∀ r : List Nat, c ∈ r → State.each (fun t c =>
      if (t.core c).inflight.isEmpty then t else ((t.runUnit c 1 9).runUnit c 3 9).runUnit c 4 9) t r = u := by
    intro r
    induction r with
    | nil => intro h; cases h
    | cons a r ih =>
      intro h
      by_cases ha : a = c
      · subst ha
        have hne : (l ++ [i]).isEmpty = false := by rw [List.isEmpty_eq_false_iff]; exact List.concat_ne_nil i l
        simp only [State.each, hl.inflight, hne, Bool.false_eq_true, if_false, hrun]
        refine each_id _ u fun b _ => ?_
        by_cases hb : b = a
        · subst hb; simp only [hstay, ite_self]
        · simp only [runUnit_idle _ _ (idle_other hml.near hb), ite_self]
      · simp only [State.each, runUnit_idle _ _ (idle_other hl.near ha), ite_self]
        exact ih ((List.mem_cons.mp h).resolve_left (Ne.symm ha))
  refine settle_of_sweep (hsweep _ (List.mem_map.mpr ⟨_, near_mem c _ hl.near, rfl⟩)) (sweep_stuck hml.near fun w _ k => hstay w k) ?_
  rw [undone_near hml.near, core_undone_last hml.inflight hml.done, hj, undone_near hl.near, core_undone_last hl.inflight hl.done, hq]
  decide

/-- A move that begins waits. -/
theorem runAt_begun {s t : State} {c pos : Nat} {i : Issued} (h : s.runMove c pos i = .begun t) : s.runAt c pos 3 i = some t := by
  simp only [State.runAt, show ¬(3 : Nat) = 1 by decide, if_false, if_true, h]

theorem runAt_waits {s : State} {c pos : Nat} {i : Issued} (h : s.runMove c pos i = .waits) : s.runAt c pos 3 i = none := by
  simp only [State.runAt, show ¬(3 : Nat) = 1 by decide, if_false, if_true, h]

theorem runMove_read {s : State} {c pos : Nat} {i : Issued} (h : dOp i.desc = 0x63) (hd : mvDir i.desc = 0) :
    s.runMove c pos i = s.runTensorRead c pos i := by
  rw [State.runMove, if_pos h, if_pos hd]

theorem runMove_write {s : State} {c pos : Nat} {i : Issued} (h : dOp i.desc = 0x63) (hd : mvDir i.desc = 1) :
    s.runMove c pos i = s.runTensorWrite c pos i := by
  rw [State.runMove, if_pos h, if_neg (by omega)]

/-- A write that has asked waits for what it has asked. -/
theorem runMove_asked {s : State} {c pos : Nat} {i : Issued} {l : List Nat} (h : dOp i.desc = 0x63) (hd : mvDir i.desc = 1)
    (ha : i.asked = some l) (hl : l ≠ []) : s.runMove c pos i = .waits := by
  rw [runMove_write h hd, State.runTensorWrite, ha]
  cases l with
  | nil => exact absurd rfl hl
  | cons a r => rfl

/-- A read that waits for a ring block waits until it has landed. -/
theorem runMove_ringWait {s : State} {c pos : Nat} {i : Issued} (h : dOp i.desc = 0x63) (hd : mvDir i.desc = 0) (ha : i.asked = none)
    (hr : i.ring.isSome = true) (hu : i.readBlocks.any s.unlanded = true) : s.runMove c pos i = .waits := by
  rw [runMove_read h hd, runTensorRead_unlanded ha hu, if_pos hr]

/-- Beginning a descriptor of an otherwise complete core. -/
theorem Alone.modIssued {s : State} {c n : Nat} {i : Issued} (h : Alone s c n i) (f : Issued → Issued) : Alone (s.modIssued c n f) c n (f i) := by
  obtain ⟨l, rfl, hl⟩ := h
  exact ⟨l, rfl, hl.modIssued f⟩

/-- MOVE_TENSOR has issued: `t` is the state in which its descriptor `i` is the last in flight, with the reads that its row gives. -/
structure TensorIssued (s : State) (c : Nat) (reads : List BlockRead) (t : State) (i : Issued) : Prop where
  exists_ : c < 3072
  alone : RunsLast t c (s.core c).inflight i
  queued : i.stage = .queued
  op : dOp i.desc = 0x63
  desc : i.desc = nextDesc s c
  x : i.x = (s.core c).x
  given : i.reads = reads
  asked : i.asked = none
  ring : i.ring = none
  runs : exec (.moveTensor c reads) s = .next (seen s t.settle)

theorem tensorIssued {s : State} {c : Nat} {reads : List BlockRead} (hi : s.unitsIdle = true)
    (h : issues s c 0x63 ⟨mvInvalid (c % 64) 0x63 (nextDesc s c), mvXs (nextDesc s c), [], s.mvFault c 0x63 (nextDesc s c),
      ((s.core c).dptr : Int) + 64⟩ = true) :
    ∃ i, TensorIssued s c reads
      ((issued s c 0x63 ((s.core c).dptr + 64)).modIssued c (s.core c).inflight.length (fun i => { i with reads := reads })) i := by
  obtain ⟨j, hl, hj, hop⟩ := issues_alone hi h ((s.core c).dptr + 64)
  refine ⟨_, core_of_issues h, hl.modIssued _, hj.queued (by decide), hop, hj.desc, hj.x, rfl, hj.asked, hj.ring, ?_⟩
  show execMoveTensor c reads s = _
  rw [execMoveTensor, State.mvIssue, issue_of_issues, settledRow_eq_seen _ _ (core_of_issues h)]
  · dsimp only
    rw [next_toNat, hl.inflight, List.length_append, List.length_singleton, Nat.add_sub_cancel]
  · exact h

namespace TensorIssued

variable {s t u : State} {c : Nat} {reads : List BlockRead} {i : Issued}

/-- A run that is done completes the move. -/
theorem completes (h : TensorIssued s c reads t i) (hr : t.runMove c (s.core c).inflight.length i = .done u)
    (hu : (u.finish c (s.core c).inflight.length).unitsIdle = true) :
    exec (.moveTensor c reads) s = .next (seen s (u.finish c (s.core c).inflight.length).settle) := by
  rw [h.runs, h.alone.settle h.queued h.op (by decide) (runAt_move hr) hu]

/-- A run that begins and then waits is what the move comes to. -/
theorem waits (h : TensorIssued s c reads t i) {j : Issued} (hr : t.runMove c (s.core c).inflight.length i = .begun u)
    (hu : Alone u c (s.core c).inflight.length j) (hj : j.stage = .begun) (hd : j.desc = i.desc)
    (hw : u.runMove c (s.core c).inflight.length j = .waits) : exec (.moveTensor c reads) s = .next (seen s u.settle) := by
  rw [h.runs, settle_moveBegun h.alone.alone h.queued (by rw [h.op]; decide) (runAt_begun hr) hu hj (by rw [hd, h.op]; decide)
    (runAt_waits hw)]

/-- A read of mapped and sound blocks of the own die puts their bytes in local memory. -/
theorem reads_own (h : TensorIssued s c reads t i) (hdir : mvDir i.desc = 0)
    (hb : ∀ b ∈ i.readBlocks, t.mapped (b / 16) = true ∧ t.ringKeyOf b = none)
    (hx : ∀ x ∈ t.readList c i, homeOf (16 * x.2.1 + x.1 % 16) = c / 768 ∧ (t.frame x.2.1).poison.contains (x.1 % 16) = false
      ∧ ∀ r ∈ reads, r.block ≠ x.1) :
    exec (.moveTensor c reads) s = .next (seen s
      ((((((t.readCounted c (t.readList c i)).bpc (c / 64) 0x0B (t.readList c i).length)).putRows c c (mvDst i.x i.desc) (mvDstStride i.desc)
        ((mvRowsAt (mvSrc i.x i.desc) (mvSrcStride i.desc) i.desc).map (fun r =>
          ((t.readCounted c (t.readList c i)).bpc (c / 64) 0x0B (t.readList c i).length).tensorBytes
            ((t.readCounted c (t.readList c i)).itemOf c) r (mvRow i.desc)))).pc c 0x0E (mvRow i.desc * mvRows i.desc)).finish c
              (s.core c).inflight.length).settle) := by
  have hsound := runTensorRead_landed (pos := (s.core c).inflight.length) hb h.asked (by
    rw [h.given, List.all_eq_true]
    intro r hr
    rw [List.all_eq_true]
    exact fun x hm => by simpa using (hx x hm).2.2 r hr) (fun x hm => ⟨(hx x hm).1, (hx x hm).2.1⟩)
  refine h.completes ((runMove_read h.op hdir).trans hsound) (RunsLast.finish_idle (i := i) ?_)
  exact (((h.alone.of_cores (readCounted_cores t c _)).bpc _ _ _).putRows _ _ _ _).pc _ _ _

/-- A read of a ring block that has not landed waits. -/
theorem waits_ring (h : TensorIssued s c reads t i) (hdir : mvDir i.desc = 0) (hu : i.readBlocks.any t.unlanded = true) :
    exec (.moveTensor c reads) s = .next (seen s (t.modIssued c (s.core c).inflight.length (fun i =>
      { i with stage := .begun, ring := some (i.due - t.now), due := t.now + t.rd (O.chWaitLimit (c / 64)) })).settle) := by
  have hbegin := runTensorRead_unlanded (c := c) (pos := (s.core c).inflight.length) h.asked hu
  rw [h.ring, if_neg nofun] at hbegin
  exact h.waits ((runMove_read h.op hdir).trans hbegin) (h.alone.alone.modIssued _) rfl rfl (runMove_ringWait h.op hdir h.asked rfl hu)

/-- A write of writable blocks gives them to the dies. -/
theorem writes (h : TensorIssued s c reads t i) (hdir : mvDir i.desc = 1)
    (hb : ∀ b ∈ i.writeBlocks, t.mapped (b / 16) = true ∧ t.blockWritable b = true) :
    t.runMove c (s.core c).inflight.length i =
      if ((t.blocksMoved c i).openWrites c).isEmpty then .done ((t.blocksMoved c i).endTensorWrite c i)
      else .begun ((t.blocksMoved c i).modIssued c (s.core c).inflight.length (fun j =>
        { j with stage := .begun, asked := some ((t.blocksMoved c i).openWrites c) })) :=
  (runMove_write h.op hdir).trans (runTensorWrite_fresh h.asked hb)

/-- A write that leaves blocks open waits for them. -/
theorem waits_open (h : TensorIssued s c reads t i) (hdir : mvDir i.desc = 1)
    (hb : ∀ b ∈ i.writeBlocks, t.mapped (b / 16) = true ∧ t.blockWritable b = true) (ho : (t.blocksMoved c i).openWrites c ≠ []) :
    exec (.moveTensor c reads) s = .next (seen s ((t.blocksMoved c i).modIssued c (s.core c).inflight.length (fun j =>
      { j with stage := .begun, asked := some ((t.blocksMoved c i).openWrites c) })).settle) := by
  have hr := h.writes hdir hb
  rw [if_neg (by rw [List.isEmpty_iff]; exact ho)] at hr
  exact h.waits hr ((h.alone.alone.blocksMoved h.asked).modIssued _) rfl rfl (runMove_asked h.op hdir rfl ho)

/-- A write that leaves nothing open completes. -/
theorem completes_write (h : TensorIssued s c reads t i) (hdir : mvDir i.desc = 1)
    (hb : ∀ b ∈ i.writeBlocks, t.mapped (b / 16) = true ∧ t.blockWritable b = true) (ho : (t.blocksMoved c i).openWrites c = [])
    (hu : (((t.blocksMoved c i).endTensorWrite c i).finish c (s.core c).inflight.length).unitsIdle = true) :
    exec (.moveTensor c reads) s = .next (seen s
      (((t.blocksMoved c i).endTensorWrite c i).finish c (s.core c).inflight.length).settle) := by
  have hr := h.writes hdir hb
  rw [if_pos (by rw [ho]; rfl)] at hr
  exact h.completes hr hu

/-- A write of blocks of the own die that no other die holds puts them there and completes. -/
theorem writes_own (h : TensorIssued s c reads t i) (hdir : mvDir i.desc = 1)
    (hb : ∀ b ∈ i.writeBlocks, t.mapped (b / 16) = true ∧ t.blockWritable b = true) (hin : ∀ b ∈ i.writeBlocks, b < 2 ^ 36)
    (hp : ∀ b ∈ i.writeBlocks, t.ringKeyOf b = none ∧ t.plainWrite (c / 768) (16 * (t.page (b / 16)).frame + b % 16) = true)
    (ho : t.openWrites c = []) (hs : t.bentSlot (c / 64) = 0xFF) :
    exec (.moveTensor c reads) s = .next (seen s (((((t.blocksMoved c i).bpc (c / 64) 0x0B i.writeBlocks.length).pc c 0x0E
      (mvRow i.desc * mvRows i.desc)).finish c (s.core c).inflight.length).settle)) := by
  have hpl : MovedPlainly t (t.blocksMoved c i) := (movedPlainly_each _ t fun p hm => by
    obtain ⟨hblock, hlen⟩ := mem_movedBlocks hm
    exact ⟨hlen, (hp _ hblock).2⟩).trans ⟨State.bpc_cores _ _ _ _, State.bpc_pages _ _ _ _, State.bpc_dies _ _ _ _, keepsValues_bpc _ _ _ _⟩
  have hopen : (t.blocksMoved c i).openWrites c = [] := by rw [State.openWrites, hpl.cache]; exact ho
  have hlt := h.exists_
  have hslot : (t.blocksMoved c i).bentSlot (c / 64) = 0xFF := by
    rw [State.bentSlot, hpl.values _ (by rw [apartFromTraffic, decide_eq_true_eq, O.pacerStage]; omega)]
    exact hs
  have hends := endTensorWrite_plain h.exists_ (fun b hm => ⟨hin b hm, by rw [ringKeyOf_of_keeps hpl.values (hin b hm)]; exact (hp b hm).1⟩) hslot
  rw [h.completes_write hdir hb hopen, hends]
  rw [hends]
  exact (((h.alone.of_cores hpl.cores).bpc _ _ _).pc _ _ _).finish_idle

end TensorIssued

/-- Settles O29: MOVE_TENSOR is alone when it has issued; what it settles to is its run, or its beginning where it waits. -/
theorem tensorMoves : Obligations.TensorMoves := by
  intro s c reads hidle k d n t h
  obtain ⟨i, ht⟩ := tensorIssued (reads := reads) hidle h
  have hfault : s.mvFault c 0x63 (nextDesc s c) = 0 := by
    simp only [issues, Bool.and_eq_true, decide_eq_true_eq] at h
    exact h.1.1.2
  have hread : i.readBlocks = distinct (mvBlocks (mvSrc k.x d) (mvSrcStride d) d) := by rw [Issued.readBlocks, ht.desc, ht.x]
  have hwrite : i.writeBlocks = mvBlocks (mvDst k.x d) (mvDstStride d) d := by rw [Issued.writeBlocks, ht.desc, ht.x]
  have hlist : t.readList c i = (distinct (mvBlocks (mvSrc k.x d) (mvSrcStride d) d)).filterMap
      (fun b => (t.resolve (t.itemOf c) (b / 16)).map (fun f => (b, f, (t.page (b / 16)).pool))) := by rw [State.readList, ht.desc, ht.x]
  refine ⟨i, by rw [ht.alone.inflight, List.getElem?_concat_length], ht.desc, ht.x, ht.given, fun hdir => ?_, fun hdir => ?_⟩
  · have hdir' : mvDir i.desc = 0 := by rw [ht.desc]; exact hdir
    refine ⟨fun hb hown => ?_, fun hland => ?_, fun u hu hi => ht.completes ((runMove_read ht.op hdir').trans hu) hi⟩
    · rw [ht.reads_own hdir' (by rw [hread]; exact hb) (by rw [hlist]; exact hown), State.readCounted, hlist, ht.desc, ht.x]
    · refine ht.waits_ring hdir' ?_
      obtain ⟨b, hb, m, key, hkey, hno⟩ := hland
      rw [List.any_eq_true]
      refine ⟨b, by rw [hread]; exact hb, ?_⟩
      rw [State.unlanded, hkey]
      dsimp only
      rw [hno, Bool.not_false]
  · intro bs hbs w
    have hdir' : mvDir i.desc = 1 := by rw [ht.desc]; exact hdir
    have hmoved : t.blocksMoved c i = w := by rw [State.blocksMoved, hwrite]
    have hall : ∀ b ∈ i.writeBlocks, t.mapped (b / 16) = true ∧ t.blockWritable b = true := by rw [hwrite]; exact hbs
    rw [← hmoved]
    refine ⟨fun hplain hopen hslot => ?_, fun hopen => ht.waits_open hdir' hall hopen, fun hopen hi => ht.completes_write hdir' hall hopen hi⟩
    have hin : ∀ b ∈ i.writeBlocks, b < 2 ^ 36 := by
      rw [hwrite]
      exact fun b hb => block_lt_of_inTensor (tensorRows_of_mvFault hfault hdir) hb
    rw [ht.writes_own hdir' hall hin (by rw [hwrite]; exact hplain) hopen hslot, hwrite, ht.desc]

end Sys2Proof.Machine
end

section
/-! O35 to O38: queues, endpoints and messages (chapter 08). -/

namespace Sys2Proof.Machine

/-! ### Queue controls and endpoint tables -/

/-- A request leaves the queues and the Bents' power. -/
theorem inSession_queue (s : State) (f : Frame) (q : Nat) : (inSession s f).queue q = s.queue q := by
  obtain ⟨m, o, p, u, n, h⟩ := onlyCarried_inSession s f
  rw [h]
  rfl

/-- A table that is not accepted changes nothing. -/
theorem writeTable_refused (s : State) (c : Nat) (bs : Bytes) (h : (s.writeTable c bs).1 ≠ stOk) : (s.writeTable c bs).2 = s := by
  unfold State.writeTable at h ⊢
  dsimp only at h ⊢
  split
  · rfl
  · next hst => rw [if_neg hst] at h; exact absurd rfl h

/-- A table written to a core that is on is judged as a whole, with the bytes that the transfer leaves out as they read. -/
theorem endpointTable_on {s : State} {k : Nat} (off : Nat) (bs : Bytes) (h : s.coreOff k = false) :
    endpointTableEffect s k off bs =
      let now := (natsFrom 0 16).flatMap (fun e => (s.endpointBytes ((s.core (keyCore k)).endp e)).take 10 ++ List.replicate 6 0#8)
      let r := s.writeTable (keyCore k) (((Map.empty.setBytes 0#8 0 now).setBytes 0#8 off bs).bytes 0#8 0 256)
      .done r.2.settle r.1 [] := by
  rw [endpointTableEffect, if_neg (by rw [h]; exact nofun)]

/-- A notice of a queue of this package concerns no binding. -/
theorem generationNotice_own {s : State} {name : Nat} (gen : Nat) (closed : Bool) (h : s.ownQueue name = true) :
    s.generationNotice name gen closed = s :=
  each_id _ s fun x _ => if_neg fun hx => by rw [h] at hx; exact Bool.noConfusion hx.2.2.1

/-- Settles O35: each control by its branch; a table is accepted or refused as a whole; a notice concerns other packages' queues. -/
theorem queuesAndEndpoints : Obligations.QueuesAndEndpoints := by
  refine ⟨?_, ?_, ?_⟩
  · intro s f h hobj t q hon
    have hoff : ¬t.bentOn (keyBent f.key) = false := by rw [hon]; exact nofun
    refine ⟨fun hv hst hfit => ?_, fun hv hst => ?_, fun hv hst => ?_, fun hv hst => ?_⟩
    · show execQueueCreate f s = _
      refine done_writeRow_of_writes h (by simp [hobj, hv]) ?_
      rw [queueControlEffect, if_neg hoff, if_pos hv, if_neg (not_not_intro hst), if_neg (by rw [hfit]; exact nofun)]
    · show execQueueClose f s = _
      refine done_writeRow_of_writes h (by simp [hobj, hv]) ?_
      rw [queueControlEffect, if_neg hoff, if_neg (by omega), if_pos hv, if_pos hst]
    · show execQueueReopen f s = _
      refine done_writeRow_of_writes h (by simp [hobj, hv]) ?_
      rw [queueControlEffect, if_neg hoff, if_neg (by omega), if_neg (by omega), if_pos hv, if_pos hst]
    · show execQueueDelete f s = _
      refine done_writeRow_of_writes h (by simp [hobj, hv]) ?_
      rw [queueControlEffect, if_neg hoff, if_neg (by omega), if_neg (by omega), if_neg (by omega), if_pos hv, if_pos hst]
  · intro s f h hobj hoff t c now bytes r
    have hon : t.coreOff f.key = false := by
      rw [State.coreOff, inSession_core]
      exact decide_eq_false hoff
    refine ⟨?_, fun hr => writeTable_refused t c bytes hr⟩
    show execEndpointTableWrite f s = _
    rw [execEndpointTableWrite, domainRow_of_writesWhole _ _ h hobj, endpointTable_on f.offset f.body hon, answer_done, done_eq_seen]
  · exact fun s name gen closed => ⟨rfl, generationNotice_own gen closed⟩

/-! ### Channel descriptors at issue -/

/-- A channel descriptor that issues has no fault of its own. -/
theorem chFault_of_issues {s : State} {c op : Nat} {inv : Bool} {xs tiles : List Nat} {f : Nat} {n : Int}
    (h : issues s c op ⟨inv, xs, tiles, f, n⟩ = true) : f = 0 := by
  simp only [issues, Bool.and_eq_true, decide_eq_true_eq] at h
  exact h.1.1.2

/-- A queue's configuration is no counter. -/
theorem qword_issued (s : State) (c op next name : Nat) : (issued s c op next).qword (nameQueue name) = s.qword (nameQueue name) := by
  have hq : nameQueue name < 4096 := by
    have h1 : field name 8 6 < 64 := Nat.mod_lt _ (by decide)
    have h2 : field name 0 6 < 64 := Nat.mod_lt _ (by decide)
    rw [nameQueue]
    omega
  exact KeepsLow.issued s c op next _ (by rw [O.queueConfig]; omega)

/-- Issue leaves how a binding stands. -/
theorem bindStatus_issued (s : State) (c op next : Nat) (e : Endpoint) : (issued s c op next).bindStatus e = s.bindStatus e := by
  rw [issued_frame]
  rfl

theorem returnPlane_issued (s : State) (c op next : Nat) (e : Endpoint) : (issued s c op next).returnPlane e = s.returnPlane e := by
  have hown : (issued s c op next).ownQueue e.queue = s.ownQueue e.queue := by rw [issued_frame]; rfl
  rw [State.returnPlane, State.returnPlane, hown, qword_issued]

theorem ends_issued {s : State} {c : Nat} (op next : Nat) (h : (s.core c).state ≠ .off) :
    ((issued s c op next).core c).ends = (s.core c).ends := by
  obtain ⟨i, flags, v, hc⟩ := issued_core s c op next h
  rw [hc]

theorem endp_issued {s : State} {c : Nat} (op next ep : Nat) (h : (s.core c).state ≠ .off) :
    ((issued s c op next).core c).endp ep = (s.core c).endp ep := by
  rw [Core.endp, ends_issued op next h]
  rfl

/-- A binding of the kind that the opcode needs is bound. -/
theorem kind_of_chFault {s : State} {c : Nat} {d : Bytes} (h : s.chFault c d = 0) : ((s.core c).endp (chEp d)).kind = chKind (dOp d) := by
  refine Decidable.by_contra fun hk => ?_
  rw [State.chFault, if_pos hk] at h
  exact absurd h (by decide)

/-- Where no code is given, the check does not hold. -/
theorem code_of_ite {p : Prop} [Decidable p] {a b : Nat} (h : (if p then a else b) = 0) (ha : a ≠ 0) : b = 0 := by
  by_cases hp : p
  · rw [if_pos hp] at h
    exact absurd h ha
  · rwa [if_neg hp] at h

/-- A refusal at issue that would fault has been found before issue. -/
theorem chRefuseFault_of_chFault {s : State} {c : Nat} {d : Bytes} (h : s.chFault c d = 0) (ho : dOp d = 0x70 ∨ dOp d = 0x72)
    (hs : s.bindStatus ((s.core c).endp (chEp d)) ≠ 0) : chRefuseFault d (s.bindStatus ((s.core c).endp (chEp d))) = 0 := by
  unfold State.chFault at h
  have hlater := code_of_ite (code_of_ite (code_of_ite h (by decide)) (by decide)) (by decide)
  rw [if_neg (show ¬(dOp d = 0x71 ∨ dOp d = 0x73) by omega), if_pos hs] at hlater
  exact hlater

/-! ### What a channel descriptor leaves of its core -/

namespace RunsLast

variable {s : State} {c : Nat} {l : List Issued} {i : Issued}

theorem emit (h : RunsLast s c l i) (o : Output) : RunsLast (s.emit o) c l i := by
  obtain ⟨m, obs, p, u, n, he⟩ := onlyCarried_emit s o
  exact h.of_cores (by rw [he])

theorem flights (h : RunsLast s c l i) (w : List Flight) : RunsLast { s with flights := w } c l i := h.of_cores rfl

theorem modEndp (h : RunsLast s c l i) (ep : Nat) (f : Endpoint → Endpoint) : RunsLast (s.modEndp c ep f) c l i :=
  h.modCore rfl h.inflight

theorem relaySent (h : RunsLast s c l i) (r n : Nat) : RunsLast (s.relaySent r n) c l i := by
  rw [State.relaySent]
  split
  · exact h.add _ _
  · exact h

theorem chStatus (h : RunsLast s c l i) (d : Bytes) (gen code sender bits size : Nat) :
    RunsLast (s.chStatus c d gen code sender bits size) c l i := by
  rw [State.chStatus]
  split
  · exact h.modCore rfl h.inflight
  · exact h

end RunsLast

/-! ### SEND and CONTRIBUTE -/

/-- What a SEND or CONTRIBUTE takes from its binding: a reservation on the return plane, a credit elsewhere (R182, R189). -/
def payOf (ret : Bool) (e : Endpoint) : Endpoint := if ret then { e with reserved := e.reserved - 1 } else { e with credit := e.credit - 1 }

/-- Paying where there is something to pay with. -/
theorem chPay_some {s : State} {c ep : Nat} {ret : Bool} (hr : s.returnPlane ((s.core c).endp ep) = ret)
    (h : if ret then 0 < ((s.core c).endp ep).reserved else 0 < ((s.core c).endp ep).credit) :
    s.chPay c ep = some (s.modEndp c ep (payOf ret)) := by
  unfold State.chPay
  dsimp only
  rw [hr]
  cases ret with
  | true =>
    rw [if_pos rfl] at h
    rw [if_pos rfl, if_neg (by omega)]
    rfl
  | false =>
    rw [if_neg nofun] at h
    rw [if_neg nofun, if_neg (by omega)]
    rfl

/-- Without credit there is nothing to pay with. -/
theorem chPay_none {s : State} {c ep : Nat} (hr : s.returnPlane ((s.core c).endp ep) = false) (h : ((s.core c).endp ep).credit = 0) :
    s.chPay c ep = none := by
  unfold State.chPay
  dsimp only
  rw [hr, if_neg nofun, if_pos h]

/-- A channel descriptor that issues in a row of its own. -/
theorem settledRow_chIssue {s : State} {c op : Nat}
    (h : issues s c op ⟨chInvalid (nextDesc s c), descXs (nextDesc s c), [], s.chFault c (nextDesc s c), ((s.core c).dptr : Int) + 64⟩ = true) :
    settledRow c s (s.chIssue c op) = .next (seen s (if op = 0x70 ∨ op = 0x72 then
        (issued s c op ((s.core c).dptr + 64)).sendIssued c (s.core c).inflight.length (nextDesc s c)
      else issued s c op ((s.core c).dptr + 64)).settle) := by
  obtain ⟨i, hl, -⟩ := issued_last op ((s.core c).dptr + 64) (core_of_issues h) (on_of_issues h)
  rw [State.chIssue, issue_of_issues, settledRow_eq_seen _ _ (core_of_issues h)]
  · dsimp only
    rw [next_toNat, hl, List.length_append, List.length_singleton, Nat.add_sub_cancel]
  · exact h

/-- Nothing of an idle package waits for credit. -/
theorem none_behind {l : List Issued} {i : Issued} (h : l.all (fun j => decide (j.stage = .complete)) = true) (ep : Nat) :
    ((l ++ [i]).take l.length).any (fun i =>
      (decide (dOp i.desc = 0x70) || decide (dOp i.desc = 0x72)) && decide (chEp i.desc = ep) && decide (i.stage = .queued) && !i.paid) = false := by
  rw [List.take_left', List.any_eq_false]
  · intro j hj
    have := List.all_eq_true.mp h j hj
    rw [decide_eq_true_eq] at this
    simp [this]
  · rfl

/-- The endpoint that the channel descriptor at DPTR names. -/
def boundEnd (s : State) (c : Nat) : Endpoint := (s.core c).endp (chEp (nextDesc s c))

/-- A SEND or CONTRIBUTE that has issued in an idle package: `t` is the state, `i` its descriptor, alone in flight. -/
structure SendIssued (s : State) (c op : Nat) (t : State) (i : Issued) : Prop where
  exists_ : c < 3072
  send : op = 0x70 ∨ op = 0x72
  alone : RunsLast t c (s.core c).inflight i
  queued : i.stage = .queued
  opcode : dOp i.desc = op
  desc : i.desc = nextDesc s c
  x : i.x = (s.core c).x
  endp : (t.core c).endp (chEp (nextDesc s c)) = boundEnd s c
  bound : (boundEnd s c).kind ≠ 0
  status : t.bindStatus (boundEnd s c) = s.bindStatus (boundEnd s c)
  plane : t.returnPlane (boundEnd s c) = s.returnPlane (boundEnd s c)
  own : ∀ name, t.ownQueue name = s.ownQueue name
  refuses : s.bindStatus (boundEnd s c) ≠ 0 →
    chRefuseFault (nextDesc s c) (s.bindStatus (boundEnd s c)) = 0
  runs : settledRow c s (s.chIssue c op) = .next (seen s (t.sendIssued c (s.core c).inflight.length (nextDesc s c)).settle)

theorem sendIssued_of_issues {s : State} {c op : Nat} (hi : s.unitsIdle = true) (ho : op = 0x70 ∨ op = 0x72)
    (h : issues s c op ⟨chInvalid (nextDesc s c), descXs (nextDesc s c), [], s.chFault c (nextDesc s c), ((s.core c).dptr : Int) + 64⟩ = true) :
    ∃ i, SendIssued s c op (issued s c op ((s.core c).dptr + 64)) i := by
  obtain ⟨i, hl, hj, hop⟩ := issues_alone hi h ((s.core c).dptr + 64)
  have hu : opUnit op = 4 := by rcases ho with rfl | rfl <;> decide
  have hf := chFault_of_issues h
  have hrow := settledRow_chIssue h
  rw [if_pos ho] at hrow
  refine ⟨i, core_of_issues h, ho, hl, hj.queued (by omega), hop, hj.desc, hj.x, endp_issued op _ _ (on_of_issues h), ?_,
    bindStatus_issued s c op _ _, returnPlane_issued s c op _ _, fun name => by rw [issued_frame]; rfl,
    chRefuseFault_of_chFault hf (by rw [op_of_issues h]; exact ho), hrow⟩
  rw [boundEnd, kind_of_chFault hf, op_of_issues h, chKind]
  split
  · decide
  · split <;> decide

namespace SendIssued

variable {s t : State} {c op : Nat} {i : Issued}

/-- With a binding that stands, what is taken at issue is what the binding has. -/
theorem sendIssued_eq (h : SendIssued s c op t i) (hs : s.bindStatus (boundEnd s c) = 0) :
    t.sendIssued c (s.core c).inflight.length (nextDesc s c) = match t.chPay c (chEp (nextDesc s c)) with
      | none => t
      | some u => u.modIssued c (s.core c).inflight.length (fun i => { i with paid := true }) := by
  rw [State.sendIssued, h.endp, h.status, hs]
  rw [if_neg (by decide), h.alone.inflight, none_behind h.alone.done, if_neg nofun] <;> rfl

/-- Without credit it waits. -/
theorem waits_credit (h : SendIssued s c op t i) (hs : s.bindStatus (boundEnd s c) = 0)
    (hr : s.returnPlane (boundEnd s c) = false) (hc : (boundEnd s c).credit = 0) :
    settledRow c s (s.chIssue c op) = .next (seen s t.settle) := by
  have hpay : t.chPay c (chEp (nextDesc s c)) = none := chPay_none (by rw [h.endp, h.plane, hr]) (by rw [h.endp]; exact hc)
  rw [h.runs, h.sendIssued_eq hs, hpay]

/-- With a stale or closed binding it completes with the refusal. -/
theorem completes_refused (h : SendIssued s c op t i) (hs : s.bindStatus (boundEnd s c) ≠ 0) :
    settledRow c s (s.chIssue c op) = .next (seen s
      (((t.add (if s.bindStatus (boundEnd s c) = 0x22 then O.chRefusedStale (c / 64) else O.chRefusedClosed (c / 64))
        1).chStatus c (nextDesc s c) (boundEnd s c).gen (s.bindStatus (boundEnd s c)) 0 0
          0).finish c (s.core c).inflight.length).settle) := by
  have hrefuse : t.chRefuse c (nextDesc s c) (s.bindStatus (boundEnd s c)) true
      = .done ((t.add (if s.bindStatus (boundEnd s c) = 0x22 then O.chRefusedStale (c / 64) else O.chRefusedClosed (c / 64))
        1).chStatus c (nextDesc s c) (boundEnd s c).gen (s.bindStatus (boundEnd s c)) 0 0 0) := by
    rw [State.chRefuse, if_neg (not_not_intro (h.refuses hs)), h.endp]
    rfl
  rw [h.runs, State.sendIssued, h.endp, h.status]
  rw [if_pos hs, hrefuse]

/-- The state in which it has taken its credit. -/
def paid (s : State) (c : Nat) (t : State) : State :=
  (t.modEndp c (chEp (nextDesc s c)) (payOf (s.returnPlane (boundEnd s c)))).modIssued c (s.core c).inflight.length
    (fun i => { i with paid := true })

theorem payOf_bound {ret : Bool} {e : Endpoint} (h : e.kind ≠ 0) : payOf ret e ≠ Endpoint.none := by
  cases ret <;> (intro he; exact h (congrArg Endpoint.kind he))

theorem paid_alone (h : SendIssued s c op t i) : RunsLast (paid s c t) c (s.core c).inflight { i with paid := true } :=
  (h.alone.modCore (g := fun k => k.setEndp _ _) rfl h.alone.inflight).modIssued _

/-- Its binding, once it has taken its credit. -/
theorem paid_endp (h : SendIssued s c op t i) : ((paid s c t).core c).endp (chEp (nextDesc s c))
    = payOf (s.returnPlane (boundEnd s c)) (boundEnd s c) := by
  have h1 : (t.modEndp c (chEp (nextDesc s c)) (payOf (s.returnPlane (boundEnd s c)))).core c
      = (t.core c).setEndp (chEp (nextDesc s c)) (payOf (s.returnPlane (boundEnd s c))
        ((t.core c).endp (chEp (nextDesc s c)))) := core_setCore t c _ (ne_off_of_state h.alone.on)
  have h2 : ((paid s c t).core c).ends = ((t.modEndp c (chEp (nextDesc s c))
      (payOf (s.returnPlane (boundEnd s c)))).core c).ends := by
    rw [paid, State.modIssued, State.modCore, core_setCore _ _ _ (ne_off_of_state (by rw [h1]; exact h.alone.on))]
  rw [Core.endp, h2, h1, h.endp]
  exact Map.get_set_listed _ _ _ _ (payOf_bound h.bound)

/-- It takes its credit at issue, and then its unit sends it. -/
theorem sends (h : SendIssued s c op t i) (hs : s.bindStatus (boundEnd s c) = 0)
    (hp : if s.returnPlane (boundEnd s c) then 0 < (boundEnd s c).reserved
      else 0 < (boundEnd s c).credit) :
    settledRow c s (s.chIssue c op) = .next (seen s (paid s c t).settle)
      ∧ (paid s c t).runAt c (s.core c).inflight.length (opUnit op) { i with paid := true }
        = match (paid s c t).chSend c (s.core c).inflight.length { i with paid := true } with
          | .done u => some (u.finish c (s.core c).inflight.length)
          | .begun u => some u
          | .faults u code => some (u.faultIssued c (s.core c).inflight.length code)
          | .waits => none := by
  have hpay := chPay_some (s := t) (c := c) (ep := chEp (nextDesc s c)) (by rw [h.endp, h.plane]) (by rw [h.endp]; exact hp)
  refine ⟨?_, ?_⟩
  · rw [h.runs, h.sendIssued_eq hs, hpay]
    rfl
  · have hu : opUnit op = 4 := by rcases h.send with rfl | rfl <;> decide
    have hrun : (paid s c t).runChannelUnit c (s.core c).inflight.length { i with paid := true }
        = (paid s c t).chSend c (s.core c).inflight.length { i with paid := true } := by
      have hopc : dOp ({ i with paid := true } : Issued).desc = op := h.opcode
      have hop := h.send
      rw [State.runChannelUnit, hopc, if_neg (by omega), if_neg (by omega), State.runSend]
      rfl
    rw [State.runAt, hu, if_neg (by decide), if_neg (by decide), hrun] <;> rfl

/-- What it takes concerns its credit only. -/
theorem payOf_keeps (ret : Bool) (e : Endpoint) : (payOf ret e).queue = e.queue ∧ (payOf ret e).gen = e.gen
    ∧ (payOf ret e).sender = e.sender ∧ (payOf ret e).accepted = e.accepted := by
  cases ret <;> exact ⟨rfl, rfl, rfl, rfl⟩

/-- To a queue of this package its message is on its way, and the descriptor waits for its acceptance. -/
theorem chSend_own (h : SendIssued s c op t i) (ho : s.ownQueue (boundEnd s c).queue = true) :
    (paid s c t).chSend c (s.core c).inflight.length { i with paid := true }
      = .begun (({ paid s c t with flights := (paid s c t).flights ++
          [{ origin := .endpoint c (chEp (nextDesc s c)) (boundEnd s c).gen, queue := nameQueue (boundEnd s c).queue,
             gen := (boundEnd s c).gen, contribute := decide (op = 0x72), sender := (boundEnd s c).sender,
             seq := dSeq (nextDesc s c), count := (boundEnd s c).accepted,
             payload := (paid s c t).readLocal c (chAddr (s.core c).x (nextDesc s c)) (64 * chSize (nextDesc s c)),
             checks := payloadChecks ((paid s c t).readLocal c (chAddr (s.core c).x (nextDesc s c)) (64 * chSize (nextDesc s c))) }] } :
          State).modIssued c (s.core c).inflight.length (fun i => { i with stage := .begun })) := by
  obtain ⟨hq, hg, hsd, hac⟩ := payOf_keeps (s.returnPlane (boundEnd s c)) (boundEnd s c)
  have hown : (paid s c t).ownQueue (boundEnd s c).queue = true := (h.own _).trans ho
  have hop : dOp (nextDesc s c) = op := by rw [← h.desc]; exact h.opcode
  rw [State.chSend]
  dsimp only
  rw [h.desc, h.x, h.paid_endp, hq, hg, hsd, hac, if_pos hown, hop]

/-- To a queue of another package its message is given to the Relay link, and the descriptor is complete. -/
theorem chSend_remote (h : SendIssued s c op t i) (ho : s.ownQueue (boundEnd s c).queue = false) :
    (paid s c t).chSend c (s.core c).inflight.length { i with paid := true }
      = let e := boundEnd s c
        let d := nextDesc s c
        let bytes := (paid s c t).readLocal c (chAddr (s.core c).x d) (64 * chSize d)
        let told := ((paid s c t).emit (.channelMessage (namePkg e.queue) (nameQueue e.queue)
          (messageHeader (chSize d) e.sender 0 e.gen (dSeq d) e.accepted (payloadChecks bytes)) bytes)).modEndp c (chEp d)
          (fun e => { e with accepted := (e.accepted + 1) % 2 ^ 32 })
        let u := told.relaySent ((told.relayTo (namePkg e.queue)).getD 32) (128 + bytes.length)
        .done (((u.add (O.chSent (c / 64)) 1).pc c 0x10 bytes.length).chStatus c d e.gen 0 0 0 0) := by
  obtain ⟨hq, hg, hsd, hac⟩ := payOf_keeps (s.returnPlane (boundEnd s c)) (boundEnd s c)
  have hown : ¬(paid s c t).ownQueue (boundEnd s c).queue = true := by
    rw [show (paid s c t).ownQueue (boundEnd s c).queue = false from (h.own _).trans ho]
    exact nofun
  rw [State.chSend]
  dsimp only
  rw [h.desc, h.x, h.paid_endp, hq, hg, hsd, hac, if_neg hown]

end SendIssued

/-- Settles O36: judged at issue, the descriptor is complete, waits for credit, or sends as its unit runs it. -/
theorem sendsTakeCredit : Obligations.SendsTakeCredit := by
  intro s c hi k d ep e n ret pay p hp t h
  have hrow : exec (p.1 c) s = settledRow c s (s.chIssue c p.2.1) ∧ (p.2.1 = 0x70 ∨ p.2.1 = 0x72) ∧ decide (p.2.1 = 0x72) = p.2.2 := by
    simp only [List.mem_cons, List.not_mem_nil, or_false] at hp
    rcases hp with rfl | rfl
    · exact ⟨rfl, .inl rfl, rfl⟩
    · exact ⟨rfl, .inr rfl, rfl⟩
  obtain ⟨hexec, hop, hcontribute⟩ := hrow
  obtain ⟨i, hs⟩ := sendIssued_of_issues hi hop h
  have hunit : opUnit p.2.1 = 4 := by rcases hop with hop | hop <;> rw [hop] <;> decide
  rw [hexec]
  refine ⟨fun hb ho hc => ?_, fun hb ho hc => ?_, fun hb hr hc => ?_, fun hb => ?_⟩
  · obtain ⟨hrun, hat⟩ := hs.sends hb hc
    rw [hs.chSend_own ho] at hat
    rw [hrun, hs.paid_alone.settle_waits hs.queued hs.opcode (by omega) hat
      ((hs.paid_alone.flights _).modIssued _) rfl rfl, hcontribute]
    · rfl
    · intro hpass
      have hu : opUnit (dOp i.desc) = 4 := by rw [hs.opcode]; exact hunit
      simp [Issued.passes, hu] at hpass
  · obtain ⟨hrun, hat⟩ := hs.sends hb hc
    rw [hs.chSend_remote ho] at hat
    rw [hrun, hs.paid_alone.settle_finish hs.queued hs.opcode (by omega) hat
      ((((((hs.paid_alone.emit _).modEndp _ _).relaySent _ _).add _ _).pc _ _ _).chStatus _ _ _ _ _ _)]
    rfl
  · exact hs.waits_credit hb hr hc
  · exact hs.completes_refused hb

/-! ### RECV and PROBE -/

/-- A RECV or PROBE that issues in an idle package runs at once, on the endpoint that its descriptor names. -/
theorem settledRow_receive {s : State} {c op : Nat} (hi : s.unitsIdle = true) (ho : op = 0x71 ∨ op = 0x73)
    (h : issues s c op ⟨chInvalid (nextDesc s c), descXs (nextDesc s c), [], s.chFault c (nextDesc s c), ((s.core c).dptr : Int) + 64⟩ = true) :
    ∃ i, RunsLast (issued s c op ((s.core c).dptr + 64)) c (s.core c).inflight i ∧ i.stage = .queued ∧ dOp i.desc = op
      ∧ i.desc = nextDesc s c ∧ i.x = (s.core c).x
      ∧ settledRow c s (s.chIssue c op) = .next (seen s (issued s c op ((s.core c).dptr + 64)).settle) := by
  obtain ⟨i, hl, hj, hop⟩ := issues_alone hi h ((s.core c).dptr + 64)
  have hu : opUnit op = 4 := by rcases ho with rfl | rfl <;> decide
  refine ⟨i, hl, hj.queued (by omega), hop, hj.desc, hj.x, ?_⟩
  rw [settledRow_chIssue h, if_neg (by omega)]

/-- What a RECV or PROBE does where its unit completes it. -/
theorem settledRow_received {s u : State} {c op : Nat} (hi : s.unitsIdle = true) (ho : op = 0x71 ∨ op = 0x73)
    (h : issues s c op ⟨chInvalid (nextDesc s c), descXs (nextDesc s c), [], s.chFault c (nextDesc s c), ((s.core c).dptr : Int) + 64⟩ = true)
    (hrun : ∀ i : Issued, dOp i.desc = op → i.desc = nextDesc s c → i.x = (s.core c).x →
      (issued s c op ((s.core c).dptr + 64)).runChannelUnit c (s.core c).inflight.length i = .done u)
    (hu : ∀ i, RunsLast (issued s c op ((s.core c).dptr + 64)) c (s.core c).inflight i → ∃ j, RunsLast u c (s.core c).inflight j) :
    settledRow c s (s.chIssue c op) = .next (seen s (u.finish c (s.core c).inflight.length).settle) := by
  obtain ⟨i, hl, hq, hop, hd, hx, hrow⟩ := settledRow_receive hi ho h
  obtain ⟨j, hj⟩ := hu i hl
  have h4 : opUnit op = 4 := by rcases ho with rfl | rfl <;> decide
  have hat : (issued s c op ((s.core c).dptr + 64)).runAt c (s.core c).inflight.length (opUnit op) i
      = some (u.finish c (s.core c).inflight.length) := by
    rw [State.runAt, h4, if_neg (by decide), if_neg (by decide), hrun i hop hd hx]
  rw [hrow, hl.settle_finish hq hop (by omega) hat hj]

/-- A head taken leaves every core. -/
theorem takeHead_cores (s : State) (q c ep : Nat) : (s.takeHead q c ep).1.cores = s.cores := by
  unfold State.takeHead
  dsimp only
  split
  · split
    · rfl
    · split <;> rfl
  · rfl

/-- A RECV of a stale binding whose refusal does not fault is complete with that code. -/
theorem chRefuse_stale {s : State} {c : Nat} {d : Bytes} (h : (chOn d).testBit 0 = false) :
    s.chRefuse c d 0x22 false = .done (s.chStatus c d ((s.core c).endp (chEp d)).gen 0x22 0 0 0) := by
  have hf : chRefuseFault d 0x22 = 0 := by
    rw [chRefuseFault, h]
    rfl
  rw [State.chRefuse, if_neg (not_not_intro hf)]
  rfl

/-- A RECV whose head fits and verifies takes it. -/
theorem runRecv_head {s : State} {c pos : Nat} {i : Issued} {e : Endpoint} {m : Message} (he : (s.core c).endp (chEp i.desc) = e) (hk : e.kind = 3)
    (hb : s.bindStatus e ≠ 0x22) (hm : s.headFor (nameQueue e.queue) c (chEp i.desc) = some m)
    (hsize : hSize (s.slotHeader (nameQueue e.queue) m.slot) ≤ chSize i.desc)
    (hcheck : payloadChecks (s.slotPayload (nameQueue e.queue) m.slot)
      = hChecks (s.slotHeader (nameQueue e.queue) m.slot) (payloadChecks (s.slotPayload (nameQueue e.queue) m.slot)).length) :
    s.runRecv c pos i =
      let h := s.slotHeader (nameQueue e.queue) m.slot
      let p := s.slotPayload (nameQueue e.queue) m.slot
      let r := s.takeHead (nameQueue e.queue) c (chEp i.desc)
      let u := ((r.1.modIssued c pos (fun i => { i with credit := r.2 })).writeLocal c (chAddr i.x i.desc) p).add (O.chReceived (c / 64)) 1
      .done ((u.pc c 0x11 p.length).chStatus c i.desc e.gen 0 (hSender h) (hFlags h * 2 ^ 14 % 2 ^ 16) (hSize h)) := by
  rw [State.runRecv]
  dsimp only
  rw [he, if_neg (not_not_intro hk), if_neg hb, hm]
  dsimp only
  rw [if_neg (Nat.not_lt.mpr hsize), if_neg (not_not_intro hcheck)]

/-- A PROBE reports the head. -/
theorem runProbe_head {s : State} {c : Nat} {i : Issued} {e : Endpoint} {m : Message} (he : (s.core c).endp (chEp i.desc) = e) (hk : e.kind = 3)
    (hb : s.bindStatus e ≠ 0x22) (hm : s.headFor (nameQueue e.queue) c (chEp i.desc) = some m) :
    s.runProbe c i =
      let h := s.slotHeader (nameQueue e.queue) m.slot
      .done (s.chStatus c i.desc e.gen 0 (hSender h) (hFlags h * 2 ^ 14 % 2 ^ 16) (hSize h)) := by
  rw [State.runProbe]
  dsimp only
  rw [he, if_neg (not_not_intro hk), if_neg hb, hm]

/-- A PROBE of an open queue with no message reports none. -/
theorem runProbe_empty {s : State} {c : Nat} {i : Issued} {e : Endpoint} (he : (s.core c).endp (chEp i.desc) = e) (hk : e.kind = 3)
    (hb : s.bindStatus e = 0) (hm : s.headFor (nameQueue e.queue) c (chEp i.desc) = none) :
    s.runProbe c i = .done (s.chStatus c i.desc e.gen 0 0 0 0) := by
  rw [State.runProbe]
  dsimp only
  rw [he, if_neg (not_not_intro hk), hb, if_neg (by decide), hm]
  rfl

/-- Settles O37: each case is a branch of the RECV's and the PROBE's run. -/
theorem receivesTakeTheHead : Obligations.ReceivesTakeTheHead := by
  intro s c hi k d e q n t plan hk
  have hend : ∀ op, (s.core c).state ≠ .off → ((t op).core c).endp (chEp d) = e := fun op ho => endp_issued op _ _ ho
  have hbind : ∀ op, (t op).bindStatus e = s.bindStatus e := fun op => bindStatus_issued s c op _ _
  constructor
  · intro h
    refine ⟨fun hs hon => ?_, ?_, fun hm hs => ?_⟩
    · refine settledRow_received (u := (t 0x71).chStatus c d e.gen 0x22 0 0 0) hi (.inl rfl) h (fun i hop hd _ => ?_)
        fun i hl => ⟨_, hl.chStatus _ _ _ _ _ _⟩
      have he : ((t 0x71).core c).endp (chEp i.desc) = e := by rw [hd]; exact hend _ (on_of_issues h)
      rw [State.runChannelUnit, if_pos hop, State.runRecv]
      dsimp only
      rw [he, if_neg (not_not_intro hk), hbind, hs, if_pos rfl, chRefuse_stale (by rw [hd]; exact hon), he, hd]
    · intro m hs hm hd p hsize hcheck r u
      refine settledRow_received (u := (u.pc c 0x11 p.length).chStatus c d e.gen 0 (hSender hd) (hFlags hd * 2 ^ 14 % 2 ^ 16) (hSize hd))
        hi (.inl rfl) h (fun i hop hdesc hx => ?_) fun i hl =>
          ⟨_, ((((hl.of_cores (takeHead_cores _ _ _ _)).modIssued _).writeLocal _ _).add _ _ |>.pc _ _ _).chStatus _ _ _ _ _ _⟩
      have he : ((t 0x71).core c).endp (chEp i.desc) = e := by rw [hdesc]; exact hend _ (on_of_issues h)
      rw [State.runChannelUnit, if_pos hop, runRecv_head he hk (by rw [hbind]; exact hs) (by rw [hdesc]; exact hm) (by rw [hdesc]; exact hsize)
        hcheck, hdesc, hx]
    · obtain ⟨_, _, _, _, _, _, hrow⟩ := settledRow_receive hi (.inl rfl) h
      exact hrow
  · intro h hs
    constructor
    · intro m hm hd
      refine settledRow_received (u := (t 0x73).chStatus c d e.gen 0 (hSender hd) (hFlags hd * 2 ^ 14 % 2 ^ 16) (hSize hd)) hi (.inr rfl) h
        (fun i hop hdesc _ => ?_) fun i hl => ⟨_, hl.chStatus _ _ _ _ _ _⟩
      have he : ((t 0x73).core c).endp (chEp i.desc) = e := by rw [hdesc]; exact hend _ (on_of_issues h)
      rw [State.runChannelUnit, if_neg (by omega), if_pos hop, runProbe_head he hk (by rw [hbind]; exact hs) (by rw [hdesc]; exact hm), hdesc]
    · intro hm hb
      refine settledRow_received (u := (t 0x73).chStatus c d e.gen 0 0 0 0) hi (.inr rfl) h (fun i hop hdesc _ => ?_)
        fun i hl => ⟨_, hl.chStatus _ _ _ _ _ _⟩
      have he : ((t 0x73).core c).endp (chEp i.desc) = e := by rw [hdesc]; exact hend _ (on_of_issues h)
      rw [State.runChannelUnit, if_neg (by omega), if_pos hop, runProbe_empty he hk (by rw [hbind]; exact hb) (by rw [hdesc]; exact hm), hdesc]

/-! ### Acceptance -/

/-- The oldest message of a SEND's binding, with what its binding has counted and damaged as given, is written at its queue. -/
theorem messageAccept_endpoint {s : State} {n : Nat} {damage : List (Nat × Byte)} {g f0 : Flight} {c ep gen : Nat} (hg : s.flights[n]? = some g)
    (hf : s.flights.find? g.sameBinding = some f0) (ho : f0.origin = .endpoint c ep gen) : s.messageAccept n damage =
      let f := { f0 with count := ((s.core c).endp ep).accepted, payload := damageBytes f0.payload damage }
      let t := { s with flights := eraseFirst g.sameBinding s.flights }
      match t.offer f with
      | .full => s
      | .taken u und => u.sendAccepted c ep f.payload.length und
      | .refused st => t.sendRefused c ep f.queue st gen := by
  obtain ⟨_, _, _, _, _, _, _, _, _⟩ := f0
  cases ho
  rw [State.messageAccept, hg]
  dsimp only
  rw [hf]
  dsimp only
  generalize State.offer _ _ = r
  cases r <;> rfl

/-- The oldest message of another package's binding, damaged as given, is written at its queue. -/
theorem messageAccept_remote {s : State} {n : Nat} {damage : List (Nat × Byte)} {g f0 : Flight} {p : Nat} (hg : s.flights[n]? = some g)
    (hf : s.flights.find? g.sameBinding = some f0) (ho : f0.origin = .remote p) : s.messageAccept n damage =
      let f := { f0 with payload := damageBytes f0.payload damage }
      let t := { s with flights := eraseFirst g.sameBinding s.flights }
      match t.offer f with
      | .full => s
      | .taken u _ => u
      | .refused _ => (t.add (O.queueDropped (f.queue / 64) (f.queue % 64)) 1).noticeTo p f.queue := by
  obtain ⟨_, _, _, _, _, _, _, _, _⟩ := f0
  cases ho
  rw [State.messageAccept, hg]
  dsimp only
  rw [hf]
  dsimp only
  generalize State.offer _ _ = r
  cases r <;> rfl

/-- Settles O38: by where the message comes from and what its queue answers. -/
theorem messagesAreAcceptedInOrder : Obligations.MessagesAreAcceptedInOrder := by
  intro s n damage g f0 hg hf t
  have hexec : exec (.messageAccept n damage) s = .next (seen s (s.messageAccept n damage).settle) := settled_eq_seen s _
  refine ⟨?_, ?_⟩
  · intro c ep gen ho f
    rw [hexec, messageAccept_endpoint hg hf ho]
    dsimp only [t, f]
    exact ⟨fun u und hu => by rw [hu], fun st hu => by rw [hu], fun hu => by rw [hu]⟩
  · intro p ho f
    rw [hexec, messageAccept_remote hg hf ho]
    dsimp only [t, f]
    exact ⟨fun u und hu => by rw [hu], fun st hu => by rw [hu], fun hu => by rw [hu]⟩

end Sys2Proof.Machine
end

section
/-! O39: Relay links and Lanes (chapter 09). -/

namespace Sys2Proof.Machine

/-! ### Writes that are not answered OK at once -/

/-- A write that its rule refuses is answered with the status. -/
theorem done_writeRow_refused {s t : State} {f : Frame} {names : Nat → Nat → Bool} {effect : WriteEffect} {st : Nat} (h : writes s f = true)
    (hn : names f.key (valueOf f) = true) (he : effect (inSession s f) f f.key (valueOf f) = .done t st []) :
    done s (writeRow names effect f s) = .next (seen s (answered f t st [])) := by
  rw [writeRow_of_writes _ _ h hn, he, answer_done, done_eq_seen]

/-- A write whose effect waits is answered DEFERRED. -/
theorem done_writeRow_deferred {s t : State} {f : Frame} {names : Nat → Nat → Bool} {effect : WriteEffect} {w : Waits} (h : writes s f = true)
    (hn : names f.key (valueOf f) = true) (he : effect (inSession s f) f f.key (valueOf f) = .deferred t w) :
    done s (writeRow names effect f s) = .next (seen s (deferredFor f t w)) := by
  rw [writeRow_of_writes _ _ h hn, he, done_eq_seen]
  rfl

/-! ### Opening a Lane end -/

/-- A sender's end opens with no page of its own: the sender of a forward Lane has its whole credit. -/
theorem startLane_sender {s : State} {n : Nat} (h : s.laneReads n = false) : s.startLane n
    = some ((s.wrAll [(O.laneState n, 1), (O.laneGen n, nextGen (s.rd (O.laneGen n)))]).setLane n
        (if s.laneReturn n then LaneEnd.unused
         else { LaneEnd.unused with credit := s.rd (O.laneDepth n), pages := s.rd (O.lanePages n) })) := by
  rw [State.startLane]
  dsimp only
  rw [if_neg (by rw [h]; exact nofun)]
  split <;> rfl

/-- An OPEN end whose checks pass and that closes no cycle takes effect at once where the peer is local. -/
theorem openLane_local {s u : State} {n : Nat} (hst : s.rd (O.laneState n) = 0) (ho : (s.lane n).opening = false) (hr : s.laneRefused n = false)
    (hc : s.laneCycle n = false) (hl : s.laneLocal n = true) (hu : s.startLane n = some u) : s.openLane n = .done u stOk [] := by
  rw [State.openLane, if_neg (not_not_intro hst), if_neg (by rw [ho]; exact nofun), if_neg (by rw [hr]; exact nofun), hc, Bool.false_and,
    if_neg nofun, if_pos hl, hu]
  rfl

/-- An end that would close a cycle is refused. -/
theorem openLane_cycle {s : State} {n : Nat} (hst : s.rd (O.laneState n) = 0) (ho : (s.lane n).opening = false) (hr : s.laneRefused n = false)
    (hc : s.laneCycle n = true) (hn : s.laneOverride n = none) : s.openLane n = .done s stCycle [] := by
  rw [State.openLane, if_neg (not_not_intro hst), if_neg (by rw [ho]; exact nofun), if_neg (by rw [hr]; exact nofun), hc, hn]
  rfl

/-- With a remote peer the end tells it, and waits for it unless it has opened. -/
theorem openLane_remote {s : State} {n : Nat} (hst : s.rd (O.laneState n) = 0) (ho : (s.lane n).opening = false) (hr : s.laneRefused n = false)
    (hc : s.laneCycle n = false) (hl : s.laneLocal n = false) : s.openLane n =
      let t := s.emit (.laneOpen (s.lanePackage n) (s.rd (O.lanePeerLane n)) (s.laneShape n))
      if ((s.lane n).peer).isSome then .deferred (t.meetLane n).2 (.prisum (t.meetLane n).1)
      else .deferred (t.modLane n (fun e => { e with opening := true })) (.lane n) := by
  rw [State.openLane, if_neg (not_not_intro hst), if_neg (by rw [ho]; exact nofun), if_neg (by rw [hr]; exact nofun), hc, Bool.false_and,
    if_neg nofun, if_neg (by rw [hl]; exact nofun)]

/-! ### The peer opens -/

/-- A Lane end that is changed to one in use. -/
theorem lane_modLane (s : State) (n : Nat) (g : LaneEnd → LaneEnd) (h : g (s.lane n) ≠ LaneEnd.unused) : (s.modLane n g).lane n = g (s.lane n) :=
  Map.get_set_listed s.lanes LaneEnd.unused n _ h

/-- A peer that has opened with a shape fits the end that holds the same. -/
theorem peerFits_opened (s : State) (n : Nat) (shape : List Nat) :
    (s.modLane n (fun e => { e with peer := some shape })).peerFits n
      = decide (shape = (s.modLane n (fun e => { e with peer := some shape })).laneShape n) := by
  rw [State.peerFits, lane_modLane s n _ fun h => Option.some_ne_none shape (congrArg LaneEnd.peer h)]
  rfl

/-- A peer with another shape leaves both ends UNUSED. -/
theorem meetLane_refused {s : State} {n : Nat} (h : s.peerFits n = false) :
    s.meetLane n = (stRange, s.modLane n (fun e => { e with opening := false, peer := none })) := by
  rw [State.meetLane]
  rw [h]
  rfl

/-- A peer with the same shape lets the end open. -/
theorem meetLane_opens {s u : State} {n : Nat} (h : s.peerFits n = true)
    (hu : (s.modLane n (fun e => { e with opening := false, peer := none })).startLane n = some u) : s.meetLane n = (stOk, u) := by
  rw [State.meetLane]
  rw [h, if_neg nofun, hu]

/-- The row of a peer's opening. -/
theorem exec_lanePeerOpen (s : State) {n : Nat} (depth plane pages tokens bytes : Nat) (h : n < 64) :
    exec (.lanePeerOpen n depth plane pages tokens bytes) s = .next (seen s (s.lanePeerOpen n [depth, plane, pages, tokens, bytes])) := by
  show execLanePeerOpen n depth plane pages tokens bytes s = _
  rw [execLanePeerOpen, if_neg (Nat.not_le.mpr h), done_eq_seen]

/-- Settles O39: each control by its branch; an OPEN by the checks in their order, and the peer's opening by its shape. -/
theorem relayAndLaneControls : Obligations.RelayAndLaneControls := by
  refine ⟨fun s f h hobj => ?_, fun s source remote link dir tag hlink => ?_, fun s link hlink => ?_, fun s f h hobj => ?_,
    fun s lane depth plane pages tokens bytes hlane => ?_⟩
  · intro t r toPkg
    refine ⟨fun hv hst => ?_, fun hv hst => ?_⟩
    · show execRelayOpen f s = _
      refine done_writeRow_of_writes h (by simp [hobj, hv]) ?_
      rw [relayControlEffect, if_pos hv, if_neg (not_not_intro hst)]
    · show execRelayClose f s = _
      refine done_writeRow_of_writes h (by simp [hobj, hv]) ?_
      rw [relayControlEffect, if_neg (by omega), if_pos hv, if_neg hst]
  · show execRelayOpenRequest source remote link dir tag s = _
    rw [execRelayOpenRequest, if_neg (Nat.not_le.mpr hlink), done_eq_seen]
    rfl
  · show execRelayRemoteClose link s = _
    rw [execRelayRemoteClose, if_neg (Nat.not_le.mpr hlink), settled_eq_seen]
    rfl
  · intro t n st
    have hopens : ∀ {r : Served}, valueOf f = 1 → t.openLane n = r → laneControlEffect t f f.key (valueOf f) = r := fun hv hr => by
      rw [laneControlEffect, if_pos hv]
      exact hr
    refine ⟨fun hv hst ho hr => ⟨fun hc hl => ?_, fun hc hn => ?_, fun hc hl => ?_⟩, fun hv hst => ?_, fun hv hst => ?_, fun hv hst => ?_⟩
    · have hopen : ∀ u, t.startLane n = some u → exec (.laneOpen f) s = .next (seen s (writeDone f u)) := fun u hu =>
        done_writeRow_of_writes h (by simp [hobj, hv]) (hopens hv (openLane_local hst ho hr hc hl hu))
      exact ⟨fun hreads => hopen _ (startLane_sender hreads), hopen⟩
    · exact done_writeRow_refused h (by simp [hobj, hv]) (hopens hv (openLane_cycle hst ho hr hc hn))
    · intro told
      have hremote := openLane_remote hst ho hr hc hl
      refine ⟨fun hpeer => done_writeRow_deferred h (by simp [hobj, hv]) (hopens hv (hremote.trans ?_)),
        fun hpeer => done_writeRow_deferred h (by simp [hobj, hv]) (hopens hv (hremote.trans ?_))⟩
      · exact if_neg (by rw [hpeer]; exact nofun)
      · exact if_pos (Option.isSome_iff_ne_none.mpr hpeer)
    · show execLaneClose f s = _
      refine done_writeRow_of_writes h (by simp [hobj, hv]) ?_
      rw [laneControlEffect, if_neg (by omega), if_pos hv, if_pos hst]
    · show execLaneReopen f s = _
      refine done_writeRow_of_writes h (by simp [hobj, hv]) ?_
      rw [laneControlEffect, if_neg (by omega), if_neg (by omega), if_pos hv, if_pos hst]
    · show execLaneDelete f s = _
      refine done_writeRow_of_writes h (by simp [hobj, hv]) ?_
      rw [laneControlEffect, if_neg (by omega), if_neg (by omega), if_neg (by omega), if_pos hv, if_pos hst]
  · intro shape t
    rw [exec_lanePeerOpen s depth plane pages tokens bytes hlane, State.lanePeerOpen]
    refine ⟨fun ho hst => ?_, fun ho hne => ?_, fun u ho heq hu => ?_⟩
    · rw [if_neg (by rw [ho]; exact nofun), if_pos hst]
    · rw [if_pos ho, meetLane_refused ((peerFits_opened s lane shape).trans (decide_eq_false fun hx => hne hx.symm))]
    · rw [if_pos ho, meetLane_opens ((peerFits_opened s lane shape).trans (decide_eq_true heq.symm)) hu]

end Sys2Proof.Machine
end

section
/-! O40 to O43: Lane traffic, stages and the Pacer (chapter 09). -/

namespace Sys2Proof.Machine

/-! ### Lane traffic -/

/-- A block whose first read passes is not poisoned. -/
theorem sound_of_blockFault {s : State} {f b : Nat} (h : s.blockFault [] f b = none) : (s.frame f).poison.contains (b % 16) = false := by
  rw [Bool.eq_false_iff]
  intro hp
  rw [State.blockFault, if_pos hp] at h
  exact Option.some_ne_none _ h

/-- Counted reads change counters only. -/
theorem engineReads_frames (s : State) (b : Nat) (l : List (Nat × Nat × Nat)) : (s.engineReads b l).frames = s.frames := by
  rw [State.engineReads, State.bpc_frames]
  exact each_keeps State.frames (fun t x => t.kpc_frames _ _ _) l s

theorem engineReads_lanes (s : State) (b : Nat) (l : List (Nat × Nat × Nat)) : (s.engineReads b l).lanes = s.lanes := by
  rw [State.engineReads, State.bpc_lanes]
  exact each_keeps State.lanes (fun t x => t.kpc_lanes _ _ _) l s

/-- Blocks whose first reads pass are verified when they are read and counted. -/
theorem verify_engineReads {s : State} {l : List (Nat × Nat × Nat)} (b : Nat) (h : ∀ x ∈ l, s.blockFault [] x.2.1 x.1 = none) :
    (s.engineReads b l).verify [] l = (s.engineReads b l, true) :=
  verify_sound l _ fun x hx => by
    rw [State.frame, engineReads_frames]
    exact sound_of_blockFault (h x hx)

/-- A Lane end takes a micro-batch from its credit where it has enough. -/
theorem laneTake_some {s : State} {n pages : Nat} (hc : (s.lane n).credit ≠ 0) (hp : pages ≤ (s.lane n).pages) :
    s.laneTake n pages = some (s.modLane n (fun e => { e with credit := e.credit - 1, pages := e.pages - pages })) := by
  rw [State.laneTake]
  exact if_neg (by omega)

/-- A Lane end without the credit takes nothing. -/
theorem laneTake_none {s : State} {n pages : Nat} (h : (s.lane n).credit = 0 ∨ (s.lane n).pages < pages) : s.laneTake n pages = none := by
  rw [State.laneTake]
  exact if_pos h

/-- The row of a sending. -/
theorem exec_laneSend (s : State) {i : Nat} (ret : Bool) (h : i < 16) : exec (.laneSend i ret) s = .next (seen s (s.laneSend i ret).settle) := by
  show execLaneSend i ret s = _
  rw [execLaneSend, if_neg (Nat.not_le.mpr h), settled_eq_seen]

/-- The row of a Baton's arrival. -/
theorem exec_batonReceive (s : State) {n : Nat} (pages : List LandedPage) (b : Bytes) (h : n < 64) :
    exec (.batonReceive n pages b) s = .next (seen s (s.batonReceive n pages b).settle) := by
  show execBatonReceive n pages b s = _
  rw [execBatonReceive, if_neg (Nat.not_le.mpr h), settled_eq_seen]

/-- The Lane over which a slot sends its outputs, or on the return plane. -/
def State.sendLane (s : State) (i : Nat) (ret : Bool) : Nat := if ret then s.rd (O.retOutLane i) else s.rd (O.outLane i)

/-- The pages that an output takes. -/
def State.sendPages (s : State) (i : Nat) (ret : Bool) (m : Micro) : Nat :=
  if ret then s.backPages i (batonTokens m.baton) else s.outPages i (batonTokens m.baton)

/-- Where an output stands. -/
def State.sendAt (s : State) (i : Nat) (ret : Bool) (m : Micro) : Nat := if ret then s.backAt i m.id else s.outAt i m.id

section
variable {s : State} {i : Nat} {ret : Bool} {m : Micro} (hn : s.sendLane i ret < 64) (hstage : s.stage i = 2 ∨ s.stage i = 3)
  (hout : (s.slot i).nextOutput ret = some m)
include hn hstage hout

/-- Over a stale end an output is the stage fault of the Lane. -/
theorem laneSend_stale (hs : (s.lane (s.sendLane i ret)).status ≠ 0) :
    s.laneSend i ret = s.stageFaultOf i (if (s.lane (s.sendLane i ret)).cut then sfRelay else sfLaneStale) (if ret then 2 else 1) m.id := by
  unfold State.sendLane at hn hs ⊢
  rw [State.laneSend]
  dsimp only
  rw [if_neg (not_or.mpr ⟨Nat.not_le.mpr hn, not_not_intro hstage⟩), hout]
  exact if_pos (.inl hs)

/-- Without the credit an output waits. -/
theorem laneSend_waits (ho : s.rd (O.laneState (s.sendLane i ret)) = 1) (hs : (s.lane (s.sendLane i ret)).status = 0)
    (hc : (s.lane (s.sendLane i ret)).credit = 0 ∨ (s.lane (s.sendLane i ret)).pages < s.sendPages i ret m) : s.laneSend i ret = s := by
  have hnone := laneTake_none hc
  unfold State.sendLane at hn hs ho hnone
  unfold State.sendPages at hnone
  rw [State.laneSend]
  dsimp only
  rw [if_neg (not_or.mpr ⟨Nat.not_le.mpr hn, not_not_intro hstage⟩), hout]
  dsimp only
  rw [if_neg (not_or.mpr ⟨not_not_intro hs, not_not_intro ho⟩), hnone]

/-- With the credit and sound pages an output goes to its reader's end. -/
theorem laneSend_sends (ho : s.rd (O.laneState (s.sendLane i ret)) = 1) (hs : (s.lane (s.sendLane i ret)).status = 0)
    (hc : (s.lane (s.sendLane i ret)).credit ≠ 0) (hp : s.sendPages i ret m ≤ (s.lane (s.sendLane i ret)).pages)
    (hsound : ∀ x ∈ s.blockList none (pageSize * s.sendAt i ret m) (pageSize * s.sendPages i ret m), s.blockFault [] x.2.1 x.1 = none) :
    s.laneSend i ret =
      let n := s.sendLane i ret
      let pages := s.sendPages i ret m
      let at_ := s.sendAt i ret m
      let t := (s.engineReads (s.rd (O.firstBent i)) (s.blockList none (pageSize * at_) (pageSize * pages))).modLane n
        (fun e => { e with credit := e.credit - 1, pages := e.pages - pages })
      let b := batonOut m.baton (if ret then 1 else 0) (t.jobStageOf i) pages
      let u := t.outputSent i m.id at_ pages ret
      if t.laneLocal n then
        (if t.rd (O.laneState (t.rd (O.lanePeerLane n))) ≠ 1 then u.add (O.laneDropped (t.rd (O.lanePeerLane n))) 1
         else u.takeBaton (t.rd (O.lanePeerLane n)) (t.rd (O.laneGen n)) (t.pageContents at_ pages) b)
      else ((u.laneAway n pages).relaySent (s.rd (O.laneRelay n)) (pageSize * pages + 64)).emit
        (.lane (t.lanePackage n) (t.rd (O.lanePeerLane n)) (t.pageBytes at_ pages) b) := by
  have htake := laneTake_some hc hp
  have hread : ∀ b l, (s.engineReads b l).lane (s.sendLane i ret) = s.lane (s.sendLane i ret) := fun b l => by
    rw [State.lane, engineReads_lanes, State.lane]
  have hafter : ∀ b l, (s.engineReads b l).laneTake (s.sendLane i ret) (s.sendPages i ret m) = _ := fun b l =>
    laneTake_some (by rw [hread]; exact hc) (by rw [hread]; exact hp)
  have hverify := fun b => verify_engineReads b hsound
  unfold State.sendLane State.sendPages State.sendAt at *
  rw [State.laneSend]
  dsimp only
  rw [if_neg (not_or.mpr ⟨Nat.not_le.mpr hn, not_not_intro hstage⟩), hout]
  dsimp only
  rw [if_neg (not_or.mpr ⟨not_not_intro hs, not_not_intro ho⟩), htake]
  dsimp only
  rw [hverify, hafter]
  rfl

end

/-- Settles O40: by how the sender's end and the reader's end stand. -/
theorem laneTraffic : Obligations.LaneTraffic := by
  constructor
  · intro s i ret m hi n pages at_ hn hstage hout
    rw [exec_laneSend s ret hi]
    refine ⟨fun hs => ?_, fun ho hs hc => ?_, fun ho hs hc hp hsound => ?_⟩
    · rw [laneSend_stale hn hstage hout hs]
      rfl
    · rw [laneSend_waits hn hstage hout ho hs hc]
    · rw [laneSend_sends hn hstage hout ho hs hc hp hsound]
      intro r t b u
      refine ⟨fun hl hpeer => ?_, fun hl => ?_⟩
      · exact congrArg (fun x : State => Host.Outcome.next (seen s x.settle)) ((if_pos hl).trans (if_neg (not_not_intro hpeer)))
      · exact congrArg (fun x : State => Host.Outcome.next (seen s x.settle)) (if_neg fun h => Bool.false_ne_true (hl.symm.trans h))
  · intro s n pages b hn hreads hlocal t
    rw [exec_batonReceive s pages b hn, State.batonReceive]
    dsimp only
    rw [if_neg (by rw [hreads, hlocal]; exact nofun)]
    refine ⟨fun ho => ?_, fun ho hs hstage hsound => ?_⟩
    · rw [if_pos (.inl ho)]
    · have hbad : pages.findIdx? (fun p => p.bad) = none := List.findIdx?_eq_none_iff.mpr hsound
      rw [if_neg (not_or.mpr ⟨not_not_intro ho, not_or.mpr ⟨not_not_intro hs, hstage⟩⟩), hbad]

/-! ### Stages -/

/-- ARM takes what the slot needs once its checks pass. -/
theorem arm_of_checks {s u : State} {i : Nat} (a : State) (ha : a = if s.rd (O.seqShare i) = 0 then s else s.wr (O.stashWorstPages i) (s.stashWorst i))
    (hd : a.rd O.drainState = 0) (hj : a.jobCheck i = stOk) (hp : a.planCheck i = stOk)
    (hu : (if a.stage i = 4 then a.releaseSlot i else a).takeSlot i = some u) :
    s.arm i = (stOk, (((u.dismissBents i).assignBents i).fillLedger i).wrAll [(O.stageState i, 1), (O.stageFault i, 0)]) := by
  subst ha
  rw [State.arm]
  rw [if_neg (not_not_intro hd), if_neg (not_not_intro hj), if_neg (not_not_intro hp), hu]

/-- Settles O41: each control by its branch. -/
theorem stageControls : Obligations.StageControls := by
  intro s f h hobj t i a
  refine ⟨fun u hv hst hd hj hp hu => ?_, fun hv hst hc => ?_, fun hv hst => ?_, fun hv hst => ?_⟩
  · show execArm f s = _
    refine done_writeRow_of_writes h (by simp [hobj, hv]) ?_
    rw [stageControlEffect, if_pos hv, if_pos hst, arm_of_checks a rfl hd hj hp hu]
  · show execRun f s = _
    refine done_writeRow_of_writes h (by simp [hobj, hv]) ?_
    have hall : (t.slotCores i).all (fun c => decide ((t.core c).state = .idle) || decide ((t.core c).state = .halted)) = true := by
      simpa only [List.all_eq_true, Bool.or_eq_true, decide_eq_true_eq] using hc
    rw [stageControlEffect, if_neg (by omega), if_pos hv, if_pos ⟨hst, hall⟩]
  · show execStageStop f s = _
    refine done_writeRow_of_writes h (by simp [hobj, hv]) ?_
    rw [stageControlEffect, if_neg (by omega), if_neg (by omega), if_pos hv, if_pos hst]
    rfl
  · show execDisarm f s = _
    refine done_writeRow_of_writes h (by simp [hobj, hv]) ?_
    rw [stageControlEffect, if_neg (by omega), if_neg (by omega), if_neg (by omega), if_pos hv, if_pos hst]

/-! ### The Pacer -/

/-- The Pacer of a free slot that runs, once what waited for the step is taken, decides by its W mode and its schedule. -/
theorem exec_pacerDecide {s0 : State} {i : Nat} (hi : i < 16) (h0 : s0.stage i = 2) (s : State) (hs : s = (s0.acceptEarly i).takeRingEarly i)
    (hst : s.stage i = 2) (hitem : (s.slot i).item = none) (hdone : (s.slot i).stepDone = false) :
    exec (.pacerDecide i) s0 = .next (seen s0
      (if s.rd (O.wMode i) = 0 ∧ (s.slot i).pendingW ≠ [] then s.runOldestW i
       else if s.rd (O.wMode i) = 1 ∧ (s.slot i).pendingW.length = s.rd (O.wPendingMax i) then (s.add (O.wForced i) 1).runOldestW i
       else s.decideNext i).settle) := by
  have hfree : ¬(s.stage i ≠ 2 ∨ (s.slot i).item.isSome = true) := by
    rw [hitem]
    exact not_or.mpr ⟨not_not_intro hst, nofun⟩
  show execPacerDecide i s0 = _
  rw [execPacerDecide, if_neg (Nat.not_le.mpr hi), settled_eq_seen, State.pacerDecide]
  rw [if_pos h0, ← hs, if_neg hfree, if_neg (by rw [hdone]; exact nofun)]

/-- Where no W comes first the schedule decides. -/
theorem exec_pacerDecide_schedule {s0 : State} {i : Nat} (hi : i < 16) (h0 : s0.stage i = 2) (s : State)
    (hs : s = (s0.acceptEarly i).takeRingEarly i) (hst : s.stage i = 2) (hitem : (s.slot i).item = none) (hdone : (s.slot i).stepDone = false)
    (hw0 : s.rd (O.wMode i) = 0 → (s.slot i).pendingW = []) (hw1 : s.rd (O.wMode i) = 1 → (s.slot i).pendingW.length ≠ s.rd (O.wPendingMax i)) :
    exec (.pacerDecide i) s0 = .next (seen s0 (s.decideNext i).settle) := by
  rw [exec_pacerDecide hi h0 s hs hst hitem hdone, if_neg (fun h => h.2 (hw0 h.1)), if_neg (fun h => hw1 h.1 h.2)]

namespace Walk

variable {w : Walk} {ptr cnt fuel : Nat} (hf : 0 < fuel)
include hf

/-- An entry of a kind of work with a ready item runs it, and the pointer moves on after its last. -/
theorem decide_runs {k : Nat} (hk : seKind (w.prog ptr) = k) (h0 : k ≠ 0) (h4 : k ≠ 4) (hl : 0 < w.left k) (hr : w.ready k = true) :
    w.decide ptr cnt fuel = .run k false (if cnt + 1 = seArg (w.prog ptr) then ptr + 1 else ptr)
      (if cnt + 1 = seArg (w.prog ptr) then 0 else cnt + 1) := by
  obtain ⟨n, rfl⟩ := Nat.exists_eq_add_one.mpr hf
  rw [Walk.decide, hk, if_neg h4, if_neg h0, if_neg (by omega), if_pos hr]
  split <;> rfl

/-- An entry of a kind of work with no ready item leaves a bubble. -/
theorem decide_bubble {k : Nat} (hk : seKind (w.prog ptr) = k) (h0 : k ≠ 0) (h4 : k ≠ 4) (hl : 0 < w.left k) (hr : w.ready k = false) :
    w.decide ptr cnt fuel = w.bubble ptr cnt := by
  obtain ⟨n, rfl⟩ := Nat.exists_eq_add_one.mpr hf
  rw [Walk.decide, hk, if_neg h4, if_neg h0, if_neg (by omega), if_neg (by rw [hr]; exact nofun)]

/-- The end with nothing left ends the step. -/
theorem decide_end (hk : seKind (w.prog ptr) = 0) (hb : w.bLeft = 0) (hp : w.pendW = 0) : w.decide ptr cnt fuel = .stepDone ptr cnt := by
  obtain ⟨n, rfl⟩ := Nat.exists_eq_add_one.mpr hf
  rw [Walk.decide, hk, if_neg (by decide), if_pos rfl, if_neg (by omega), if_neg (by omega)]

end Walk

theorem walkFuel_pos : 0 < walkFuel := by decide

/-- In a bubble a pending W runs, and without one the slot starves. -/
theorem carryOut_bubble (s : State) (i : Nat) (w : Walk) (ptr cnt : Nat) : s.carryOut i (w.bubble ptr cnt) =
    if 0 < w.pendW then ((s.setPointer i ptr cnt).add (O.wInBubble i) 1).runOldestW i else (s.setPointer i ptr cnt).starves i := by
  rw [Walk.bubble]
  split <;> rfl

/-- After job stage 0 the Pacer carries out what its walk decides. -/
theorem decideNext_later {s : State} {i : Nat} (h : s.jobStageOf i ≠ 0) :
    s.decideNext i = s.carryOut i ((s.walkOf i (s.acceptedF i)).decide (s.slot i).ptr (s.slot i).cnt walkFuel) := by
  rw [State.decideNext]
  exact if_pos h

/-- At job stage 0 an F entry runs the head candidate once it is admitted. -/
theorem decideNext_admits {s u : State} {i ptr cnt : Nat} {bubble : Bool} (h : s.jobStageOf i = 0)
    (hd : (s.walkOf i true).decide (s.slot i).ptr (s.slot i).cnt walkFuel = .run 1 bubble ptr cnt)
    (hu : (if (s.slot i).replays.isEmpty ∧ s.sinkFor i = true then s.refuseHeads i (s.data.offers.length + 1) else s).admitNext i = (true, u)) :
    s.decideNext i = (u.setPointer i ptr cnt).dispatch i 1 (u.slot i).fOut := by
  rw [State.decideNext, if_neg (not_not_intro h)]
  dsimp only
  rw [hd, hu]
  rfl

/-- Settles O42: the W rules first, then the walk over the schedule by the kind of its entry. -/
theorem pacerFollowsItsSchedule : Obligations.PacerFollowsItsSchedule := by
  intro s0 i hi h0 s hst hitem hdone v max
  refine ⟨fun hm hp => ?_, fun hm hp => ?_, fun hw0 hw1 hjob => ?_, fun u hw0 hw1 hjob hu => ?_⟩
  · rw [exec_pacerDecide hi h0 s rfl hst hitem hdone, if_pos ⟨hm, hp⟩]
  · rw [exec_pacerDecide hi h0 s rfl hst hitem hdone, if_neg (by omega), if_pos ⟨hm, hp⟩]
  · intro w e ptr cnt
    have hnext : ∀ d t, w.decide v.ptr v.cnt walkFuel = d → s.carryOut i d = t → exec (.pacerDecide i) s0 = .next (seen s0 t.settle) := by
      intro d t hd ht
      rw [exec_pacerDecide_schedule hi h0 s rfl hst hitem hdone hw0 hw1, decideNext_later hjob]
      exact congrArg (fun x : State => Host.Outcome.next (seen s0 x.settle)) ((congrArg (s.carryOut i) hd).trans ht)
    have hbubble : (seKind e = 1 ∧ 0 < w.fLeft ∧ w.readyF = false) ∨ (seKind e = 2 ∧ 0 < w.bLeft ∧ w.readyB = false) →
        w.decide v.ptr v.cnt walkFuel = w.bubble v.ptr v.cnt := by
      rintro (⟨hk, hl, hr⟩ | ⟨hk, hl, hr⟩)
      · exact Walk.decide_bubble walkFuel_pos hk (by decide) (by decide) hl hr
      · exact Walk.decide_bubble walkFuel_pos hk (by decide) (by decide) hl hr
    refine ⟨fun hk hl hr => ?_, fun hk hl hr => ?_, fun hk hp => ?_, fun hwait => ⟨fun hp => ?_, fun hp => ?_⟩, fun hk hb hp => ?_⟩
    · exact hnext _ _ (Walk.decide_runs walkFuel_pos hk (by decide) (by decide) hl hr) rfl
    · exact hnext _ _ (Walk.decide_runs walkFuel_pos hk (by decide) (by decide) hl hr) rfl
    · exact hnext _ _ (Walk.decide_runs walkFuel_pos hk (by decide) (by decide) hp (decide_eq_true hp)) rfl
    · exact hnext _ _ (hbubble hwait) ((carryOut_bubble s i w _ _).trans (if_pos hp))
    · exact hnext _ _ (hbubble hwait) ((carryOut_bubble s i w _ _).trans (if_neg (by omega)))
    · exact hnext _ _ (Walk.decide_end walkFuel_pos hk hb hp) rfl
  · intro e ptr cnt hk hf
    rw [exec_pacerDecide_schedule hi h0 s rfl hst hitem hdone hw0 hw1, decideNext_admits (bubble := false) (ptr := ptr) (cnt := cnt) hjob _ hu]
    exact Walk.decide_runs (k := 1) (w := s.walkOf i true) walkFuel_pos hk (by decide) (by decide) (Nat.sub_pos_of_lt hf) rfl

/-! ### Work items -/

section
variable {s : State} {i : Nat} {it : Item} (hi : i < 16) (hit : (s.slot i).item = some it)
include hi hit

/-- An item is judged by its cores, the faulted first. -/
theorem exec_workItemComplete : exec (.workItemComplete i) s = .next (seen s
    (if ((s.slotCores i).map s.core).any (fun k => decide (k.state = .faulted) || decide (k.state = .off)) then s.stageFaultOf i sfCore it.kind it.mb
     else if ((s.slotCores i).map s.core).any (fun k => decide (k.state = .halted) && decide (0x80 ≤ k.haltCode) && decide (k.haltCode ≤ 0xFE)) then
       s.stageFaultOf i sfProgram it.kind it.mb
     else if s.itemComplete i it then s.itemDone i it
     else s).settle) := by
  show execWorkItemComplete i s = _
  rw [execWorkItemComplete, if_neg (Nat.not_le.mpr hi), settled_eq_seen, State.workItemComplete, hit]

/-- At its deadline an item is judged by whether it is complete. -/
theorem exec_stageDeadline (hdue : it.due ≤ s.now) : exec (.stageDeadline i) s = .next (seen s
    (if s.itemComplete i it then s.itemDone i it
     else (((State.each (fun (t : State) (c : Nat) => if (t.core c).active then t.stopCore c else t) s (s.slotCores i)).add
       (O.stageExpiries i) 1).expiry 4 (((State.each (fun (t : State) (c : Nat) => if (t.core c).active then t.stopCore c else t) s
         (s.slotCores i)).suspect susSlot i))).stageFaultOf i sfDeadline it.kind it.mb).settle) := by
  show execStageDeadline i s = _
  rw [execStageDeadline, if_neg (Nat.not_le.mpr hi), settled_eq_seen, State.stageDeadline, hit]
  dsimp only
  rw [if_neg (Nat.not_lt.mpr hdue)]

end

/-- An item is complete when its cores have HALTED with a work code and its ring blocks are sent. -/
theorem itemComplete_iff {s : State} {i : Nat} {it : Item} : s.itemComplete i it = true
    ↔ (∀ k ∈ (s.slotCores i).map s.core, k.state = .halted ∧ k.haltCode ≤ 0x7F) ∧ s.ringComplete i it = true := by
  simp only [State.itemComplete, Bool.and_eq_true, List.all_eq_true, decide_eq_true_eq]

/-- Settles O43: by how the cores of the slot stand. -/
theorem workItemsEnd : Obligations.WorkItemsEnd := by
  intro s i it hi hit ks
  have hfaulted : ks.any (fun k => decide (k.state = .faulted) || decide (k.state = .off)) = true ↔ ∃ k ∈ ks, k.state = .faulted ∨ k.state = .off := by
    simp only [List.any_eq_true, Bool.or_eq_true, decide_eq_true_eq]
  have hprogram : ks.any (fun k => decide (k.state = .halted) && decide (0x80 ≤ k.haltCode) && decide (k.haltCode ≤ 0xFE)) = true
      ↔ ∃ k ∈ ks, k.state = .halted ∧ 0x80 ≤ k.haltCode ∧ k.haltCode ≤ 0xFE := by
    simp only [List.any_eq_true, Bool.and_eq_true, decide_eq_true_eq, and_assoc]
  refine ⟨fun hall hring => ?_, fun hbad => ?_, fun hgood hcode => ?_, fun hdue hall hring => ?_, fun hdue hnot => ?_⟩
  · rw [exec_workItemComplete hi hit, if_neg, if_neg, if_pos (itemComplete_iff.mpr ⟨hall, hring⟩)]
    · rw [hprogram]
      rintro ⟨k, hk, -, hlow, -⟩
      have := (hall k hk).2
      omega
    · rw [hfaulted]
      rintro ⟨k, hk, hs | hs⟩
      · exact absurd ((hall k hk).1.symm.trans hs) (by decide)
      · exact absurd ((hall k hk).1.symm.trans hs) (by decide)
  · rw [exec_workItemComplete hi hit, if_pos (hfaulted.mpr hbad)]
  · rw [exec_workItemComplete hi hit, if_neg, if_pos (hprogram.mpr hcode)]
    rw [hfaulted]
    rintro ⟨k, hk, hs | hs⟩
    · exact (hgood k hk).1 hs
    · exact (hgood k hk).2 hs
  · rw [exec_stageDeadline hi hit hdue, if_pos (itemComplete_iff.mpr ⟨hall, hring⟩)]
  · intro t
    rw [exec_stageDeadline hi hit hdue, if_neg]
    rw [itemComplete_iff]
    rintro ⟨hall, hring⟩
    rcases hnot with ⟨k, hk, hn⟩ | hn
    · exact hn (hall k hk)
    · exact Bool.false_ne_true (hn.symm.trans hring)

end Sys2Proof.Machine
end

section
/-! O44 to O46: memory, versions and the commit tree (chapter 10). -/

namespace Sys2Proof.Machine

/-! ### The allocator, the Optimizer engine and the version fetch -/

/-- A whole transfer that its rule takes is answered OK. -/
theorem done_domainRow_of_writesWhole {s t : State} {f : Frame} {names : Nat → Bool} {effect : DomainEffect} (h : writesWhole s f = true)
    (hn : names f.key = true) (he : effect (inSession s f) f.key f.offset f.body = .done t stOk []) :
    done s (domainRow names effect f s) = .next (seen s (writeDone f t)) := by
  rw [domainRow_of_writesWhole _ _ h hn, he, answer_done, done_eq_seen]
  rfl

/-- A request of 16 bytes that lie in their ranges is mapped or unmapped. -/
theorem allocEffect_of_fits {s : State} {off : Nat} {b : Bytes} (k : Nat) (ho : off = 0) (hl : b.length = 16) (hf : requestFits b = true) :
    allocEffect s k off b = (let r := if byteField b 14 1 = 1 then s.allocMap b else s.allocUnmap b; .done r.2 r.1 []) := by
  rw [allocEffect, if_neg (not_or.mpr ⟨not_not_intro ho, not_not_intro hl⟩), if_neg (by rw [hf]; exact nofun)]

/-- Pages that are not mapped are mapped onto the frames taken for them. -/
theorem allocMap_of_free {s u : State} {b : Bytes} {fs : List Nat}
    (hm : ∀ q ∈ natsFrom (byteField b 0 8 / pageSize) (byteField b 8 4), s.mapped q = false)
    (ht : s.takeFrames (byteField b 13 1) 1 0 0 (byteField b 8 4) = some (fs, u)) :
    s.allocMap b = (stOk, u.mapPages (byteField b 0 8 / pageSize) (byteField b 12 1) fs) := by
  have hnone : ¬(natsFrom (byteField b 0 8 / pageSize) (byteField b 8 4)).any s.mapped = true := by
    rw [Bool.not_eq_true, List.any_eq_false]
    exact fun q hq => by rw [hm q hq]; exact nofun
  rw [State.allocMap, if_neg hnone, ht]

/-- Pages of the pool that are in no window are unmapped. -/
theorem allocUnmap_of_pool {s : State} {b : Bytes}
    (hp : ∀ q ∈ natsFrom (byteField b 0 8 / pageSize) (byteField b 8 4), (s.page q).pool = byteField b 12 1 ∧ s.inWindow q = false) :
    s.allocUnmap b = (stOk, s.unmapPages (fun t f => t.freeFrame f) (byteField b 0 8 / pageSize) (byteField b 8 4)) := by
  rw [State.allocUnmap]
  refine if_pos (List.all_eq_true.mpr fun q hq => ?_)
  rw [Bool.and_eq_true, decide_eq_true_eq, Bool.not_eq_true']
  exact hp q hq

/-- A layer updated in the attempt is not due again. -/
theorem layerDue_of_updated {s : State} {i l : Nat} (h : (s.slot i).layers.contains l = true) : s.layerDue i l = false := by
  rw [State.layerDue, h, Bool.not_true, Bool.and_false, Bool.false_and, Bool.false_and]

/-- Settles O44: each command by its branch. -/
theorem allocatorOptimizerAndFetch : Obligations.AllocatorOptimizerAndFetch := by
  refine ⟨?_, ?_, ?_, ?_⟩
  · intro s f h hk ho hl hf t p n pool
    refine ⟨fun fs u ha hm ht => ?_, fun ha hp => ?_⟩
    · show execAllocMap f s = _
      refine done_domainRow_of_writesWhole h (decide_eq_true hk) ?_
      rw [allocEffect_of_fits _ ho hl hf, if_pos ha, allocMap_of_free hm ht]
    · show execAllocUnmap f s = _
      refine done_domainRow_of_writesWhole h (decide_eq_true hk) ?_
      rw [allocEffect_of_fits _ ho hl hf, if_neg (by omega), allocUnmap_of_pool hp]
  · intro s i l hi hl
    have hexec : exec (.optimizerLayerUpdate i l) s = .next (seen s (if s.layerDue i l then s.updateLayer i l else s).settle) := by
      show execOptimizerLayerUpdate i l s = _
      rw [execOptimizerLayerUpdate, if_neg (by omega), settled_eq_seen]
    rw [hexec]
    refine ⟨fun hd => by rw [if_pos hd], fun hd => ?_⟩
    rw [if_neg (by rw [layerDue_of_updated hd]; exact nofun)]
  · intro s f h hobj hv t i hst hfetch
    show execVsFetch f s = _
    rw [execVsFetch, writeRow_of_writes _ _ h (by simp [hobj, hv]), done_eq_seen, vsFetchEffect, if_neg (not_not_intro hv),
      if_neg (not_or.mpr ⟨not_not_intro hst, hfetch⟩)]
  · intro s i r hi hst
    have hexec : exec (.vsFetchDone i r) s = .next (seen s (s.fetchDone i r).settle) := by
      show execVsFetchDone i r s = _
      rw [execVsFetchDone, if_neg (Nat.not_le.mpr hi), settled_eq_seen]
    rw [hexec, State.fetchDone, if_neg (not_not_intro hst)]
    refine ⟨fun hm => by rw [hm]; rfl, fun hm => ⟨fun u hp hu => ?_, fun hp => ?_⟩⟩
    · rw [hm, if_neg nofun, hp, if_neg nofun, hu]
    · rw [hm, if_neg nofun, hp, if_pos Bool.not_false]

/-! ### The commit tree -/

/-- A READY or FAIL is heard where it is well formed: at once for the open attempt. -/
theorem childMessage_ripe {s : State} {m : CommitMsg} (ho : s.commitOk m = true) (hr : s.ripe m = true) : s.childMessage m = s.childSays m := by
  rw [State.childMessage, if_neg (by rw [ho]; exact nofun), if_pos hr]

/-- For an attempt still to open it waits. -/
theorem childMessage_early {s : State} {m : CommitMsg} (ho : s.commitOk m = true) (hr : s.ripe m = false) (ht : s.tooSoon m = true) :
    s.childMessage m = s.keepEarly m := by
  rw [State.childMessage, if_neg (by rw [ho]; exact nofun), if_neg (by rw [hr]; exact nofun), if_pos ht]

/-- A FAIL of a child goes up. -/
theorem childSays_fail {s : State} {m : CommitMsg} (hc : s.commitChildren.contains m.sender = true) (hr : s.ripe m = true) (ht : m.type = cmFail) :
    s.childSays m = s.failUp m.reason m.firstFail m.reporters := by
  rw [State.childSays, if_neg (by rw [hr, hc]; exact nofun), if_pos ht]

/-- The first READY of a child is noted. -/
theorem childSays_ready {s : State} {m : CommitMsg} (hc : s.commitChildren.contains m.sender = true) (hr : s.ripe m = true) (ht : m.type = cmReady)
    (hn : ∀ r ∈ s.commit.ready, r.1 ≠ m.sender) :
    s.childSays m = { s with commit := { s.commit with ready := s.commit.ready ++ [(m.sender, m.reporters, m.reason.testBit 0)] } } := by
  have hall : s.commit.ready.all (fun r => decide (r.1 ≠ m.sender)) = true := List.all_eq_true.mpr fun r hr => decide_eq_true (hn r hr)
  rw [State.childSays, if_neg (by rw [hr, hc]; exact nofun), if_neg (by rw [ht]; decide), if_pos ⟨ht, hall⟩]

/-- Settles O45: each message by its branch. -/
theorem commitTreeMessages : Obligations.CommitTreeMessages := by
  constructor
  · intro s m hok
    have hready : m.type = cmReady → exec (.readyToken m) s = .next (seen s (s.childMessage m).settle) := fun ht => by
      show execReadyToken m s = _
      rw [execReadyToken, if_pos ht, settled_eq_seen]
    have hfail : m.type = cmFail → exec (.fail m) s = .next (seen s (s.childMessage m).settle) := fun ht => by
      show execFail m s = _
      rw [execFail, if_pos ht, settled_eq_seen]
    have habort : m.type = cmAbort → exec (.abort m) s = .next (seen s (s.abortMessage m).settle) := fun ht => by
      show execAbort m s = _
      rw [execAbort, if_pos ht, settled_eq_seen]
    have hmalformed : m.action ≤ 2 → ¬((!s.commitOk m) = true ∨ 2 < m.action) := fun ha => by
      rw [hok]
      exact not_or.mpr ⟨nofun, Nat.not_lt.mpr ha⟩
    refine ⟨fun hc hr => ⟨fun ht hn => ?_, fun ht => ?_⟩, fun hr hs => ⟨fun ht => ?_, fun ht => ?_⟩, fun ht hcon hst => ?_, fun ht ha hcon => ?_,
      fun ht ha hcon hs => ?_, fun ht => ⟨fun type action hd => ?_, fun hd hroot => ?_⟩, ?_⟩
    · rw [hready ht, childMessage_ripe hok hr, childSays_ready hc hr ht hn]
    · rw [hfail ht, childMessage_ripe hok hr, childSays_fail hc hr ht]
    · rw [hready ht, childMessage_early hok hr hs]
    · rw [hfail ht, childMessage_early hok hr hs]
    · show execCommit m s = _
      rw [execCommit, if_pos ⟨ht, hok, hcon, hst⟩, settled_eq_seen]
    · rw [habort ht, State.abortMessage, if_neg (hmalformed ha), if_pos hcon]
    · rw [habort ht, State.abortMessage, if_neg (hmalformed ha), if_neg (by rw [hcon]; exact nofun), if_pos hs]
    · show execQuery m s = _
      rw [execQuery, if_pos ht, settled_eq_seen, State.queryMessage, if_neg (by rw [hok]; exact nofun), hd]
    · show execQuery m s = _
      rw [execQuery, if_pos ht, settled_eq_seen, State.queryMessage, if_neg (by rw [hok]; exact nofun), hd]
      dsimp only
      rw [if_neg (by rw [hroot]; exact nofun)]
    · intro ht t
      have hresume : exec (.resumeMessage m) s = .next (seen s (s.resumeMessage m).settle) := by
        show execResumeMessage m s = _
        rw [execResumeMessage, if_pos ⟨ht, hok⟩, settled_eq_seen]
      rw [hresume, State.resumeMessage]
      refine ⟨fun hs => ?_, fun hs hsoon => ?_⟩
      · rw [if_neg]
        rintro ⟨hstep, hsoon⟩
        rcases hs with hs | hs
        · exact hstep hs
        · exact Bool.false_ne_true (hs.symm.trans hsoon)
      · rw [if_pos ⟨hs, hsoon⟩]
  · intro s due hp hst hdue
    show execCommitWaitTimeout s = _
    rw [execCommitWaitTimeout, settled_eq_seen, State.commitWaitTimeout, hp]
    dsimp only
    rw [if_pos ⟨hst, hdue⟩]

/-- Settles O46: each control by its branch. -/
theorem commitControls : Obligations.CommitControls := by
  intro s f h t
  refine ⟨fun hk => ⟨fun hv hroot hhold => ?_, fun hv hd => ?_, fun hv hd => ?_⟩, fun hk hne => ?_⟩
  · show execResume f s = _
    refine done_writeRow_of_writes h (by simp [hk, hv]) ?_
    rw [commitControlEffect, if_pos hv, hroot, hhold]
    rfl
  · show execResolveCommit f s = _
    refine done_writeRow_of_writes h (by simp [hk, hv]) ?_
    rw [commitControlEffect, if_neg (by omega), if_pos hv, if_pos hd]
  · show execResolveAbort f s = _
    refine done_writeRow_of_writes h (by simp [hk, hv]) ?_
    rw [commitControlEffect, if_neg (by omega), if_neg (by omega), if_pos hv, if_pos hd]
  · intro u
    show execCommitParentWrite f s = _
    refine done_writeRow_of_writes h (decide_eq_true hk) ?_
    rw [parentEffect, hk, if_pos (decide_eq_true hne)]

end Sys2Proof.Machine
end

section
/-! O47 and O48: the reduction, jobs and ring blocks (chapters 11 and 12). -/

namespace Sys2Proof.Machine

/-! ### The reduction -/

/-- The row of a packet for a channel of an ACTIVE group with no frame landing: it is the first of its frame. -/
theorem exec_reductionPacket {s : State} {c : Nat} (p : RedPacket) (hc : c < 32) (hs : s.rd (O.rcSlot c) < 16)
    (ha : s.rgActive (s.rd (O.rcSlot c)) = true) (hl : (s.chan c).landing = none) :
    exec (.reductionPacket c p) s = .next (seen s (s.firstPacket c p).settle) := by
  show execReductionPacket c p s = _
  rw [execReductionPacket, if_neg (Nat.not_le.mpr hc), settled_eq_seen, State.reductionPacket]
  dsimp only
  rw [if_neg (by rw [decide_eq_true hs, ha]; exact nofun), hl]

/-- A first packet that is judged right begins to land in a free receive area. -/
theorem firstPacket_accepted {s : State} {c : Nat} {p : RedPacket} (hk : p.checks = segmentChecks p.segment) (hj : s.judge c p.header = .accepted)
    (ho : p.offset = 0) (ha : (s.chan c).areas < 2) :
    s.firstPacket c p = (s.modChan c (fun k => { k with areas := k.areas + 1 })).landSegment c ⟨p.header, p.segment, false⟩ p false := by
  rw [State.firstPacket, if_neg (not_not_intro hk), hj]
  dsimp only
  rw [State.beginLanding, if_neg (by omega)]

/-- A segment that brings the last byte of its frame lets the frame be accepted. -/
theorem landSegment_last {s : State} {c : Nat} {l : Landing} {p : RedPacket} (hk : p.checks = segmentChecks p.segment)
    (hl : l.payload.length = byteField l.header 24 4) :
    s.landSegment c l p false = (s.modChan c (fun k => { k with landing := none })).acceptFrame c l.header l.payload := by
  rw [State.landSegment, if_neg (not_not_intro hk)]
  dsimp only
  rw [if_neg (by omega), if_neg (by omega)]
  rfl

/-- A segment before the last lets the frame go on landing. -/
theorem landSegment_more {s : State} {c : Nat} {l : Landing} {p : RedPacket} (early : Bool) (hk : p.checks = segmentChecks p.segment)
    (hl : l.payload.length < byteField l.header 24 4) :
    s.landSegment c l p early = s.modChan c (fun k => { k with landing := some l }) := by
  rw [State.landSegment, if_neg (not_not_intro hk)]
  dsimp only
  rw [if_neg (by omega), if_pos hl]

/-- Settles O47: a packet by how its frame is judged; refusals, timeouts and controls by their branches. -/
theorem reductionCommands : Obligations.ReductionCommands := by
  refine ⟨fun s c p hc hs ha hl => ?_, fun s c hc => ⟨?_, fun due hd hle => ?_⟩, fun s f h => ?_⟩
  · intro t
    rw [exec_reductionPacket p hc hs ha hl]
    refine ⟨fun hk hj ho hareas => ⟨fun hlast => ?_, fun hmore => ?_⟩, fun hk hj ho => ?_, fun hk => ?_⟩
    · rw [firstPacket_accepted hk hj ho hareas, landSegment_last hk hlast]
    · rw [firstPacket_accepted hk hj ho hareas, landSegment_more false hk hmore]
    · rw [State.firstPacket, if_neg (not_not_intro hk), hj]
      dsimp only
      rw [if_pos ho]
    · rw [State.firstPacket, if_pos hk]
  · show execEpochRefusal c s = _
    rw [execEpochRefusal, if_neg (Nat.not_le.mpr hc), settled_eq_seen]
  · show execRcHopTimeout c s = _
    rw [execRcHopTimeout, if_neg (Nat.not_le.mpr hc), settled_eq_seen, State.hopTimeout, hd]
    dsimp only
    rw [if_pos hle]
  · intro t i
    refine ⟨fun hobj hst => ⟨fun u hv hoff hlay hfree hu => ?_, fun hv hact => ?_⟩, fun hk => ⟨fun fs u hv hst hep hstep hbank hu => ?_, fun hv hst => ?_⟩⟩
    · show execActivate f s = _
      refine done_writeRow_of_writes h (by simp [hobj, hv]) ?_
      rw [groupControlEffect, if_neg (by omega), if_neg (not_not_intro hst), if_pos hv, if_neg (by rw [hoff]; exact nofun),
        if_neg (by rw [hlay, hfree]; exact nofun), hu]
    · intro u w
      show execDeactivate f s = _
      refine done_writeRow_of_writes h (by simp [hobj, hv]) ?_
      rw [groupControlEffect, if_neg (by omega), if_neg (not_not_intro hst), if_neg (by omega), if_neg (by rw [hact]; exact nofun)]
    · show execReshard f s = _
      refine done_writeRow_of_writes h (by simp [hk, hv]) ?_
      rw [reshardControlEffect, if_pos hv, if_neg hst, if_neg (not_or.mpr ⟨hep, Nat.not_le.mpr hstep⟩), if_neg (by rw [hbank]; exact nofun), hu]
    · show execReshardCancel f s = _
      refine done_writeRow_of_writes h (by simp [hk, hv]) ?_
      rw [reshardControlEffect, if_neg (by omega), if_pos hv, if_pos hst]

/-! ### Jobs and ring blocks -/

/-- The row of a ring block. -/
theorem exec_ringBlock (s : State) {i : Nat} (b : RingBlock) (hi : i < 16) :
    exec (.ringBlock i b) s = .next (seen s (s.ringArrives i b).settle) := by
  show execRingBlock i b s = _
  rw [execRingBlock, if_neg (Nat.not_le.mpr hi), settled_eq_seen]

/-- A block of the work item in run, or beside one that is not complete, completes none. -/
theorem ringArrives_plain {s : State} {i : Nat} {b : RingBlock}
    (h : ∀ it, (s.slot i).item = some it → it.kind = b.kind ∧ it.mb = b.mb ∨ s.itemComplete i it = false) :
    s.ringArrives i b = s.ringBlock i b := by
  rw [State.ringArrives]
  cases hit : (s.slot i).item with
  | none => rfl
  | some it =>
    dsimp only
    rw [if_neg]
    rintro ⟨hne, hdone⟩
    rcases h it hit with ⟨hk, hm⟩ | hn
    · exact hne.elim (fun h => h hk) fun h => h hm
    · exact Bool.false_ne_true (hn.symm.trans hdone)

/-- A block over a link that is UP, by its attempt. -/
theorem ringBlock_up {s : State} {i : Nat} (b : RingBlock) (hst : s.stage i ≠ 0) (hr : s.hasRing i = true)
    (hl : s.rd (O.relayState (s.rd (O.ringInRelay i))) = 2) : s.ringBlock i b =
      let t := s.relayGot (s.rd (O.ringInRelay i)) 4096
      if t.ringStale b then t.add (O.ringDiscarded i) 1
      else if !b.checkOk then
        t.landedFails (4096 * t.ringBlockAt i false ⟨b.kind, b.mb % 2, b.hop, b.block⟩) (t.suspect susPort (t.arrivalPort (t.rd (O.ringPrev i))))
      else if t.attemptOpen && decide (b.step = t.rd O.stepNumber) && decide (b.attempt = t.rd O.stepAttempt) then t.takeRing i b
      else if t.attemptAhead b.step b.attempt then t.modSlot i (fun v => { v with ringEarly := v.ringEarly ++ [b] })
      else t.stageFaultOf i sfBaton (if b.kind = 2 then 2 else 1) b.mb := by
  rw [State.ringBlock, if_neg (not_or.mpr ⟨hst, by rw [hr]; exact nofun⟩), if_neg (not_not_intro hl)]

/-- Settles O48: controls by their checks; a ring block by its link, its attempt and its place. -/
theorem jobsAndRingBlocks : Obligations.JobsAndRingBlocks := by
  refine ⟨fun s f h hk => ?_, fun s i b hi hst hr hitem => ?_, fun s i b it hi hit hne hdone => ?_⟩
  · intro t
    refine ⟨fun hv hc => ?_, fun hv hp => ?_⟩
    · show execDeclare f s = _
      refine done_writeRow_of_writes h (by simp [hk, hv]) ?_
      rw [jobControlEffect, if_pos hv]
      exact if_neg (not_not_intro hc)
    · show execRetract f s = _
      refine done_writeRow_of_writes h (by simp [hk, hv]) ?_
      rw [jobControlEffect, if_neg (by omega), if_pos hv, if_pos hp]
  · intro t key
    rw [exec_ringBlock s b hi, ringArrives_plain hitem]
    refine ⟨fun hl => ?_, fun hl => ?_⟩
    · rw [State.ringBlock, if_neg (not_or.mpr ⟨hst, by rw [hr]; exact nofun⟩), if_pos hl]
    · rw [ringBlock_up b hst hr hl]
      dsimp only
      refine ⟨fun hs => by rw [if_pos hs], fun hs hok => ?_⟩
      have hsound : ¬(!b.checkOk) = true := by rw [hok]; exact nofun
      rw [if_neg (by rw [hs]; exact nofun), if_neg hsound]
      refine ⟨fun ho hstep hatt => ?_, fun ho ha => ?_⟩
      · have hnow : (t.attemptOpen && decide (b.step = t.rd O.stepNumber) && decide (b.attempt = t.rd O.stepAttempt)) = true := by
          rw [ho, decide_eq_true hstep, decide_eq_true hatt]
          rfl
        rw [if_pos hnow, State.takeRing]
        refine ⟨fun hf => ?_, fun hf => ?_⟩
        · rw [if_neg (by rw [hf]; exact nofun)]
        · rw [if_pos (by rw [hf]; rfl)]
      · rw [if_neg (by rw [ho]; exact nofun), if_pos ha]
  · rw [exec_ringBlock s b hi, State.ringArrives, hit]
    dsimp only
    rw [if_pos ⟨hne, hdone⟩]

end Sys2Proof.Machine
end

section
/-! O49: the data engine (chapter 13). -/

namespace Sys2Proof.Machine

/-! ### Frames of the ingest ports -/

/-- The row of a frame on a port that is used. -/
theorem exec_ingestFrame (s : State) {port : Nat} (fr : Bytes) (hp : port < 2) :
    exec (.ingestFrame port fr) s = .next (seen s (s.ingestFrame port fr).settleData.settle) := by
  show execIngestFrame port fr s = _
  rw [execIngestFrame, if_neg (Nat.not_le.mpr hp), settled_eq_seen]

section
variable {s : State} {port : Nat} {fr : Bytes} (hu : s.ingestUsed port = true)
include hu

/-- A pause of the port's priority holds what it sends. -/
theorem ingestFrame_pause {q : Nat} (hf : isPause fr = true) (hq : pauseOf fr (s.rd O.ingestPfcPriority) = some q) :
    s.ingestFrame port fr
      = (s.modData (fun e => { e with pauses := e.pauses.set 0 port (if q = 0 then 0 else s.now + pauseTime q) })).startAll := by
  rw [State.ingestFrame, if_neg (by rw [hu]; exact nofun), if_pos hf, hq]

/-- What is no RoCE v2 packet is discarded and counted. -/
theorem ingestFrame_other (hf : isPause fr = false) (hr : rocePacket fr = none) :
    s.ingestFrame port fr = s.add (O.ingestDiscarded port) 1 := by
  rw [State.ingestFrame, if_neg (by rw [hu]; exact nofun), if_neg (by rw [hf]; exact nofun), hr]

/-- A packet for no live queue pair is discarded and counted. -/
theorem ingestFrame_noQp {p : RocePacket} (hf : isPause fr = false) (hr : rocePacket fr = some p) (hk : s.roceQp port p = none) :
    s.ingestFrame port fr = s.add (O.ingestDiscarded port) 1 := by
  rw [State.ingestFrame, if_neg (by rw [hu]; exact nofun), if_neg (by rw [hf]; exact nofun), hr]
  dsimp only
  rw [hk]

/-- A packet for a live queue pair takes effect where its invariant CRC is good, and is discarded and counted otherwise. -/
theorem ingestFrame_qp {p : RocePacket} {k : Nat} (hf : isPause fr = false) (hr : rocePacket fr = some p) (hk : s.roceQp port p = some k) :
    s.ingestFrame port fr = if p.checkOk then s.takeRoce k p else s.add (O.ingestDiscarded port) 1 := by
  rw [State.ingestFrame, if_neg (by rw [hu]; exact nofun), if_neg (by rw [hf]; exact nofun), hr]
  dsimp only
  rw [hk]

end

/-! ### Slots -/

/-- A decoder that may begins its next slot. -/
theorem beginSlot_of_open {s : State} (hst : s.rd O.dataState = 1) (hd : s.isDecoder = true)
    (hn : s.data.next ≤ s.lowestCursor + s.rd O.lookahead) (ho : s.epochOpen s.data.next = true) : s.beginSlot =
      let u := s.data.next
      let id := s.slotSample u
      let next := u + s.rd O.decoders
      let t := s.modData (fun e => { e with next := next, jobs := e.jobs ++ [⟨u, id, [], 1, []⟩] })
      let t := (if s.isSink then t else t.wr O.dataCursor next).kpc 0x0F 0 1
      t.readRegion u id (t.rd O.catRegion) (t.rd O.catOffset + 64 * id) 64 := by
  have hmay : ¬(s.rd O.dataState ≠ 1 ∨ s.isDecoder = false ∨ s.lowestCursor + s.rd O.lookahead < s.data.next ∨ s.epochOpen s.data.next = false) := by
    rw [hd, ho]
    exact not_or.mpr ⟨not_not_intro hst, not_or.mpr ⟨nofun, not_or.mpr ⟨Nat.not_lt.mpr hn, nofun⟩⟩⟩
  rw [State.beginSlot, if_neg hmay]

/-- A slot whose chunks have all arrived becomes a drop or a sample by what its streams come to. -/
theorem slotDecoded_of_job {s : State} {u : Nat} {j : DecodeJob} (d : Decoded) (hj : s.job u = some j) (hr : j.record ≠ []) (hl : j.left = 0)
    (hst : s.rd O.dataState ≠ 0) : s.slotDecoded u d = match j.decoded d with
      | none => (s.add O.damageEvents j.programme.events).dropSlot u j.id 3
      | some o =>
        let cause := s.decodedCause (some o) (s.framesKept j (j.decoded d))
        let t := s.countDecoded o
        if cause = 0 then t.deliver j o (s.framesKept j (j.decoded d))
        else (if cause = 5 ∧ t.rd O.damagePolicy = 2 then t.clipSample (byteField j.record 40 8) (t.slotEpoch u) else t).dropSlot u j.id cause := by
  have hdone : ¬(j.record.isEmpty = true ∨ j.left ≠ 0 ∨ s.rd O.dataState = 0) :=
    not_or.mpr ⟨fun h => hr (List.isEmpty_iff.mp h), not_or.mpr ⟨not_not_intro hl, hst⟩⟩
  rw [State.slotDecoded, hj]
  dsimp only
  refine (if_neg hdone).trans ?_
  cases j.decoded d <;> rfl

/-- What keeps a sink from taking the result of a slot. -/
theorem sink_takes {s : State} {u : Nat} (hst : s.rd O.dataState = 1) (hs : s.isSink = true) (he : s.data.expect ≤ u)
    (ha : ∀ a ∈ s.data.arrived, a.1 ≠ u) :
    ¬(s.rd O.dataState ≠ 1 ∨ s.isSink = false ∨ u < s.data.expect ∨ (s.data.arrived.any (fun a => decide (a.1 = u))) = true) := by
  rw [hs, List.any_eq_true]
  refine not_or.mpr ⟨not_not_intro hst, not_or.mpr ⟨nofun, not_or.mpr ⟨Nat.not_lt.mpr he, ?_⟩⟩⟩
  rintro ⟨a, hmem, heq⟩
  exact ha a hmem (of_decide_eq_true heq)

/-- Settles O49: each command by its branch. -/
theorem dataEngineCommands : Obligations.DataEngineCommands := by
  refine ⟨?_, ?_, ?_, ?_, ?_, ?_, ?_⟩
  · intro s f h hk t
    refine ⟨fun u hv hc hu => ?_, fun hv hst => ?_, fun hv hst => ?_⟩
    · show execDataStart f s = _
      refine done_writeRow_of_writes h (by simp [hk, hv]) ?_
      rw [dataControlEffect, if_pos hv]
      dsimp only
      rw [if_neg (not_not_intro hc), hu]
    · show execDataStop f s = _
      refine done_writeRow_of_writes h (by simp [hk, hv]) ?_
      rw [dataControlEffect, if_neg (by omega), if_pos hv, if_pos hst]
    · show execClearClips f s = _
      refine done_writeRow_of_writes h (by simp [hk, hv]) ?_
      rw [dataControlEffect, if_neg (by omega), if_neg (by omega), if_pos hv, if_pos hst]
  · intro s hst hd hn ho u id next t t'
    show execDecodeSlot s = _
    rw [execDecodeSlot, settled_eq_seen, beginSlot_of_open hst hd hn ho]
  · intro s port qp hp hq
    have hunits : ¬(2 ≤ port ∨ 64 ≤ qp) := by omega
    refine ⟨fun fr hu => ?_, fun due hdue hle => ?_, fun hle => ?_, fun up => ?_⟩
    · intro dropped
      rw [exec_ingestFrame s fr hp]
      refine ⟨fun hf => ⟨fun hr => ?_, fun p hr => ⟨fun hk => ?_, fun k hk => ⟨fun hc => ?_, fun hc => ⟨fun ho => ?_, fun ho hn => ?_,
        fun ho hn hcon => ?_⟩⟩⟩⟩, fun q hf hpause => ?_⟩
      · rw [ingestFrame_other hu hf hr]
      · rw [ingestFrame_noQp hu hf hr hk]
      · rw [ingestFrame_qp hu hf hr hk, if_neg (by rw [hc]; exact nofun)]
      · rw [ingestFrame_qp hu hf hr hk, if_pos hc, State.takeRoce, if_pos ho]
      · rw [ingestFrame_qp hu hf hr hk, if_pos hc, State.takeRoce, if_neg (by rw [ho]; exact nofun), if_pos hn]
      · rw [ingestFrame_qp hu hf hr hk, if_pos hc, State.takeRoce, if_neg (by rw [ho]; exact nofun), if_neg (by rw [hn]; exact nofun), if_pos hcon]
      · rw [ingestFrame_pause hu hf hpause]
    · show execRdmaTimeout port qp s = _
      rw [execRdmaTimeout, if_neg hunits, hdue]
      dsimp only
      rw [if_pos hle, settled_eq_seen]
    · show execRateRecovery port qp s = _
      rw [execRateRecovery, if_neg hunits, if_neg (Nat.not_lt.mpr hle), done_eq_seen]
    · show execIngestLinkChange port up s = _
      rw [execIngestLinkChange, if_neg (Nat.not_le.mpr hp), done_eq_seen]
  · intro s u d j hj hr hl hst kept
    have hexec : exec (.slotDecoded u d) s = .next (seen s (s.slotDecoded u d).settleData.settle) := settled_eq_seen s _
    rw [hexec, slotDecoded_of_job d hj hr hl hst]
    refine ⟨fun hd => by rw [hd], fun o hd => ?_⟩
    dsimp only [kept]
    rw [hd]
    dsimp only
    refine ⟨fun hc => by rw [if_pos hc], fun cause hc hne => ⟨fun hp => ?_, fun h5 hp => ?_⟩⟩
    · rw [hc, if_neg hne, if_neg hp]
    · rw [hc, if_neg hne, if_pos ⟨h5, hp⟩]
  · intro s u p hd hst hs he ha
    have htakes := sink_takes hst hs he ha
    refine ⟨fun hp => ?_, fun hp hn => ?_⟩
    · intro t
      show execSlotTransfer u p s = _
      have harrive : execSlotTransfer u p s = settled s (s.arrive u p) := by
        rw [execSlotTransfer, if_neg hd]
        exact hp
      rw [harrive, settled_eq_seen, State.arrive, if_neg htakes]
    · show execSlotTransfer u p s = _
      subst hp
      rw [execSlotTransfer, if_neg hd, settled_eq_seen, State.transferFails, if_neg htakes]
      dsimp only
      rw [if_neg (Nat.not_le.mpr hn)]
  · intro s d source epoch hdec hd hown hsource
    show execClipNotice d source epoch s = _
    rw [execClipNotice, if_neg (by rw [hdec]; exact not_or.mpr ⟨nofun, not_or.mpr ⟨hd, hown⟩⟩), if_neg hsource, settled_eq_seen]
  · intro s sink cursor hdec hsink hst hd hown
    show execCursorMessage sink cursor s = _
    rw [execCursorMessage, if_neg (by rw [hdec]; exact not_or.mpr ⟨nofun, not_or.mpr ⟨Nat.not_le.mpr hsink, hst⟩⟩),
      if_neg (not_or.mpr ⟨hd, hown⟩), settled_eq_seen]

end Sys2Proof.Machine
end

section
/-! O50 and O51: torus ports, the link layer and the switch (chapter 14). -/

namespace Sys2Proof.Machine

/-! ### Torus ports -/

/-- A row about one of the six torus ports. -/
theorem portRow_eq_seen {n : Nat} (s t : State) (h : n < 6) : portRow n s t = .next (seen s t.settle) := by
  rw [portRow, if_neg (Nat.not_le.mpr h), settled_eq_seen]

/-- A port is UP by its state. -/
theorem portUp_of_state {s : State} {n : Nat} (h : s.pstate n = ptUp) : s.portUp n = true := decide_eq_true h

theorem state_of_portUp {s : State} {n : Nat} (h : s.portUp n = true) : s.pstate n = ptUp := of_decide_eq_true h

/-- A write that its rule takes, in a row that carries on. -/
theorem settled_writeRow_of_writes {s t : State} {f : Frame} {names : Nat → Nat → Bool} {effect : WriteEffect} (h : writes s f = true)
    (hn : names f.key (valueOf f) = true) (he : effect (inSession s f) f f.key (valueOf f) = .done t stOk []) :
    settled s (writeRow names effect f s) = .next (seen s (writeDone f t).settle) := by
  rw [writeRow_of_writes _ _ h hn, he, answer_done, settled_eq_seen]
  rfl

/-- A hello that passes at an UP port is noted. -/
theorem hello_up {s : State} {n : Nat} {r : IdRecord} (hk : r.kind = 1) (hst : s.pstate n = ptUp) (hp : s.recordPasses n r = true) :
    s.hello n r = s.modTport n (fun p => { p with lastHello := s.now }) := by
  have hhears : ¬(r.kind ≠ 1 ∨ ¬(s.pstate n = ptBeacon ∨ s.pstate n = ptMiswired ∨ s.pstate n = ptUp)) :=
    not_or.mpr ⟨not_not_intro hk, not_not_intro (.inr (.inr hst))⟩
  rw [State.hello]
  dsimp only
  rw [if_neg hhears, hp, if_neg nofun, if_pos hst]

/-- The second hello that passes at a port in BEACON begins training. -/
theorem hello_beacon {s : State} {n : Nat} {r : IdRecord} (hk : r.kind = 1) (hst : s.pstate n = ptBeacon) (hp : s.recordPasses n r = true)
    (hf : r.iflags.testBit 3 = false) (hh : 1 ≤ (s.tport n).hellos) : s.hello n r = (s.setPstate n ptBeacon).beginTraining n := by
  have hhears : ¬(r.kind ≠ 1 ∨ ¬(s.pstate n = ptBeacon ∨ s.pstate n = ptMiswired ∨ s.pstate n = ptUp)) :=
    not_or.mpr ⟨not_not_intro hk, not_not_intro (.inl hst)⟩
  have hsecond : ¬((s.setPstate n ptBeacon).tport n).hellos + 1 < 2 := by
    show ¬(s.tport n).hellos + 1 < 2
    omega
  rw [State.hello]
  dsimp only
  rw [if_neg hhears, hp, if_neg nofun, if_neg (by rw [hst]; decide), if_neg (by rw [hf]; exact nofun), if_neg hsecond]

/-- A hello that fails its checks is a miswire. -/
theorem hello_fails {s : State} {n : Nat} {r : IdRecord} (hk : r.kind = 1) (hst : s.pstate n = ptBeacon ∨ s.pstate n = ptUp ∨ s.pstate n = ptMiswired)
    (hp : s.recordPasses n r = false) : s.hello n r = s.miswire n r := by
  have hhears : ¬(r.kind ≠ 1 ∨ ¬(s.pstate n = ptBeacon ∨ s.pstate n = ptMiswired ∨ s.pstate n = ptUp)) :=
    not_or.mpr ⟨not_not_intro hk, not_not_intro (by omega)⟩
  rw [State.hello]
  dsimp only
  rw [if_neg hhears, hp, if_pos Bool.not_false]

/-- Settles O50: each event and control by its branch. -/
theorem torusPortLife : Obligations.TorusPortLife := by
  constructor
  · intro s n hn st
    refine ⟨fun hst => ?_, fun r hk hp => ⟨fun hst => ?_, fun hst hf hh => ?_⟩, fun r hk hp hst => ?_, fun hd ht hi he => ?_, ?_,
      fun r hst hk hp => ?_, fun hst hle => ?_, fun hst => ⟨fun h2 a b => ?_, fun h4 a b => ?_⟩, fun lanes hup hall => ?_, fun hup he => ?_,
      fun hst hle => ?_, fun hup he => ?_⟩
    · show execLightDetect n s = _
      rw [execLightDetect, portRow_eq_seen _ _ hn, if_neg (by rw [show s.pstate n = ptDark from hst]; decide)]
      dsimp only
      rw [if_pos (show s.pstate n = ptDark from hst)]
    · show execHello n r s = _
      rw [execHello, portRow_eq_seen _ _ hn, hello_up hk hst hp]
    · show execHello n r s = _
      rw [execHello, portRow_eq_seen _ _ hn, hello_beacon hk hst hp hf hh]
    · show execHello n r s = _
      rw [execHello, portRow_eq_seen _ _ hn, hello_fails hk hst hp]
    · show execBeaconSend n s = _
      rw [execBeaconSend, portRow_eq_seen _ _ hn,
        if_neg (not_or.mpr ⟨hd, not_or.mpr ⟨ht, not_or.mpr ⟨hi, by rw [he]; exact nofun⟩⟩⟩)]
    · intro r hst hk hp t u
      show execIdentity n r s = _
      rw [execIdentity, portRow_eq_seen _ _ hn, State.identityIn, if_neg (not_or.mpr ⟨not_not_intro hk, not_not_intro hst⟩), hp, if_neg nofun]
    · show execIdentityUpdate n r s = _
      rw [execIdentityUpdate, portRow_eq_seen _ _ hn, State.identityUpdate,
        if_neg (not_or.mpr ⟨not_not_intro hk, by rw [portUp_of_state hst]; exact nofun⟩), hp, if_neg nofun]
    · show execTrainStepTimeout n s = _
      rw [execTrainStepTimeout, if_neg (by omega), portRow_eq_seen _ _ hn, if_pos ⟨hst, hle⟩, State.trainFails]
    · show execTorusTrainingStepDone n a b s = _
      rw [execTorusTrainingStepDone, if_neg (by omega), portRow_eq_seen _ _ hn, State.trainStep, if_neg (not_not_intro hst), if_pos h2]
    · show execTorusTrainingStepDone n a b s = _
      rw [execTorusTrainingStepDone, if_neg (by omega), portRow_eq_seen _ _ hn, State.trainStep, if_neg (not_not_intro hst), if_neg (by omega),
        if_neg (by omega)]
    · show execLightLoss n lanes s = _
      rw [execLightLoss, portRow_eq_seen _ _ hn, State.lightLoss, if_pos hup, if_pos (decide_eq_true hall)]
    · show execHelloTimeout n s = _
      rw [execHelloTimeout, portRow_eq_seen _ _ hn, if_pos ⟨hup, he⟩]
    · show execHoldExpiry n s = _
      rw [execHoldExpiry, portRow_eq_seen _ _ hn, if_pos ⟨hst, hle⟩]
    · show execHoldBaseRestore n s = _
      rw [execHoldBaseRestore, portRow_eq_seen _ _ hn, if_pos ⟨hup, he⟩]
  · intro s f h hobj t n
    refine ⟨fun hv hst hdim hon => ?_, fun hv => ⟨fun hl => ?_, ?_⟩, fun hv hst => ?_, fun hv hst => ?_⟩
    · show execPortEnable f s = _
      refine settled_writeRow_of_writes h (by simp [hobj, hv]) ?_
      rw [portControlEffect, if_pos hv]
      exact if_neg (not_or.mpr ⟨not_not_intro hst, not_or.mpr ⟨hdim, fun ho => Bool.false_ne_true (ho.symm.trans hon)⟩⟩)
    · show execPortDisable f s = _
      refine settled_writeRow_of_writes h (by simp [hobj, hv]) ?_
      rw [portControlEffect, if_neg (by omega), if_pos hv, State.disableNow]
      exact congrArg (Served.done · stOk []) (if_neg hl)
    · intro hl u
      show execPortDisable f s = _
      refine settled_writeRow_of_writes h (by simp [hobj, hv]) ?_
      rw [portControlEffect, if_neg (by omega), if_pos hv, State.disableNow]
      exact congrArg (Served.done · stOk []) (if_pos hl)
    · show execPortRetrain f s = _
      refine settled_writeRow_of_writes h (by simp [hobj, hv]) ?_
      rw [portControlEffect, if_neg (by omega), if_neg (by omega), if_pos hv]
      exact if_neg (not_not_intro hst)
    · show execClearHold f s = _
      refine settled_writeRow_of_writes h (by simp [hobj, hv]) ?_
      rw [portControlEffect, if_neg (by omega), if_neg (by omega), if_neg (by omega), if_pos hv]
      exact if_neg (not_not_intro hst)

/-! ### The link layer -/

section
variable {s : State} {n : Nat} {fl : Flit} (hup : s.portUp n = true)
include hup

/-- A flit that is not good is discarded and counted, and answered with a NAK. -/
theorem flitIn_bad (hg : flitGood fl = false) :
    s.flitIn n fl = (((s.add (O.fecCorrected n) fl.corrected).add (O.fecUncorrected n) 1).badFlit n) := by
  rw [State.flitIn, if_neg (fun h => h.1 (state_of_portUp hup))]
  dsimp only
  rw [hg, if_pos Bool.not_false]

/-- A good flit acknowledges and returns credit, and then is taken or passed over. -/
theorem flitIn_good (hg : flitGood fl = true) (hk : fl.kind ≤ 3) : s.flitIn n fl =
    let t := s.add (O.fecCorrected n) fl.corrected
    let p := (t.tport n).acknowledge fl
    let v := flitBuffer fl.vc
    if fl.kind = 0 then ((t.setTport n p).pump n).tell
    else if fl.linkSeq ≠ (p.rx + 1) % 65536 then (t.setTport n p).tell
    else if fl.kind ≠ 3 ∧ (10 < v ∨ vcBuffer v ≤ p.held.get 0 v) then (t.setTport n p).badFlit n
    else
      let got := { p with rx := fl.linkSeq, awaits := false }
      ((((t.setTport n (if fl.kind = 3 then got else got.takeFlit fl)).add (O.flitsReceived n) 1).kpc 0x09 n 1).pump n).tell := by
  rw [State.flitIn, if_neg (fun h => h.1 (state_of_portUp hup))]
  dsimp only
  rw [hg, if_neg nofun, if_neg (show ¬fl.kind = 4 by omega)]
  have hseq : (4 < fl.kind ∨ fl.linkSeq ≠ (((s.add (O.fecCorrected n) fl.corrected).tport n).acknowledge fl).rx.succ % 65536)
      = (fl.linkSeq ≠ (((s.add (O.fecCorrected n) fl.corrected).tport n).acknowledge fl).rx.succ % 65536) :=
    propext ⟨fun h => h.resolve_left (by omega), .inr⟩
  simp only [Nat.succ_eq_add_one] at hseq
  simp only [hseq]

end

/-- A NAK that names a flit of the window replays what follows it. -/
theorem nakIn_replays {s : State} {n seq : Nat} (hup : s.portUp n = true)
    (hd : (seq + 65536 - (s.tport n).acked) % 65536 ≤ (s.tport n).window.length) : s.nakIn n seq =
      let p := s.tport n
      let done := (seq + 65536 - p.acked) % 65536
      let rs := p.replays.filter (fun t => decide (s.now < t + 1000)) ++ [s.now]
      let again := p.window.drop done
      let t := ((s.setTport n { p with acked := seq, window := again, replays := rs }).add (O.linkReplays n) 1).put
        (.replay n ((seq + 1) % 65536) again.length)
      let u := State.each (fun (t : State) (x : SentFlit) => t.putFlit n x.kind x.vc x.seq x.payload) t again
      if 8 ≤ rs.length then u.retrainPort n else u.pump n := by
  rw [State.nakIn, if_neg (by rw [hup]; exact nofun)]
  dsimp only
  rw [if_neg (Nat.not_lt.mpr hd)]

/-! ### Packets -/

/-- A packet `p` that is judged on a virtual channel of its port goes on, ends here, or is discarded. -/
def State.packetJudged (s : State) (t : State) (n vc v : Nat) (p : Packet) (come : Bool) : State :=
  let u := if come then t.freeFlits n v (pieces 608 p.bytes).length else t
  (if s.torusSize ≤ p.dest then u.discardPacket O.unreachable p
   else if p.dest = s.node.id then u.deliverPacket p
   else t.passPacket n vc p come).tell

section
variable {s : State} {n vc : Nat} {given : Packet} (hup : s.portUp n = true) (hc : given.cls ≤ 4) (hv : vc < if given.cls = 4 then 3 else 2)
include hup hc hv

/-- Where none has come on its channel, the packet is as it is given. -/
theorem packetIn_given (ha : ∀ a ∈ (s.tport n).arrived, a.1 ≠ 2 * given.cls + vc) :
    s.packetIn n vc given = s.packetJudged s n vc (2 * given.cls + vc) given false := by
  have hnone : (s.tport n).arrived.find? (fun a => decide (a.1 = 2 * given.cls + vc)) = none :=
    List.find?_eq_none.mpr fun a hmem => by rw [decide_eq_true_eq]; exact ha a hmem
  have hok : ¬((!s.portUp n) = true ∨ 4 < given.cls ∨ (if given.cls = 4 then 3 else 2) ≤ vc) := by
    rw [hup]
    exact not_or.mpr ⟨nofun, not_or.mpr ⟨Nat.not_lt.mpr hc, Nat.not_le.mpr hv⟩⟩
  rw [State.packetIn, if_neg hok]
  dsimp only
  rw [hnone]
  rfl

/-- The packet whose flits have come on its channel is taken from its port. -/
theorem packetIn_come {a : Nat × Packet} (ha : (s.tport n).arrived.find? (fun a => decide (a.1 = 2 * given.cls + vc)) = some a) :
    s.packetIn n vc given = s.packetJudged
      (s.setTport n { s.tport n with arrived := (s.tport n).arrived.erase (2 * given.cls + vc, a.2) }) n vc (2 * given.cls + vc) a.2 true := by
  have hok : ¬((!s.portUp n) = true ∨ 4 < given.cls ∨ (if given.cls = 4 then 3 else 2) ≤ vc) := by
    rw [hup]
    exact not_or.mpr ⟨nofun, not_or.mpr ⟨Nat.not_lt.mpr hc, Nat.not_le.mpr hv⟩⟩
  rw [State.packetIn, if_neg hok]
  dsimp only
  rw [ha]
  rfl

end

/-- The row of a packet. -/
theorem exec_packet (s : State) {n : Nat} (vc : Nat) (p : Packet) (h : n < 6) :
    exec (.packet n vc p) s = .next (seen s (s.packetIn n vc p).settle) := portRow_eq_seen _ _ h

/-! ### Notices -/

/-- Settles O51: each row by its branch. -/
theorem linkLayerAndSwitch : Obligations.LinkLayerAndSwitch := by
  refine ⟨fun s n hn hup => ⟨?_, ?_, ?_, ?_⟩, fun s p => ⟨fun hp he => ?_, fun he => ?_, fun q => ⟨fun hc => ?_, fun hc hu => ?_, ?_⟩, fun cls => ?_⟩,
    fun s dim link => ?_⟩
  · intro fl t p v got
    have hexec : exec (.flit n fl) s = .next (seen s (s.flitIn n fl).settle) := portRow_eq_seen _ _ hn
    rw [hexec]
    refine ⟨fun hg => ?_, fun hg => ⟨fun hk => ?_, fun hk hseq hv hroom => ?_, fun hk hseq => ?_, fun hlow hhigh hseq => ?_⟩⟩
    · rw [flitIn_bad hup hg]
      rfl
    · rw [flitIn_good hup hg (by omega)]
      dsimp only
      rw [if_pos hk]
    · rw [flitIn_good hup hg (by omega)]
      dsimp only
      rw [if_neg (show ¬fl.kind = 0 by omega), if_neg (not_not_intro hseq),
        if_neg (fun h => h.2.elim (Nat.not_lt.mpr hv) (Nat.not_le.mpr hroom)), if_neg (show ¬fl.kind = 3 by omega)]
    · rw [flitIn_good hup hg (by omega)]
      dsimp only
      rw [if_neg (show ¬fl.kind = 0 by omega), if_neg (not_not_intro hseq), if_neg (fun h => h.1 hk), if_pos hk]
    · rw [flitIn_good hup hg hhigh]
      dsimp only
      rw [if_neg (show ¬fl.kind = 0 by omega), if_pos hseq]
  · intro seq p done rs again t u hd
    have hexec : exec (.nak n seq) s = .next (seen s (s.nakIn n seq).settle) := portRow_eq_seen _ _ hn
    rw [hexec, nakIn_replays hup hd]
  · intro vc given hc hv v port run
    have hrun : ∀ (t : State) (p : Packet) (come : Bool), s.packetIn n vc given = s.packetJudged t n vc v p come → run t p come := by
      intro t p come hin
      rw [State.packetJudged] at hin
      refine ⟨fun hd hs => ?_, fun hs hd => ?_, fun hs => ?_⟩
      · rw [exec_packet s vc given hn, hin, if_neg (Nat.not_le.mpr hs), if_pos hd]
      · rw [exec_packet s vc given hn, hin, if_neg (Nat.not_le.mpr hs), if_neg hd]
      · rw [exec_packet s vc given hn, hin, if_pos hs]
    exact ⟨fun ha => hrun _ _ _ (packetIn_given hup hc hv ha), fun a ha => hrun _ _ _ (packetIn_come hup hc hv ha)⟩
  · intro link down origin hl ho ports
    have hgoes : ¬(n / 2 ≠ n / 2 ∨ (!s.portUp n) = true ∨ s.dimSize (n / 2) ≤ link ∨ origin = s.node.id) := by
      rw [hup]
      exact not_or.mpr ⟨fun h => h rfl, not_or.mpr ⟨nofun, not_or.mpr ⟨Nat.not_le.mpr hl, ho⟩⟩⟩
    have hexec : exec (.lineNotice n (n / 2) link down origin) s = .next (seen s (s.lineNoticeIn n (n / 2) link down origin).settle) :=
      portRow_eq_seen _ _ hn
    rw [hexec, State.lineNoticeIn, if_neg hgoes]
  · show execKeepalive p s = _
    rw [execKeepalive, settled_eq_seen, if_pos ⟨hp, he⟩]
  · show execRemotePartnerTimeout p s = _
    rw [execRemotePartnerTimeout, settled_eq_seen, if_pos he]
  · show execUnreachableNotice q p s = _
    rw [execUnreachableNotice, settled_eq_seen, State.unreachableIn, if_pos hc]
  · show execUnreachableNotice q p s = _
    rw [execUnreachableNotice, settled_eq_seen, State.unreachableIn, if_neg hc, if_pos hu]
  · intro x hc hu hpay hx o t
    show execUnreachableNotice q p s = _
    rw [execUnreachableNotice, settled_eq_seen, State.unreachableIn, if_neg hc, if_neg (not_not_intro hu), if_neg (fun h => hpay h.1), hx]
  · rfl
  · rfl

end Sys2Proof.Machine
end

section
/-! O53 to O55: die links, the die protocol and integrity (chapters 15 and 16). -/

namespace Sys2Proof.Machine

/-! ### Die link training -/

/-- A row about a die link of the package. -/
theorem linkRow_eq_seen {n : Nat} (s t : State) (h : n < 10) : linkRow n s t = .next (seen s t.settle) := by
  rw [linkRow, if_neg (Nat.not_le.mpr h), settled_eq_seen]

/-- The local end whose test is done first claims what passed. -/
theorem testDone_local {s : State} {n : Nat} (mask repaired : Nat) (hst : s.rd (O.slState n) = 1) (h1 : (s.dieLink n).step = 1)
    (ha : (s.dieLink n).claimA = none) (hb : (s.dieLink n).claimB = none) : s.testDone n false mask repaired =
      let l := s.dieLink n
      let c : DieClaim := ⟨l.epochA, mask % 256, claimWidth (mask % 256) l.cap⟩
      let t := s.setDieLink n { l with claimA := some c }
      (t.wr (O.slLanesRepaired n) (min 255 (t.rd (O.slLanesRepaired n) + repaired))).wr (O.slLocalClaim n) c.word := by
  have htests : ¬(s.rd (O.slState n) ≠ 1 ∨ (s.dieLink n).step ≠ 1 ∨ (s.dieLink n).claimA.isSome = true) := by
    rw [ha]
    exact not_or.mpr ⟨not_not_intro hst, not_or.mpr ⟨not_not_intro h1, nofun⟩⟩
  simp only [State.testDone, Bool.false_eq_true, if_false, htests, hb, Option.isSome_none, Bool.and_false]

/-- The local claim that arrives after the other's lets the claims be compared. -/
theorem claimIn_both {s : State} {n : Nat} {a b : DieClaim} (hst : s.rd (O.slState n) = 1) (ha : (s.dieLink n).claimA = some a)
    (hb : (s.dieLink n).claimB = some b) (hg : (s.dieLink n).gotB = true) :
    s.claimIn n false a = (s.setDieLink n { s.dieLink n with gotA := true }).judgeClaims n a b := by
  have hsent : ¬(s.rd (O.slState n) ≠ 1 ∨ some a ≠ some a) := not_or.mpr ⟨not_not_intro hst, fun h => h rfl⟩
  simp only [State.claimIn, Bool.false_eq_true, if_false, hsent, ha, hb, hg, Bool.and_self, if_true]

/-- Settles O53: each event of a training by its branch. -/
theorem dieLinkTraining : Obligations.DieLinkTraining := by
  constructor
  · intro s n hn l
    refine ⟨?_, fun a b hst ha hb hg => ?_, fun a b he hw hc hl => ?_, fun hst hd => ?_, fun due hr hd hst hl => ?_, fun hst => ⟨?_, ?_⟩⟩
    · intro mask repaired hst h1 ha hb c t
      have hexec : exec (.dieLinkTestDone n false mask repaired) s = .next (seen s (s.testDone n false mask repaired).settle) :=
        linkRow_eq_seen _ _ hn
      rw [hexec, testDone_local mask repaired hst h1 ha hb]
    · have hexec : exec (.claim n false a.epoch a.mask a.width) s = .next (seen s (s.claimIn n false a).settle) := linkRow_eq_seen _ _ hn
      rw [hexec, claimIn_both hst ha hb hg]
    · rw [State.judgeClaims]
      dsimp only
      rw [if_neg hc, if_pos ⟨he, hw, hl⟩]
    · have hexec : exec (.dieTrainTimeout n) s = .next (seen s (s.trainingExpires n).settle) := linkRow_eq_seen _ _ hn
      rw [hexec, State.trainingExpires, if_pos ⟨hst, hd⟩]
    · have hexec : exec (.dieTrainRetry n) s = .next (seen s (s.trainAgain n).settle) := linkRow_eq_seen _ _ hn
      rw [hexec, State.trainAgain, show (s.dieLink n).retryAt = some due from hr]
      dsimp only
      rw [if_pos ⟨hd, hst, hl⟩]
    · have hexec : exec (.scarfFlit n true) s = .next (seen s (s.scarfFlitIn n true).settle) := linkRow_eq_seen _ _ hn
      rw [hexec, State.scarfFlitIn, if_neg (not_not_intro hst), if_pos rfl]
    · intro times t hlimit
      have hexec : exec (.scarfFlit n false) s = .next (seen s (s.scarfFlitIn n false).settle) := linkRow_eq_seen _ _ hn
      rw [hexec, State.scarfFlitIn, if_neg (not_not_intro hst), if_neg nofun]
      dsimp only
      rw [if_neg (Nat.not_le.mpr hlimit)]
  · intro s f h hobj t n hst
    show execSlRetrain f s = _
    refine done_writeRow_of_writes h hobj ?_
    rw [slControlEffect]
    exact if_pos hst

/-! ### The die protocol -/

/-- A row about a die, the IOD among them. -/
theorem anyDieRow_eq_seen {d : Nat} (s t : State) (h : d < 5) : anyDieRow d s t = .next (seen s t.settle) := by
  rw [anyDieRow, if_neg (Nat.not_le.mpr h), settled_eq_seen]

/-- A row about a compute die. -/
theorem dieRow_eq_seen {d : Nat} (s t : State) (h : d < 4) : dieRow d s t = .next (seen s t) := by
  rw [dieRow, if_neg (Nat.not_le.mpr h), done_eq_seen]

/-- A READ with room on its link leaves for its home. -/
theorem askHome_read {s : State} {d block : Nat} (h : (onLink (homeOf block) (s.cache d).reads).length < 256) :
    s.askHome d ⟨block, none, none⟩
      = (s.setCache d { s.cache d with reads := (s.cache d).reads ++ [⟨block, none, none⟩] }).sendDie ⟨.read, d, homeOf block, block, none⟩ := by
  rw [State.askHome]
  exact if_neg (Nat.not_le.mpr h)

/-- A WRITE with room on its link leaves for its home. -/
theorem askHome_write {s : State} {d block : Nat} (m : Map Byte) (h : (onLink (homeOf block) (s.cache d).writes).length < 64) :
    s.askHome d ⟨block, none, some m⟩
      = (s.setCache d { s.cache d with writes := (s.cache d).writes ++ [⟨block, none, some m⟩] }).sendDie
          ⟨.write, d, homeOf block, block, some m⟩ := by
  rw [State.askHome]
  exact if_neg (Nat.not_le.mpr h)

section
variable {s : State} {d block : Nat} (hr : s.reaches d block = true)
include hr

/-- A write by the home die starts there. -/
theorem dieWrite_home (m : Map Byte) (hh : homeOf block = d) : s.dieWrite d block m = s.homeWrite d block m := by
  rw [State.dieWrite, if_neg (by rw [hr]; exact nofun), if_pos hh]

variable (hh : homeOf block ≠ d)
include hh

/-- A READ on its way arrives where it is next. -/
theorem dieRead_arrives (ht : s.inTransit .read d (homeOf block) block = true) : s.dieRead d block = s.readIn d block := by
  rw [State.dieRead, if_neg (not_or.mpr ⟨hh, by rw [hr]; exact nofun⟩), if_pos ht]

/-- A unit whose requests the model does not form sends its READ, past a cache that is off. -/
theorem dieRead_sends (ht : s.inTransit .read d (homeOf block) block = false) (hl : (onLink (homeOf block) (s.cache d).reads).length < 256)
    (hc : s.rlcOn d = false) : s.dieRead d block = (s.askHome d ⟨block, none, none⟩).readIn d block := by
  rw [State.dieRead, if_neg (not_or.mpr ⟨hh, by rw [hr]; exact nofun⟩), if_neg (by rw [ht]; exact nofun), if_neg (Nat.not_le.mpr hl), hc,
    Bool.not_false, Bool.true_or, if_pos rfl]

/-- A WRITE on its way arrives where it is next. -/
theorem dieWrite_arrives (m : Map Byte) (ht : s.inTransit .write d (homeOf block) block = true) : s.dieWrite d block m = s.writeIn d block := by
  rw [State.dieWrite, if_neg (by rw [hr]; exact nofun), if_neg hh, if_pos ht]

/-- A unit whose requests the model does not form sends its WRITE. -/
theorem dieWrite_sends (m : Map Byte) (ht : s.inTransit .write d (homeOf block) block = false)
    (hl : (onLink (homeOf block) (s.cache d).writes).length < 64) :
    s.dieWrite d block m = (s.askHome d ⟨block, none, some m⟩).writeIn d block := by
  rw [State.dieWrite, if_neg (by rw [hr]; exact nofun), if_neg hh, if_neg (by rw [ht]; exact nofun), if_neg (Nat.not_le.mpr hl)]

end

/-- Settles O54: each message by whether it is the next on its way. -/
theorem dieProtocol : Obligations.DieProtocol := by
  constructor
  · intro s d block hd h c
    have hread : exec (.dieRead d block) s = .next (seen s (s.dieRead d block).settle) := anyDieRow_eq_seen _ _ hd
    have hwrite : ∀ m, exec (.dieWrite d block m) s = .next (seen s (s.dieWrite d block m).settle) := fun m => anyDieRow_eq_seen _ _ hd
    refine ⟨fun hh hr => ⟨fun m ht hm => ?_, fun ht hl hc => ?_, fun bytes m ht hm => ?_, fun bytes ht hl => ?_⟩, fun bytes hh hr => ?_, fun m hm => ?_,
      fun m hm => ?_, fun hd4 => ⟨fun m hm => ?_, fun m hm => ?_, fun index sub hj => ?_⟩⟩
    · rw [hread, dieRead_arrives hr hh ht, State.readIn, hm]
    · rw [hread, dieRead_sends hr hh ht hl hc, askHome_read hl]
    · rw [hwrite, dieWrite_arrives hr hh bytes ht, State.writeIn, hm]
    · rw [hwrite, dieWrite_sends hr hh bytes ht hl, askHome_write bytes hl]
    · rw [hwrite, dieWrite_home hr bytes hh]
    · have hexec : exec (.readData d block) s = .next (seen s (s.dataIn d block).settle) := anyDieRow_eq_seen _ _ hd
      rw [hexec, State.dataIn, hm]
    · have hexec : exec (.writeAck d block) s = .next (seen s (s.writeAckIn d block).settle) := anyDieRow_eq_seen _ _ hd
      rw [hexec, State.writeAckIn, hm]
    · have hexec : exec (.invalidate d block) s = .next (seen s (s.invalidateIn d block)) := dieRow_eq_seen _ _ hd4
      rw [hexec, State.invalidateIn, hm]
    · show execInvAck d block s = _
      rw [execInvAck, if_neg (Nat.not_le.mpr hd4), settled_eq_seen, State.ackIn, hm]
    · show execIntMessage d index sub s = _
      rw [execIntMessage, dieRow_eq_seen _ _ hd4, if_pos hj]
  · intro s f h hobj d t
    refine ⟨fun hv => ?_, fun hv => ?_⟩
    · show execRlcEnableWrite f s = _
      refine done_writeRow_of_writes h hobj ?_
      rw [rlcEnableEffect, if_pos hv]
    · show execRlcEnableWrite f s = _
      refine done_writeRow_of_writes h hobj ?_
      rw [rlcEnableEffect, if_neg hv]

/-! ### Integrity -/

/-- With no mapped frame left ahead, the scrub of a stack begins another pass. -/
theorem scrub_pass {s : State} {k : Nat} (errors : List LineErrors) (hp : s.rd O.scrubPeriod ≠ 0) (hon : s.stackOn k = true)
    (h : ∀ e ∈ s.framesOf k, e.2.use = 1 → e.1 < s.dies.scrub.get 0 k) :
    s.scrub k errors = ({ s with dies := { s.dies with scrub := s.dies.scrub.set 0 k 0 } } : State).add (O.scrubPasses k) 1 := by
  have hnone : (((s.framesOf k).filter (fun e => decide (e.2.use = 1))).map Prod.fst).find? (fun n => decide (s.dies.scrub.get 0 k ≤ n)) = none := by
    rw [List.find?_eq_none]
    intro n hn
    obtain ⟨e, he, rfl⟩ := List.mem_map.mp hn
    obtain ⟨hmem, huse⟩ := List.mem_filter.mp he
    rw [decide_eq_true_eq, Nat.not_le]
    exact h e hmem (of_decide_eq_true huse)
  rw [State.scrub]
  dsimp only
  rw [if_neg (not_or.mpr ⟨hp, by rw [hon]; exact nofun⟩), hnone]

/-- A partner whose result agrees hands the sample back. -/
theorem recompute_agrees {s : State} {c : Nat} {errors : List (Nat × W32)} {r : Recompute} {forced : Bool} (hs : (s.core c).sample = some r)
    (hn : tileDiffers r.result (tileErrors (mmRun r.x ⟨(s.core r.owner).mem, (s.bent (r.owner / 64)).mem⟩ r.desc r.start).1 errors) = 0)
    (hf : forced = true → r.since + 16384 ≤ s.coreCycles c) (hi : forced = false → (s.core c).matrixIdle = true) :
    s.recompute c errors forced
      = ((s.modCore c (fun k => { k with sample := none })).add O.recomputeSampled 1).sampleDone r.owner c := by
  have hwaits : ¬(forced && decide (s.coreCycles c < r.since + 16384)) = true := by
    rw [Bool.and_eq_true, decide_eq_true_eq]
    exact fun h => absurd (hf h.1) (Nat.not_le.mpr h.2)
  have hbusy : ¬(!forced && !(s.core c).matrixIdle) = true := by
    rw [Bool.and_eq_true, Bool.not_eq_true', Bool.not_eq_true']
    exact fun h => Bool.false_ne_true (h.2.symm.trans (hi h.1))
  rw [State.recompute, hs]
  dsimp only
  rw [if_neg hwaits, if_neg hbusy, hn, if_pos rfl]

/-- Outside a drain, slots that are late are stopped and the package drains. -/
theorem packageExpires_late {s : State} (hd : s.rd O.drainState = 0) (hl : s.overdueSlots ≠ []) : s.packageExpires =
    let own := s.suspect susPackage 0
    let t := (s.add (O.timeoutExpiries 5) 1).record 5 own 0xFFFFFFFF (6 * 2 ^ 24) 4
    (State.each State.forceStop t s.overdueSlots).startDrain 4 own := by
  have hlate : ¬(s.overdueSlots.isEmpty && !(decide (s.rd O.drainState = 1) && decide (s.faults.drainDue ≤ s.now))) = true := by
    rw [Bool.and_eq_true, List.isEmpty_iff]
    exact fun h => hl h.1
  rw [State.packageExpires]
  dsimp only
  rw [if_neg hlate, if_pos (decide_eq_true hd), if_pos (decide_eq_true hd)]

/-- A report of a child that is whole and for this package is taken. -/
theorem reportIn_taken {s : State} {f : Frame} (hs : s.served = true) (hw : s.walk = false) (hc : f.carrier = .torus) (hi : f.intact = true)
    (hv : f.version = 1) (hf : f.kind = 4 ∧ f.session = 0 ∧ f.dest = s.node.id ∧ f.key = O.faultReport ∧ recordGood f.body = true) :
    s.reportIn f = ((((s.trace f).add O.framesReceived 1).kpc 0x10 0 1).setDom O.faultReport (Map.setBytes Map.empty 0#8 0 f.body)).addReport f.body := by
  have hhears : ¬(!s.served || s.walk || decide (f.carrier ≠ .torus)) = true := by
    rw [hs, hw, hc]
    exact nofun
  rw [State.reportIn, if_neg hhears]
  dsimp only
  rw [if_neg (by rw [hi]; exact nofun), if_neg (not_not_intro hv), if_pos hf]

/-- Settles O55: each command by its branch. -/
theorem integrityCommands : Obligations.IntegrityCommands := by
  refine ⟨fun s k errors hk hp hon => ⟨?_, fun hlast => scrub_pass errors hp hon hlast⟩, ?_, fun s suspect => rfl, fun s => ⟨?_, ?_, fun hd hl => ?_⟩, ?_, ?_⟩
  · show execScrubRead k errors s = _
    rw [execScrubRead, if_neg (Nat.not_le.mpr hk), settled_eq_seen]
  · intro s c errors r hc hs k found t hn
    refine ⟨fun hi => ?_, fun hw => ?_⟩
    · show execRecomputeRun c errors s = _
      rw [execRecomputeRun, settledRow_eq_seen _ _ hc, recompute_agrees (forced := false) hs hn nofun fun _ => hi]
    · show execRecomputeForce c errors s = _
      rw [execRecomputeForce, settledRow_eq_seen _ _ hc, recompute_agrees (forced := true) hs hn (fun _ => hw) nofun]
  · intro b engine hb _ _
    show execBentTimeout b engine s = _
    rw [execBentTimeout, if_neg (Nat.not_le.mpr hb), settled_eq_seen]
  · intro d u hd hu hlt hon sus hkind hunit
    show execDieTimeout d sus s = _
    rw [execDieTimeout, if_neg (Nat.not_le.mpr hd), settled_eq_seen, State.dieExpires]
    dsimp only
    rw [hunit, if_pos ⟨hkind, hu, hon⟩]
  · intro own t
    show execPackageTimeout s = _
    rw [execPackageTimeout, settled_eq_seen, packageExpires_late hd hl]
  · intro s f hs hw hc hi hv h4 h0 hd hk hg t
    show execFaultReport f s = _
    rw [execFaultReport, done_eq_seen, reportIn_taken hs hw hc hi hv ⟨h4, h0, hd, hk, hg⟩]
  · intro s suspect cls step p hp hdue r left t
    have hexec : exec (.reportSend suspect cls step) s = .next (seen s (s.reportOut suspect cls step)) := done_eq_seen s _
    rw [hexec, State.reportOut, hp]
    dsimp only
    rw [if_neg (by rw [hdue]; exact nofun)]
    exact ⟨fun hroot => by rw [if_pos hroot], fun hroot => by rw [if_neg hroot]⟩

end Sys2Proof.Machine
end

section
/-! O57 to O59: power, start and supply (chapters 17 and 19). -/

namespace Sys2Proof.Machine

/-! ### Power domains -/

/-- A write in a row that carries on, by what its rule answers. -/
theorem settled_writeRow {s : State} {f : Frame} {names : Nat → Nat → Bool} {effect : WriteEffect} {r : Served} (h : writes s f = true)
    (hn : names f.key (valueOf f) = true) (he : effect (inSession s f) f f.key (valueOf f) = r) :
    settled s (writeRow names effect f s) = .next (seen s (answer f true r).settle) := by
  rw [writeRow_of_writes _ _ h hn, he, settled_eq_seen]

section
variable {s : State} {d : Nat} (hr : s.domainResets d = false) (hp : s.rd (O.domainPending d) = 0)
include hr hp

/-- An ENABLE of a domain that is OFF and may power up begins it. -/
theorem domainRequest_enable (hst : s.judged d = domOff) (hm : s.mayEnable d = true) : s.domainRequest d true = s.enableNow d := by
  have hmay : ¬(true = true ∧ (s.judged d = domExcluded ∨ (s.judged d ≠ domOn ∧ s.judged d ≠ domUp ∧ s.mayEnable d = false))) := by
    rw [hst, hm]
    exact fun h => h.2.elim (by decide) fun h => Bool.false_ne_true h.2.2.symm
  rw [State.domainRequest]
  rw [if_neg (fun h => Bool.false_ne_true h.2.symm), if_neg (by rw [hr]; exact nofun), if_neg hmay, if_neg (fun h => Bool.false_ne_true h.1.symm), hp,
    if_neg (by decide), if_neg (by decide), State.judgeDomain, hst]
  rfl

/-- An ENABLE of a domain that is ON is complete. -/
theorem domainRequest_isOn (hst : s.judged d = domOn) : s.domainRequest d true = .done s stOk [] := by
  have hmay : ¬(true = true ∧ (s.judged d = domExcluded ∨ (s.judged d ≠ domOn ∧ s.judged d ≠ domUp ∧ s.mayEnable d = false))) := by
    rw [hst]
    exact fun h => h.2.elim (by decide) fun h => h.1 rfl
  rw [State.domainRequest]
  rw [if_neg (fun h => Bool.false_ne_true h.2.symm), if_neg (by rw [hr]; exact nofun), if_neg hmay, if_neg (fun h => Bool.false_ne_true h.1.symm), hp,
    if_neg (by decide), if_neg (by decide), State.judgeDomain, hst]
  rfl

/-- A DISABLE of a domain that is ON and is not refused begins its power-down. -/
theorem domainRequest_disable (ha : d ≠ domAlwaysOn) (hst : s.judged d = domOn) (hd : s.disableRefused d = false) : s.domainRequest d false
    = if 10000 < downBound d then .deferred (s.beginDown d) (.domain d false) else .open_ (s.beginDown d) (.domain d false) := by
  rw [State.domainRequest]
  rw [if_neg (fun h => ha h.1), if_neg (by rw [hr]; exact nofun), if_neg (fun h => Bool.false_ne_true h.1),
    if_neg (by rw [hd]; exact fun h => Bool.false_ne_true h.2), hp, if_neg (by decide), if_neg (by decide), State.judgeDomain, hst]
  rfl

end

/-- A row about a power domain. -/
theorem powerRow_eq_seen {d : Nat} (s t : State) (h : d < 80) : powerRow d s t = .next (seen s t.settle) := by
  rw [powerRow, if_neg (Nat.not_le.mpr h), settled_eq_seen]

/-- Settles O57: a request by the state that it finds; a transition by how it ends. -/
theorem powerDomains : Obligations.PowerDomains := by
  constructor
  · intro s f h t d
    refine ⟨fun hobj hr hp => ⟨fun hv hst hm => ?_, fun hv hst => ?_, fun hv ha hst hd => ?_⟩, fun hobj hon hr hu => ?_⟩
    · show execDomainEnable f s = _
      refine settled_writeRow h (by simp [hobj, hv]) ?_
      rw [domainControlEffect, decide_eq_true hv, domainRequest_enable hr hp hst hm]
    · show execDomainEnable f s = _
      refine settled_writeRow_of_writes h (by simp [hobj, hv]) ?_
      rw [domainControlEffect, decide_eq_true hv, domainRequest_isOn hr hp hst]
    · show execDomainDisable f s = _
      refine settled_writeRow h (by simp [hobj, hv]) ?_
      rw [domainControlEffect, decide_eq_false (by omega), domainRequest_disable hr hp ha hst hd]
    · show execDieReset f s = _
      refine settled_writeRow h hobj ?_
      rw [dieControlEffect]
      refine if_neg ?_
      rw [hon, hr, hu]
      exact nofun
  · intro s d hd
    refine ⟨fun hst hr => ?_, fun hst => ?_, fun hst he hn => ?_⟩
    · intro t hp
      have hexec : exec (.powerUpComplete d) s = .next (seen s (s.powerUpDone d).settle) := powerRow_eq_seen _ _ hd
      rw [hexec, State.powerUpDone, if_neg (not_or.mpr ⟨not_not_intro hst, by rw [hr]; exact nofun⟩)]
      exact congrArg (fun u : State => Host.Outcome.next (seen s u.pumpPower.settle)) (if_neg hp)
    · intro t hp
      have hexec : exec (.powerDownComplete d) s = .next (seen s (s.powerDownDone d).settle) := powerRow_eq_seen _ _ hd
      rw [hexec, State.powerDownDone, if_neg (not_not_intro hst)]
      exact congrArg (fun u : State => Host.Outcome.next (seen s u.settle)) (if_neg hp)
    · intro t
      have hexec : exec (.powerUpTimeout d) s = .next (seen s (s.powerUpFails d).settle) := powerRow_eq_seen _ _ hd
      rw [hexec, State.powerUpFails, if_neg (not_or.mpr ⟨not_not_intro hst, by rw [he]; exact nofun⟩)]
      dsimp only
      rw [if_neg hn]
      rfl

/-! ### The start -/

/-- A request leaves the start as it is. -/
theorem inSession_startState (s : State) (f : Frame) : (inSession s f).start = s.start := by
  obtain ⟨m, o, p, u, n, h⟩ := onlyCarried_inSession s f
  rw [h]

/-- A step under way that is late, or whose image may stop, ends in a false start. -/
theorem falseStart_of_step {s : State} {n : Nat} (hs : s.start.phase = .step n)
    (h : 3 ≤ n ∨ s.elapsed s.start.stepSince (stepBound n) = true) : falseStart s =
      let used := s.rd O.bootSlotUsed
      let t := ((s.resetTo 5 (.step 2) true).wr O.lastFalseStartStep n).add O.falseStarts 1
      if 3 ≤ t.rd O.falseStarts then
        (({ t with objs := s.objs.keep (fun k => decide (0x1100 ≤ keyIndex k) && decide (keyIndex k < 0x1200) || survives k) } : State).wrAll
          [(O.lastResetCause, 5), (O.domainState domAlwaysOn, domOn), (O.lastFalseStartStep, n), (O.falseStarts, t.rd O.falseStarts)]).enterWalk 0x01
      else t.beginStart 2 (if used = 0xFF then none else some used) := by
  have hstops : ¬(n < 3 ∧ s.elapsed s.start.stepSince (stepBound n) = false) := fun hn =>
    h.elim (fun h3 => by omega) fun he => Bool.false_ne_true (hn.2.symm.trans he)
  rw [falseStart, hs]
  dsimp only
  rw [if_neg hstops]

/-- Settles O58: the steps, the false start, the controls and the boot slots, each by its branch. -/
theorem startAndBoot : Obligations.StartAndBoot := by
  refine ⟨?_, ?_, ?_, ?_⟩
  · intro s r n hs he
    refine ⟨?_, fun h4 hi => ?_, fun h6 hl => ?_, fun h9 => ?_⟩
    · have hexec : exec (.startStepComplete r) s = .next (seen s (startStepDone r s)) := done_eq_seen s _
      rw [hexec, startStepDone, hs]
      dsimp only
      rw [if_neg (by rw [he]; exact nofun)]
    · subst h4
      exact if_pos hi
    · subst h6
      exact if_pos (List.all_eq_true.mpr fun l hmem => decide_eq_true (hl l hmem))
    · subst h9
      rfl
  · intro s n hs h used t
    have hexec : exec .falseStart s = .next (seen s (falseStart s)) := done_eq_seen s _
    rw [hexec, falseStart_of_step hs h]
    refine ⟨fun hlt => ?_, fun hle => ?_⟩
    · exact congrArg (fun u : State => Host.Outcome.next (seen s u)) (if_neg (Nat.not_le.mpr hlt))
    · exact congrArg (fun u : State => Host.Outcome.next (seen s u)) (if_pos hle)
  · intro s f h t
    refine ⟨fun hk hv hphase => ?_, fun hk hv hw => ?_, fun hk p hp hv hused => ?_, fun hk p hp hv => ?_⟩
    · have hnow : ¬s.start.phase = .restarting := by rw [hphase]; exact nofun
      have hstarting : ¬(inSession s f).starting = true := by
        rw [State.starting, inSession_startState, hphase]
        exact nofun
      show execRestart f s = _
      rw [execRestart, if_neg hnow, writeRow_of_writes _ _ h (by simp [hk, hv]), startControlEffect, if_pos hv, if_neg hstarting, answer_done, done_eq_seen]
      rfl
    · show execClearFalseStarts f s = _
      refine done_writeRow_of_writes h (by simp [hk, hv]) ?_
      rw [startControlEffect, if_neg (by omega), if_pos hw]
    · have herase : exec (p.1 f) s = done s (writeRow (isBootSlotControl p.2.1) bootSlotControlEffect f s) ∧ p.2.1 ≤ 2 ∧ p.2.1 - 1 = p.2.2 := by
        simp only [List.mem_cons, List.not_mem_nil, or_false] at hp
        rcases hp with rfl | rfl
        · exact ⟨rfl, by decide, rfl⟩
        · exact ⟨rfl, by decide, rfl⟩
      obtain ⟨hexec, hle, hn⟩ := herase
      rw [hexec]
      refine done_writeRow_of_writes h (by simp [isBootSlotControl, hk, hv]) ?_
      rw [bootSlotControlEffect, hv, if_pos hle, hn, State.eraseSlot, if_neg hused]
    · have hverify : exec (p.1 f) s = done s (writeRow (isBootSlotControl p.2.1) bootSlotControlEffect f s) ∧ ¬p.2.1 ≤ 2 ∧ p.2.1 - 3 = p.2.2 := by
        simp only [List.mem_cons, List.not_mem_nil, or_false] at hp
        rcases hp with rfl | rfl
        · exact ⟨rfl, by decide, rfl⟩
        · exact ⟨rfl, by decide, rfl⟩
      obtain ⟨hexec, hle, hn⟩ := hverify
      rw [hexec]
      refine done_writeRow_of_writes h (by simp [isBootSlotControl, hk, hv]) ?_
      rw [bootSlotControlEffect, hv, if_neg hle, hn, State.checkSlot]
  · intro s f h hobj t n m hused hvalid hinvalid hwritten
    show execBootImageWrite f s = _
    refine done_domainRow_of_writesWhole h hobj ?_
    have hfresh : ¬(m.written.any (fun w => decide (f.offset < w.2) && decide (w.1 < f.offset + f.body.length))) = true := by
      rw [List.any_eq_true]
      rintro ⟨w, hmem, hw⟩
      rw [Bool.and_eq_true, decide_eq_true_eq, decide_eq_true_eq] at hw
      exact hwritten w hmem hw
    rw [bootImageEffect]
    dsimp only
    exact (if_neg (not_or.mpr ⟨hused, not_or.mpr ⟨hvalid, hinvalid⟩⟩)).trans (if_neg hfresh)

/-! ### Service inputs and supply -/

/-- Settles O59: each input by its branch. -/
theorem serviceInputsAndSupply : Obligations.ServiceInputsAndSupply := by
  refine ⟨fun s hfree => ⟨?_, fun hen hphase => ?_⟩, fun s hin => ⟨fun hrst hphase => ?_, fun hrst hphase hcause => ?_, fun hrst hphase hcause => ?_,
    fun pin hpin => ?_, fun level => ⟨?_, ?_⟩, fun hfree => ?_, fun sensor reading hsensor htrip hhot => ?_, ?_⟩, fun s => rfl, fun s hin => ?_,
    fun s htrip hlow => ?_, ?_⟩
  · intro hen htrip hphase t
    have hexec : exec .pwrEnHigh s = .next (seen s (pwrHigh s)) := done_eq_seen s _
    rw [hexec, pwrHigh, hen, hfree, if_neg nofun]
    dsimp only
    rw [if_neg (by rw [htrip, hphase]; exact nofun)]
  · have hexec : exec .pwrEnLow s = .next (seen s (pwrLow s)) := done_eq_seen s _
    rw [hexec, pwrLow, hen, hfree, if_neg nofun]
    exact congrArg (fun u : State => Host.Outcome.next (seen s u)) (if_neg hphase)
  · have hexec : exec .rstNLow s = .next (seen s (rstLow s)) := done_eq_seen s _
    rw [hexec, rstLow, if_neg (by rw [hrst, hin]; exact nofun)]
    exact congrArg (fun u : State => Host.Outcome.next (seen s u)) (if_neg hphase)
  · have hexec : exec .rstNHigh s = .next (seen s (rstHigh s)) := done_eq_seen s _
    rw [hexec, rstHigh, if_neg (by rw [hrst, hin]; exact nofun)]
    exact congrArg (fun u : State => Host.Outcome.next (seen s u)) ((if_pos hphase).trans (if_neg hcause))
  · have hexec : exec .rstNHigh s = .next (seen s (rstHigh s)) := done_eq_seen s _
    rw [hexec, rstHigh, if_neg (by rw [hrst, hin]; exact nofun)]
    exact congrArg (fun u : State => Host.Outcome.next (seen s u)) ((if_pos hphase).trans (if_pos hcause))
  · show execGlitchFiltered pin s = _
    rw [execGlitchFiltered, if_neg (Nat.not_le.mpr hpin), if_pos hin, done_eq_seen]
  · show execBootSelAccepted 2 level s = _
    rw [execBootSelAccepted, if_neg (by decide), if_neg (by rw [hin]; exact nofun), if_pos rfl, done_eq_seen]
  · show execBootSelAccepted 3 level s = _
    rw [execBootSelAccepted, if_neg (by decide), if_neg (by rw [hin]; exact nofun), if_neg (by decide), done_eq_seen]
  · show execPwrEnRejected s = _
    rw [execPwrEnRejected, hin, hfree, done_eq_seen]
    rfl
  · show execThermalTrip sensor reading s = _
    have hnew : ¬(!s.start.inputInRange || s.start.tripHold || decide (reading < tripPoint sensor)) = true := by
      rw [hin, htrip, decide_eq_false (Int.not_lt.mpr hhot)]
      exact nofun
    rw [execThermalTrip, if_neg (Nat.not_le.mpr hsensor), done_eq_seen, thermalTrip, if_neg hnew, tripNow]
  · have hexec : exec .inputOutOfRange s = .next (seen s (inputDown s)) := done_eq_seen s _
    rw [hexec, inputDown, if_neg (by rw [hin]; exact nofun)]
  · have hexec : exec .inputInRange s = .next (seen s (inputUp s)) := done_eq_seen s _
    rw [hexec, inputUp, if_neg (by rw [hin]; exact nofun)]
  · have hexec : exec .tripRelease s = .next (seen s (tripRelease s)) := done_eq_seen s _
    rw [hexec, tripRelease, if_pos (by rw [htrip, hlow]; rfl)]
  · intro s r hserved slow t
    have hexec : exec (.governorStep r) s = .next (seen s (governorStep r s)) := done_eq_seen s _
    rw [hexec, governorStep, if_neg (by rw [hserved]; exact nofun)]

end Sys2Proof.Machine
end
